-- ==== Sys2Proof/Word.lean ====
section
/-!
DEFINITION. Words, registers and operand shapes of the Halsezan instruction set (01, 02): the plain data that
the instructions of Syntax.lean are made of.
-/

namespace Sys2Proof

/-- A 64-bit register value (R9). -/
abbrev Word := BitVec 64
/-- A 32-bit instruction, literal, lane or constant-bank word (R53, R147). -/
abbrev W32 := BitVec 32
/-- A byte of memory (R2). -/
abbrev Byte := BitVec 8
/-- A vector register: 16 lanes of 32 bits, lane i at bits [32i+31:32i] (R147). -/
abbrev Vec := BitVec 512
/-- A mask register: bit i governs lane i (R16). -/
abbrev Mask := BitVec 16

/-- s0–s63, a 6-bit scalar field (R55). -/
abbrev SReg := Fin 64
/-- s0–s31, a scalar operand of an Rv, Cv or F layout (R55). -/
abbrev LReg := Fin 32
/-- v0–v31. -/
abbrev VReg := Fin 32
/-- m0–m7. -/
abbrev MReg := Fin 8
/-- g0–g15. -/
abbrev GReg := Fin 16

/-- A source register with its wait bit (R12). -/
structure Src (n : Nat) where
  reg : Fin n
  wait : Bool
deriving DecidableEq, Repr

/-- Operand b of an R or Rv instruction: a register, or the trailing literal word (R56). -/
inductive Opd (n : Nat) where
  | reg (r : Src n)
  | lit (w : W32)
deriving DecidableEq, Repr

/-- A mask in operand b: a mask register, or a literal whose bits [15:0] are the mask (R172). -/
inductive MOpd where
  | reg (m : MReg)
  | lit (w : W32)
deriving DecidableEq, Repr

/-- Scalar source, any of s0–s63. -/
abbrev SSrc := Src 64
/-- Scalar source of an Rv layout, s0–s31. -/
abbrev LSrc := Src 32
/-- Vector source. -/
abbrev VSrc := Src 32
/-- Scalar operand b or a literal. -/
abbrev SOpd := Opd 64
/-- Scalar operand b of an Rv layout or a literal. -/
abbrev LOpd := Opd 32
/-- Vector operand b or a literal in every lane. -/
abbrev VOpd := Opd 32

/-- Floating-point types of fn[1:0] (R151). -/
inductive FTy where | f32 | f16 | bf16
deriving DecidableEq, Repr

/-- Floating-point types of the constant-bank forms (R157, R160). -/
inductive CTy where | f32 | bf16
deriving DecidableEq, Repr

/-- Types of `vcmp` (R162). -/
inductive CmpTy where | i32 | n32 | f32 | f16 | bf16
deriving DecidableEq, Repr

/-- Predicates of `vcmp` (R162). -/
inductive Pred where | eq | ne | lt | ge
deriving DecidableEq, Repr

/-- Types of the reductions (R165). -/
inductive RedTy where | i32 | n32 | f32
deriving DecidableEq, Repr

/-- Kinds of `fcvt` (R155). -/
inductive CvtKind where | f32 | f16 | bf16 | i64 | n64 | i32 | n32
deriving DecidableEq, Repr

/-- Kinds of `vcvt` (R168). -/
inductive VCvtKind where | f32 | f16 | bf16 | e4m3 | e5m2 | i32 | n32
deriving DecidableEq, Repr

/-- Targets of quantisation (R169). -/
inductive QTy where | e4m3 | e5m2
deriving DecidableEq, Repr

/-- Retention hints of the M format (R62). -/
inductive Hint where | dflt | st | sk | by
deriving DecidableEq, Repr

/-- Size codes of the scratchpad rows (R62). -/
inductive Size where | b1 | b2 | b4 | b8
deriving DecidableEq, Repr

/-- Destination classes of `drain` (R191). -/
inductive DrainPath where | sp | l2 | mem | host | link
deriving DecidableEq, Repr

/-- The four shift and rotate operations of row 0x07 (R64). -/
inductive ShOp where | shl | shr | sar | rol
deriving DecidableEq, Repr

/-- The three engines of a cluster (R237). -/
inductive Engine where | m | c | g
deriving DecidableEq, Repr

/-- The three ways of writing a ctl register (R140). -/
inductive CtlOp where | wr | set | clr
deriving DecidableEq, Repr

/-- Number of bytes of a size code. -/
def Size.bytes : Size → Nat
  | .b1 => 1 | .b2 => 2 | .b4 => 4 | .b8 => 8

/-- Floating-point type of a constant-bank form. -/
def CTy.toFTy : CTy → FTy
  | .f32 => .f32 | .bf16 => .bf16

end Sys2Proof
end

