-- ==== Sys2Proof/Machine/Float.lean ====
section
/-!
DEFINITION. The number formats and their arithmetic (03): exact dyadic values, one rounding function for every format
and mode with its flags (R91–R99), conversions (R100–R103), the group dot product (R104–R107), quantisation
(R112, R113), and the correctly rounded functions of R171.
-/

namespace Sys2Proof.Fp

/-- The five flags in the FLAGS bit order NX, UF, OF, DZ, NV (R48). -/
abbrev Flags := BitVec 5
/-- Inexact. -/
def NX : Flags := 1
/-- Underflow. -/
def UF : Flags := 2
/-- Overflow. -/
def OF : Flags := 4
/-- Division by zero. -/
def DZ : Flags := 8
/-- Invalid operation. -/
def NV : Flags := 16

/-- Rounding modes (R95). -/
inductive RM where | rne | rtz | rup | rdn | rna
deriving DecidableEq, Repr

/-- The rounding mode that a legal RM field names (R48). -/
def RM.ofField : Nat → RM
  | 1 => .rtz | 2 => .rup | 3 => .rdn | 4 => .rna | _ => .rne

/-- A floating-point format: exponent and fraction widths, bias, the exponent and the (1+F)-bit significand of the
largest finite value, and whether it has infinities (R91, R93). -/
structure Fmt where
  eb : Nat
  fb : Nat
  bias : Int
  emax : Int
  maxq : Nat
  inf : Bool
deriving DecidableEq, Repr

/-- FP32 (R91). -/
def f32 : Fmt := ⟨8, 23, 127, 127, 0xFFFFFF, true⟩
/-- FP16. -/
def f16 : Fmt := ⟨5, 10, 15, 15, 0x7FF, true⟩
/-- BF16. -/
def bf16 : Fmt := ⟨8, 7, 127, 127, 0xFF, true⟩
/-- E5M2. -/
def e5m2 : Fmt := ⟨5, 2, 15, 15, 7, true⟩
/-- E4M3, whose top exponent is normal but for one encoding (R93). -/
def e4m3 : Fmt := ⟨4, 3, 7, 8, 14, false⟩

/-- Binary64, in folds only (R207). -/
def f64 : Fmt := ⟨11, 52, 1023, 1023, 0x1FFFFFFFFFFFFF, true⟩

/-- The format of a type suffix. -/
def fmt : FTy → Fmt | .f32 => f32 | .f16 => f16 | .bf16 => bf16
/-- The format of a quantisation target. -/
def qfmt : QTy → Fmt | .e4m3 => e4m3 | .e5m2 => e5m2

/-- A value: NaN with its sign and whether it is signalling, infinity, or (−1)^s · m · 2^x. -/
inductive Val where
  | nan (s sig : Bool)
  | inf (s : Bool)
  | fin (s : Bool) (m : Nat) (x : Int)
deriving DecidableEq, Repr

/-- Width of a format in bits. -/
def Fmt.width (F : Fmt) : Nat := 1 + F.eb + F.fb
/-- The exponent of the smallest normal value (R92). -/
def Fmt.emin (F : Fmt) : Int := 1 - F.bias
/-- The sign bit in place (R91). -/
def Fmt.signBit (F : Fmt) (s : Bool) : Nat := if s then 2 ^ (F.eb + F.fb) else 0
/-- The canonical NaN with a sign (R91, R94). -/
def Fmt.nan (F : Fmt) (s : Bool) : Nat :=
  F.signBit s + (if F.inf then (2 ^ F.eb - 1) * 2 ^ F.fb + 2 ^ (F.fb - 1) else 2 ^ (F.eb + F.fb) - 1)
/-- The largest finite value with a sign (R91). -/
def Fmt.max (F : Fmt) (s : Bool) : Nat :=
  F.signBit s + ((F.emax + F.bias - 1).toNat * 2 ^ F.fb + F.maxq)
/-- Infinity with a sign; a format without infinities saturates (R96, R101). -/
def Fmt.infty (F : Fmt) (s : Bool) : Nat :=
  if F.inf then F.signBit s + (2 ^ F.eb - 1) * 2 ^ F.fb else F.max s

/-- The value of an encoding (R92, R93, R94). -/
def Fmt.val (F : Fmt) (n : Nat) : Val :=
  let s := n / 2 ^ (F.eb + F.fb) % 2 == 1
  let e := n / 2 ^ F.fb % 2 ^ F.eb
  let f := n % 2 ^ F.fb
  if e == 0 then .fin s f (F.emin - F.fb)
  else if e == 2 ^ F.eb - 1 && F.inf then
    if f == 0 then .inf s else .nan s (f / 2 ^ (F.fb - 1) == 0)
  else if e == 2 ^ F.eb - 1 && f == 2 ^ F.fb - 1 then .nan s false
  else .fin s (2 ^ F.fb + f) ((e : Int) - F.bias - F.fb)

/-- `m · 2^x` brought to units of `2^u`: the whole units and what the rest is, as (quotient, remainder, divisor). -/
def split (m : Nat) (x u : Int) : Nat × Nat × Nat :=
  if u ≤ x then (m * 2 ^ (x - u).toNat, 0, 1)
  else (m / 2 ^ (u - x).toNat, m % 2 ^ (u - x).toNat, 2 ^ (u - x).toNat)

/-- `m · 2^x` rounded to whole units of `2^u` in a mode, and whether that was inexact (R95). -/
def roundAt (rm : RM) (s : Bool) (m : Nat) (x u : Int) : Nat × Bool :=
  let (q, r, d) := split m x u
  let up := match rm with
    | .rne => decide (d < 2 * r) || (2 * r == d && q % 2 == 1)
    | .rtz => false
    | .rup => r != 0 && !s
    | .rdn => r != 0 && s
    | .rna => r != 0 && decide (d ≤ 2 * r)
  (if up then q + 1 else q, r != 0)

/-- Result of an overflow (R96). -/
def overflow (F : Fmt) (rm : RM) (s : Bool) : Nat :=
  match rm with
  | .rne => F.infty s
  | .rna => F.infty s
  | .rtz => F.max s
  | .rup => if s then F.max s else F.infty s
  | .rdn => if s then F.infty s else F.max s

/-- The exact value (−1)^s · m · 2^x rounded once to a format, with the flags of R96–R98. -/
def round (F : Fmt) (rm : RM) (s : Bool) (m : Nat) (x : Int) : Nat × Flags :=
  if m == 0 then (F.signBit s, 0)
  else
    let u := (Nat.log2 m : Int) + x - F.fb
    let (qu, _) := roundAt rm s m x u
    if decide (F.emax - F.fb < u) || (u == F.emax - F.fb && decide (F.maxq < qu)) then (overflow F rm s, OF ||| NX)
    else
      let ub := max u (F.emin - F.fb)
      let (q, ix) := roundAt rm s m x ub
      let tiny := decide ((Nat.log2 qu : Int) + u < F.emin)
      (F.signBit s + ((ub + F.fb + F.bias - 1).toNat * 2 ^ F.fb + q),
        (if ix then NX else 0) ||| (if tiny && ix then UF else 0))

/-- An inexact value kept as an odd last bit, enough below every rounding position. -/
def jam (m : Nat) (inexact : Bool) : Nat := 2 * m + (if inexact then 1 else 0)

/-- The sign of a zero sum of operands with the signs `s` and `t` (R99). -/
def zeroSign (rm : RM) (s t : Bool) : Bool := if s == t then s else rm == .rdn

/-- A signalling NaN raises NV (R94). -/
def Val.sigFlag : Val → Flags
  | .nan _ true => NV
  | _ => 0
/-- NaN. -/
def Val.isNan : Val → Bool
  | .nan _ _ => true
  | _ => false
/-- The sign of a value. -/
def Val.sign : Val → Bool
  | .nan s _ => s | .inf s => s | .fin s _ _ => s
/-- The value with its sign flipped. -/
def Val.neg : Val → Val
  | .nan s q => .nan (!s) q | .inf s => .inf (!s) | .fin s m x => .fin (!s) m x
/-- ±0. -/
def Val.isZero : Val → Bool
  | .fin _ m _ => m == 0
  | _ => false
/-- A signed integer weight of a finite value in units of `2^x0`, for `x0` at most its exponent. -/
def toUnits (s : Bool) (m : Nat) (x x0 : Int) : Int :=
  let a : Int := (m * 2 ^ (x - x0).toNat : Nat)
  if s then -a else a

/-- Sum of two values rounded to a format (R94, R96–R99). -/
def add (F : Fmt) (rm : RM) (a b : Val) : Nat × Flags :=
  let nv := a.sigFlag ||| b.sigFlag
  match a, b with
  | .nan _ _, _ => (F.nan false, nv)
  | _, .nan _ _ => (F.nan false, nv)
  | .inf s, .inf t => if s == t then (F.infty s, 0) else (F.nan false, NV)
  | .inf s, .fin _ _ _ => (F.infty s, 0)
  | .fin _ _ _, .inf t => (F.infty t, 0)
  | .fin s m x, .fin t n y =>
    let z := min x y
    let v := toUnits s m x z + toUnits t n y z
    if v == 0 then (F.signBit (zeroSign rm s t), 0) else round F rm (decide (v < 0)) v.natAbs z

/-- Exact product; `none` for 0 × ∞ and for a NaN operand. -/
def mulVal : Val → Val → Option Val
  | .fin s m x, .fin t n y => some (.fin (s != t) (m * n) (x + y))
  | .inf s, .inf t => some (.inf (s != t))
  | .inf s, .fin t n _ => if n == 0 then none else some (.inf (s != t))
  | .fin s m _, .inf t => if m == 0 then none else some (.inf (s != t))
  | _, _ => none

/-- NV of a product: a signalling operand, or 0 × ∞ (R98). -/
def mulFlag (a b : Val) : Flags :=
  a.sigFlag ||| b.sigFlag ||| (if !a.isNan && !b.isNan && (mulVal a b).isNone then NV else 0)

/-- Product rounded to a format. -/
def mul (F : Fmt) (rm : RM) (a b : Val) : Nat × Flags :=
  match mulVal a b with
  | none => (F.nan false, mulFlag a b)
  | some (.fin s m x) => round F rm s m x
  | some (.inf s) => (F.infty s, 0)
  | some (.nan _ _) => (F.nan false, 0)

/-- a × b + c rounded once (R152); 0 × ∞ gives NaN and NV even when c is a quiet NaN. -/
def fma (F : Fmt) (rm : RM) (a b c : Val) : Nat × Flags :=
  match mulVal a b with
  | none => (F.nan false, mulFlag a b ||| c.sigFlag)
  | some p => add F rm p c

/-- Quotient rounded to a format (R98, R99). -/
def div (F : Fmt) (rm : RM) (a b : Val) : Nat × Flags :=
  let s := a.sign != b.sign
  match a, b with
  | .nan _ _, _ => (F.nan false, a.sigFlag ||| b.sigFlag)
  | _, .nan _ _ => (F.nan false, b.sigFlag)
  | .inf _, .inf _ => (F.nan false, NV)
  | .inf _, .fin _ _ _ => (F.infty s, 0)
  | .fin _ _ _, .inf _ => (F.signBit s, 0)
  | .fin _ m x, .fin _ n y =>
    if n == 0 then (if m == 0 then (F.nan false, NV) else (F.infty s, DZ))
    else
      let k := F.fb + 6 + Nat.log2 n
      let q := m * 2 ^ k / n
      round F rm s (jam q (m * 2 ^ k % n != 0)) (x - y - k - 1)

/-- Integer square root by digits, for arguments below `4^k`. -/
def isqrtFrom (n : Nat) : Nat → Nat → Nat
  | 0, r => r
  | k + 1, r =>
    let t := r + 2 ^ k
    isqrtFrom n k (if t * t ≤ n then t else r)
/-- Integer square root. -/
def isqrt (n : Nat) : Nat := isqrtFrom n (Nat.log2 n / 2 + 1) 0

/-- Square root rounded to a format (R98, R99). -/
def sqrt (F : Fmt) (rm : RM) (a : Val) : Nat × Flags :=
  match a with
  | .nan _ _ => (F.nan false, a.sigFlag)
  | .inf s => if s then (F.nan false, NV) else (F.infty false, 0)
  | .fin s m x =>
    if m == 0 then (F.signBit s, 0)
    else if s then (F.nan false, NV)
    else
      let (m, x) := if x % 2 == 0 then (m, x) else (2 * m, x - 1)
      let k := F.fb + 4
      let n := m * 4 ^ k
      let r := isqrt n
      round F rm false (jam r (r * r != n)) (x / 2 - k - 1)

/-- Reciprocal (R171). -/
def recip (F : Fmt) (rm : RM) (a : Val) : Nat × Flags := div F rm (.fin false 1 0) a

/-- Reciprocal square root, correctly rounded (R171). -/
def rsqrt (F : Fmt) (rm : RM) (a : Val) : Nat × Flags :=
  match a with
  | .nan _ _ => (F.nan false, a.sigFlag)
  | .inf s => if s then (F.nan false, NV) else (0, 0)
  | .fin s m x =>
    if m == 0 then (F.infty s, DZ)
    else if s then (F.nan false, NV)
    else
      let (m, x) := if x % 2 == 0 then (m, x) else (2 * m, x - 1)
      let k := F.fb + 4 + Nat.log2 m
      let r := isqrt (4 ^ k / m)
      round F rm false (jam r (r * r * m != 4 ^ k)) (-(x / 2) - k - 1)

/-- Bits of the fixed-point work of `exp2`; the value is irrational but for integral arguments, and 256 bits leave its
rounding decided. -/
def expBits : Nat := 256
/-- ln 2 in units of 2^-256, rounded down: the sum of 1 / (k · 2^k). -/
def ln2 : Nat → Nat
  | 0 => 0
  | k + 1 => 2 ^ (2 * expBits) / ((k + 1) * 2 ^ (k + 1)) + ln2 k
/-- The terms y^n / n! from the n-th on, in units of 2^-256. -/
def expTerms (y : Nat) : Nat → Nat → Nat → Nat
  | 0, _, _ => 0
  | fuel + 1, n, t => t + expTerms y fuel (n + 1) (t * y / ((n + 1) * 2 ^ expBits))

/-- 2^a, correctly rounded (R171). -/
def exp2 (F : Fmt) (rm : RM) (a : Val) : Nat × Flags :=
  match a with
  | .nan _ _ => (F.nan false, a.sigFlag)
  | .inf s => if s then (0, 0) else (F.infty false, 0)
  | .fin s m x =>
    if m == 0 then round F rm false 1 0
    else if 13 < (Nat.log2 m : Int) + x then
      if s then round F rm false (2 ^ 40 + 1) (-20000) else round F rm false (2 ^ 40 + 1) 20000
    else
      let z := min x 0
      let v := toUnits s m x z
      let den : Nat := 2 ^ (-z).toNat
      let n := v / (den : Int)
      let f := (v % (den : Int)).toNat
      if f == 0 then round F rm false 1 n
      else
        let y := f * (ln2 300 / 2 ^ expBits) / den
        round F rm false (jam (expTerms y 80 0 (2 ^ expBits)) true) (n - expBits - 1)

/-- a < b, a = b, a > b of two numbers that are not NaN, as an `Ordering` (R153). -/
def cmpNum (a b : Val) : Ordering :=
  match a, b with
  | .inf s, .inf t => if s == t then .eq else if s then .lt else .gt
  | .inf s, _ => if s then .lt else .gt
  | _, .inf t => if t then .gt else .lt
  | .fin s m x, .fin t n y =>
    let z := min x y
    compare (toUnits s m x z) (toUnits t n y z)
  | _, _ => .eq

/-- Minimum (`true`) or maximum of two encodings (R150). -/
def minMax (F : Fmt) (isMin : Bool) (a b : Nat) : Nat × Flags :=
  let va := F.val a
  let vb := F.val b
  let fl := va.sigFlag ||| vb.sigFlag
  if va.isNan && vb.isNan then (F.nan false, fl)
  else if va.isNan then (b, fl)
  else if vb.isNan then (a, fl)
  else
    let less := match cmpNum va vb with
      | .lt => true | .gt => false | .eq => va.sign && !vb.sign
    (if less == isMin then a else b, fl)

/-- The bit that `fcmp` sets, and its flag (R153). -/
def cmp (a b : Val) : Nat × Flags :=
  let fl := a.sigFlag ||| b.sigFlag
  if a.isNan || b.isNan then (8, fl)
  else (match cmpNum a b with | .lt => 1 | .eq => 2 | .gt => 4, fl)

/-- The class bit of an encoding (R154). -/
def classify (F : Fmt) (n : Nat) : Nat :=
  match F.val n with
  | .nan _ sig => if sig then 0x100 else 0x200
  | .inf s => if s then 0x001 else 0x080
  | .fin s m _ =>
    if m == 0 then (if s then 0x008 else 0x010)
    else if m < 2 ^ F.fb then (if s then 0x004 else 0x020)
    else (if s then 0x002 else 0x040)

/-- Conversion between floating-point formats (R100, R101). -/
def convert (G : Fmt) (rm : RM) (a : Val) : Nat × Flags :=
  match a with
  | .nan s sig => (G.nan s, if sig || !G.inf then NV else 0)
  | .inf s => (G.infty s, if G.inf then 0 else OF)
  | .fin s m x => round G rm s m x

/-- A value rounded to an integral value of its own format (R155). -/
def integral (F : Fmt) (rm : RM) (n : Nat) : Nat × Flags :=
  match F.val n with
  | .nan s sig => (F.nan s, if sig then NV else 0)
  | .inf _ => (n, 0)
  | .fin s m x =>
    if 0 ≤ x then (n, 0)
    else
      let (q, ix) := roundAt rm s m x 0
      ((round F rm s q 0).1, if ix then NX else 0)

/-- Floating point to an integer of `w` bits, as its two's complement (R102). -/
def toInt (rm : RM) (signed : Bool) (w : Nat) (a : Val) : Nat × Flags :=
  let hi : Int := if signed then 2 ^ (w - 1) - 1 else 2 ^ w - 1
  let lo : Int := if signed then -(2 ^ (w - 1)) else 0
  let enc (v : Int) : Nat := (v % 2 ^ w).toNat
  match a with
  | .nan _ _ => (0, NV)
  | .inf s => (enc (if s then lo else hi), NV)
  | .fin s m x =>
    let (q, ix) := roundAt rm s m x 0
    let v : Int := if s then -(q : Int) else q
    if v < lo then (enc lo, NV) else if hi < v then (enc hi, NV) else (enc v, if ix then NX else 0)

/-- Integer to floating point (R103). -/
def ofInt (F : Fmt) (rm : RM) (v : Int) : Nat × Flags := round F rm (decide (v < 0)) v.natAbs 0

/-- Largest ilog2 of the nonzero products of a group. -/
def groupMax : List Val → Option Int
  | [] => none
  | .fin _ m x :: t =>
    if m == 0 then groupMax t
    else
      let e := (Nat.log2 m : Int) + x
      match groupMax t with
      | none => some e
      | some k => some (max e k)
  | _ :: t => groupMax t

/-- One product in units of 2^(e−27), truncated in magnitude, and whether bits were lost (R104). -/
def window (q : Int) : Val → Int × Bool
  | .fin s m x =>
    let (k, r, _) := split m x q
    (if s then -(k : Int) else k, r != 0)
  | _ => (0, false)

/-- The group sum g of R104, R105: exact products of sixteen pairs, summed in a 28-bit window, rounded to FP32. -/
def groupSum (ab : List (Val × Val)) : Nat × Flags :=
  let ps := ab.map fun p => mulVal p.1 p.2
  if ab.any (fun p => p.1.isNan || p.2.isNan) || ps.any (·.isNone) then
    (f32.nan false, ab.foldl (fun f p => f ||| mulFlag p.1 p.2) 0)
  else
    let ps := ps.filterMap id
    let pos := ps.any fun v => match v with | .inf s => !s | _ => false
    let neg := ps.any fun v => match v with | .inf s => s | _ => false
    if pos && neg then (f32.nan false, NV)
    else if pos then (f32.infty false, 0)
    else if neg then (f32.infty true, 0)
    else
      match groupMax ps with
      | none => (0, 0)
      | some e =>
        let ws := ps.map (window (e - 27))
        let s := ws.foldl (fun a w => a + w.1) (0 : Int)
        let lost := ws.any (·.2)
        let (g, fl) := if s == 0 then (0, 0) else round f32 .rne (decide (s < 0)) s.natAbs (e - 27)
        (g, fl ||| (if lost then NX else 0))

/-- One group dot product onto an FP32 accumulator (R104–R106). -/
def groupDot (ab : List (Val × Val)) (c : Nat) : Nat × Flags :=
  let (g, f1) := groupSum ab
  let (r, f2) := add f32 .rne (f32.val c) (f32.val g)
  (r, f1 ||| f2)

/-- Lists cut into groups of sixteen, in order (R107). -/
def groups16 {α : Type} : Nat → List α → List (List α)
  | 0, _ => []
  | _ + 1, [] => []
  | k + 1, l => l.take 16 :: groups16 k (l.drop 16)

/-- A dot product of a depth that is a multiple of 16, group after group onto one accumulator (R107). -/
def dot (ab : List (Val × Val)) (c : Nat) : Nat × Flags :=
  (groups16 (ab.length / 16) ab).foldl (fun (acc : Nat × Flags) g =>
    let (r, f) := groupDot g acc.1
    (r, acc.2 ||| f)) (c, 0)

/-- The value of a ternary code and its NV (R90). -/
def ternary : Nat → Int × Flags
  | 0 => (0, 0) | 1 => (1, 0) | 3 => (-1, 0) | _ => (0, NV)

/-- A byte as INT8 (R89). -/
def int8 (n : Nat) : Int := if n % 256 < 128 then (n % 256 : Nat) else ((n % 256 : Nat) : Int) - 256

/-- A value scaled by a power of two and rounded RNE to FP32 (R111); a NaN keeps its sign. -/
def dequant (k : Int) (a : Val) : Nat × Flags :=
  match a with
  | .fin s m x => round f32 .rne s m (x + k)
  | v => convert f32 .rne v

/-- The row scale of a row of FP32 encodings under the scale base b (R112). -/
def rowScale (q : QTy) (xs : List Nat) (b : Int) : Int :=
  let best := xs.foldl (fun (a : Option Val) x =>
    match f32.val x with
    | .fin _ m e =>
      if m == 0 then a
      else match a with
        | none => some (.fin false m e)
        | some v => if cmpNum v (.fin false m e) == .lt then some (.fin false m e) else a
    | _ => a) none
  match best with
  | some (.fin _ m e) =>
    let k := (Nat.log2 m : Int) + e
    let emax : Int := match q with | .e4m3 => 8 | .e5m2 => 15
    -- m / 2^log2 m ≤ 1.75
    let t := if 4 * m ≤ 7 * 2 ^ Nat.log2 m then k - emax else k - emax + 1
    max (-32) (min 31 (t - b))
  | _ => 0

/-- One element converted to a quantisation target (R113). -/
def quantElem (q : QTy) (k : Int) (x : Nat) : Nat × Flags :=
  let F := qfmt q
  match f32.val x with
  | .nan s _ => (F.nan s, NV)
  | .inf s => (F.max s, OF)
  | .fin s m e =>
    let (r, fl) := round F .rne s m (e - k)
    if fl &&& OF != 0 then (F.max s, OF ||| NX) else (r, fl)

/-- A row quantised: its row scale, its elements and the flags raised (R112). -/
def quantRow (q : QTy) (xs : List Nat) (b : Int) : Int × List Nat × Flags :=
  let s := rowScale q xs b
  let ys := xs.map (quantElem q (b + s))
  (s, ys.map (·.1), ys.foldl (fun f y => f ||| y.2) 0)

end Sys2Proof.Fp
end

