-- ==== Sys2Proof/Syntax.lean ====
section
/-!
DEFINITION. The one type of steps: the 252 encoded instructions of the opcode map (R64), then the device, host and
link events of spec/opcode_table.json, one constructor per row. An instruction carries its decoded operands; an
event carries which unit acts and the data that comes from outside the package (entry 4 of the assumption log).
-/

namespace Sys2Proof

/-- One row of spec/opcode_table.json each. -/
inductive Instr where
  /-- `ADD` (R115). -/
  | add (d : SReg) (a : SSrc) (b : SOpd)
  /-- `SUB` (R115). -/
  | sub (d : SReg) (a : SSrc) (b : SOpd)
  /-- `MUL` (R115). -/
  | mul (d : SReg) (a : SSrc) (b : SOpd)
  /-- `MULH_I64` (R115). -/
  | mulhI64 (d : SReg) (a : SSrc) (b : SOpd)
  /-- `MULH_N64` (R115). -/
  | mulhN64 (d : SReg) (a : SSrc) (b : SOpd)
  /-- `DIV_I64` (R116). -/
  | divI64 (d : SReg) (a : SSrc) (b : SOpd)
  /-- `DIV_N64` (R116). -/
  | divN64 (d : SReg) (a : SSrc) (b : SOpd)
  /-- `REM_I64` (R116). -/
  | remI64 (d : SReg) (a : SSrc) (b : SOpd)
  /-- `REM_N64` (R116). -/
  | remN64 (d : SReg) (a : SSrc) (b : SOpd)
  /-- `AND` (R115). -/
  | and (d : SReg) (a : SSrc) (b : SOpd)
  /-- `OR` (R115). -/
  | or (d : SReg) (a : SSrc) (b : SOpd)
  /-- `XOR` (R115). -/
  | xor (d : SReg) (a : SSrc) (b : SOpd)
  /-- `ANDN` (R115). -/
  | andn (d : SReg) (a : SSrc) (b : SOpd)
  /-- `SHL` (R115). -/
  | shl (d : SReg) (a : SSrc) (b : SOpd)
  /-- `SHR` (R115). -/
  | shr (d : SReg) (a : SSrc) (b : SOpd)
  /-- `SAR` (R115). -/
  | sar (d : SReg) (a : SSrc) (b : SOpd)
  /-- `ROL` (R115). -/
  | rol (d : SReg) (a : SSrc) (b : SOpd)
  /-- `MIN_I64` (R115). -/
  | minI64 (d : SReg) (a : SSrc) (b : SOpd)
  /-- `MIN_N64` (R115). -/
  | minN64 (d : SReg) (a : SSrc) (b : SOpd)
  /-- `MAX_I64` (R115). -/
  | maxI64 (d : SReg) (a : SSrc) (b : SOpd)
  /-- `MAX_N64` (R115). -/
  | maxN64 (d : SReg) (a : SSrc) (b : SOpd)
  /-- `SEL` (R117). -/
  | sel (d : SReg) (a : SSrc) (b : SOpd)
  /-- `CLZ` (R118). -/
  | clz (d : SReg) (a : SSrc)
  /-- `CTZ` (R118). -/
  | ctz (d : SReg) (a : SSrc)
  /-- `POPC` (R118). -/
  | popc (d : SReg) (a : SSrc)
  /-- `MOV` (R118). -/
  | mov (d : SReg) (a : SSrc)
  /-- `SEXT_I8` (R118). -/
  | sextI8 (d : SReg) (a : SSrc)
  /-- `SEXT_I16` (R118). -/
  | sextI16 (d : SReg) (a : SSrc)
  /-- `SEXT_I32` (R118). -/
  | sextI32 (d : SReg) (a : SSrc)
  /-- `ZEXT_N8` (R118). -/
  | zextN8 (d : SReg) (a : SSrc)
  /-- `ZEXT_N16` (R118). -/
  | zextN16 (d : SReg) (a : SSrc)
  /-- `ZEXT_N32` (R118). -/
  | zextN32 (d : SReg) (a : SSrc)
  /-- `SET_EQ` (R118). -/
  | setEq (d : SReg) (a : SSrc) (b : SOpd)
  /-- `SET_NE` (R118). -/
  | setNe (d : SReg) (a : SSrc) (b : SOpd)
  /-- `SET_LT` (R118). -/
  | setLt (d : SReg) (a : SSrc) (b : SOpd)
  /-- `SET_GE` (R118). -/
  | setGe (d : SReg) (a : SSrc) (b : SOpd)
  /-- `SET_LTN` (R118). -/
  | setLtn (d : SReg) (a : SSrc) (b : SOpd)
  /-- `SET_GEN` (R118). -/
  | setGen (d : SReg) (a : SSrc) (b : SOpd)
  /-- `ADD_IMM` (R119). -/
  | addImm (d : SReg) (a : SSrc) (imm : BitVec 12)
  /-- `AND_IMM` (R119). -/
  | andImm (d : SReg) (a : SSrc) (imm : BitVec 12)
  /-- `OR_IMM` (R119). -/
  | orImm (d : SReg) (a : SSrc) (imm : BitVec 12)
  /-- `XOR_IMM` (R119). -/
  | xorImm (d : SReg) (a : SSrc) (imm : BitVec 12)
  /-- `SHL_IMM` (R119). -/
  | shlImm (d : SReg) (a : SSrc) (n : Fin 64)
  /-- `SHR_IMM` (R119). -/
  | shrImm (d : SReg) (a : SSrc) (n : Fin 64)
  /-- `SAR_IMM` (R119). -/
  | sarImm (d : SReg) (a : SSrc) (n : Fin 64)
  /-- `ROL_IMM` (R119). -/
  | rolImm (d : SReg) (a : SSrc) (n : Fin 64)
  /-- `BFX` (R120). -/
  | bfx (d : SReg) (a : SSrc) (p n : Fin 64)
  /-- `BFI` (R120). -/
  | bfi (d : SReg) (a : SSrc) (p n : Fin 64)
  /-- `LI` (R121). -/
  | li (d : SReg) (imm : BitVec 12)
  /-- `LIH` (R65). -/
  | lih (d : SReg) (a : SSrc) (b : SOpd)
  /-- `LEA` (R121). -/
  | lea (d : SReg) (a : SSrc) (b : SOpd) (k : Fin 4)
  /-- `BR_EQ` (R123). -/
  | brEq (a b : SSrc) (off : BitVec 11)
  /-- `BR_NE` (R123). -/
  | brNe (a b : SSrc) (off : BitVec 11)
  /-- `BR_LT` (R123). -/
  | brLt (a b : SSrc) (off : BitVec 11)
  /-- `BR_GE` (R123). -/
  | brGe (a b : SSrc) (off : BitVec 11)
  /-- `BR_LTN` (R123). -/
  | brLtn (a b : SSrc) (off : BitVec 11)
  /-- `BR_GEN` (R123). -/
  | brGen (a b : SSrc) (off : BitVec 11)
  /-- `BR_ANY` (R124). -/
  | brAny (a : MReg) (off : BitVec 11)
  /-- `BR_ALL` (R124). -/
  | brAll (a : MReg) (off : BitVec 11)
  /-- `BR_NONE` (R124). -/
  | brNone (a : MReg) (off : BitVec 11)
  /-- `BR_NALL` (R124). -/
  | brNall (a : MReg) (off : BitVec 11)
  /-- `BRA` (R126). -/
  | bra (off : BitVec 25)
  /-- `CALL` (R126). -/
  | call (off : BitVec 25)
  /-- `JTAB` (R128). -/
  | jtab (a : SSrc) (len : BitVec 12)
  /-- `JR` (R127). -/
  | jr (a : SSrc)
  /-- `CALL_REG` (R127). -/
  | callReg (a : SSrc)
  /-- `TRAP` (R137). -/
  | trap (c : BitVec 8)
  /-- `CTL_RD` (R140). -/
  | ctlRd (d : SReg) (c : BitVec 12)
  /-- `CTL_WR` (R140). -/
  | ctlWr (a : SSrc) (c : BitVec 12)
  /-- `CTL_SET` (R140). -/
  | ctlSet (a : SSrc) (c : BitVec 12)
  /-- `CTL_CLR` (R140). -/
  | ctlClr (a : SSrc) (c : BitVec 12)
  /-- `FENCE` (R144). -/
  | fence (a : SSrc) (scope : Fin 6)
  /-- `FADD` (R151). -/
  | fadd (d : SReg) (a : SSrc) (b : SOpd) (t : FTy)
  /-- `FSUB` (R151). -/
  | fsub (d : SReg) (a : SSrc) (b : SOpd) (t : FTy)
  /-- `FMUL` (R151). -/
  | fmul (d : SReg) (a : SSrc) (b : SOpd) (t : FTy)
  /-- `FDIV` (R151). -/
  | fdiv (d : SReg) (a : SSrc) (b : SOpd) (t : FTy)
  /-- `FMIN` (R150). -/
  | fmin (d : SReg) (a : SSrc) (b : SOpd) (t : FTy)
  /-- `FMAX` (R150). -/
  | fmax (d : SReg) (a : SSrc) (b : SOpd) (t : FTy)
  /-- `FSGN` (R151). -/
  | fsgn (d : SReg) (a : SSrc) (b : SOpd) (t : FTy)
  /-- `FMA` (R152). -/
  | fma (d : SReg) (a : SSrc) (b : SOpd) (t : FTy)
  /-- `FMS` (R152). -/
  | fms (d : SReg) (a : SSrc) (b : SOpd) (t : FTy)
  /-- `FNMA` (R152). -/
  | fnma (d : SReg) (a : SSrc) (b : SOpd) (t : FTy)
  /-- `FSQRT` (R152). -/
  | fsqrt (d : SReg) (a : SSrc) (t : FTy)
  /-- `FCMP` (R153). -/
  | fcmp (d : SReg) (a : SSrc) (b : SOpd) (t : FTy)
  /-- `FCLASS` (R154). -/
  | fclass (d : SReg) (a : SSrc) (t : FTy)
  /-- `FCVT` (R155). -/
  | fcvt (d : SReg) (a : SSrc) (k j : CvtKind)
  /-- `LI_F32` (R156). -/
  | liF32 (d : LReg) (imm : BitVec 20)
  /-- `FADD_CB` (R157). -/
  | faddCb (d : SReg) (a : SSrc) (t : CTy) (c : Fin 256)
  /-- `FSUB_CB` (R157). -/
  | fsubCb (d : SReg) (a : SSrc) (t : CTy) (c : Fin 256)
  /-- `FMUL_CB` (R157). -/
  | fmulCb (d : SReg) (a : SSrc) (t : CTy) (c : Fin 256)
  /-- `FMA_CB` (R157). -/
  | fmaCb (d : SReg) (a : SSrc) (t : CTy) (c : Fin 256)
  /-- `FMIN_CB` (R157). -/
  | fminCb (d : SReg) (a : SSrc) (t : CTy) (c : Fin 256)
  /-- `FMAX_CB` (R157). -/
  | fmaxCb (d : SReg) (a : SSrc) (t : CTy) (c : Fin 256)
  /-- `VADD_I32` (R158). -/
  | vaddI32 (d : VReg) (a : VSrc) (b : VOpd) (m : MReg)
  /-- `VSUB_I32` (R158). -/
  | vsubI32 (d : VReg) (a : VSrc) (b : VOpd) (m : MReg)
  /-- `VMUL_I32` (R158). -/
  | vmulI32 (d : VReg) (a : VSrc) (b : VOpd) (m : MReg)
  /-- `VMIN_I32` (R158). -/
  | vminI32 (d : VReg) (a : VSrc) (b : VOpd) (m : MReg)
  /-- `VMIN_N32` (R158). -/
  | vminN32 (d : VReg) (a : VSrc) (b : VOpd) (m : MReg)
  /-- `VMAX_I32` (R158). -/
  | vmaxI32 (d : VReg) (a : VSrc) (b : VOpd) (m : MReg)
  /-- `VMAX_N32` (R158). -/
  | vmaxN32 (d : VReg) (a : VSrc) (b : VOpd) (m : MReg)
  /-- `VAND_I32` (R158). -/
  | vandI32 (d : VReg) (a : VSrc) (b : VOpd) (m : MReg)
  /-- `VOR_I32` (R158). -/
  | vorI32 (d : VReg) (a : VSrc) (b : VOpd) (m : MReg)
  /-- `VXOR_I32` (R158). -/
  | vxorI32 (d : VReg) (a : VSrc) (b : VOpd) (m : MReg)
  /-- `VSHL_I32` (R158). -/
  | vshlI32 (d : VReg) (a : VSrc) (b : VOpd) (m : MReg)
  /-- `VSHR_I32` (R158). -/
  | vshrI32 (d : VReg) (a : VSrc) (b : VOpd) (m : MReg)
  /-- `VSAR_I32` (R158). -/
  | vsarI32 (d : VReg) (a : VSrc) (b : VOpd) (m : MReg)
  /-- `VADD_FP` (R159). -/
  | vaddFp (d : VReg) (a : VSrc) (b : VOpd) (m : MReg) (t : FTy)
  /-- `VSUB_FP` (R159). -/
  | vsubFp (d : VReg) (a : VSrc) (b : VOpd) (m : MReg) (t : FTy)
  /-- `VMUL_FP` (R159). -/
  | vmulFp (d : VReg) (a : VSrc) (b : VOpd) (m : MReg) (t : FTy)
  /-- `VFMA` (R159). -/
  | vfma (d : VReg) (a : VSrc) (b : VOpd) (m : MReg) (t : FTy)
  /-- `VMIN_FP` (R159). -/
  | vminFp (d : VReg) (a : VSrc) (b : VOpd) (m : MReg) (t : FTy)
  /-- `VMAX_FP` (R159). -/
  | vmaxFp (d : VReg) (a : VSrc) (b : VOpd) (m : MReg) (t : FTy)
  /-- `VCMP` (R162). -/
  | vcmp (d : MReg) (a : VSrc) (b : VOpd) (m : MReg) (t : CmpTy) (p : Pred)
  /-- `VSEL` (R162). -/
  | vsel (d : VReg) (a : VSrc) (b : VOpd) (k : MReg)
  /-- `VFCLASS` (R162). -/
  | vfclass (d : VReg) (a : VSrc) (m : MReg) (t : FTy)
  /-- `VBCAST` (R164). -/
  | vbcast (d : VReg) (a : LSrc) (m : MReg)
  /-- `VINS` (R164). -/
  | vins (d : VReg) (a : LSrc) (b : LOpd)
  /-- `VEXT_N32` (R164). -/
  | vextN32 (d : LReg) (a : VSrc) (b : LOpd)
  /-- `VEXT_I32` (R164). -/
  | vextI32 (d : LReg) (a : VSrc) (b : LOpd)
  /-- `VPERM` (R164). -/
  | vperm (d : VReg) (a : VSrc) (b : VOpd) (m : MReg)
  /-- `VSLIDE` (R164). -/
  | vslide (d : VReg) (a : VSrc) (b : LOpd) (m : MReg)
  /-- `VREDSUM` (R165). -/
  | vredsum (d : LReg) (a : VSrc) (k : MReg) (t : RedTy)
  /-- `VREDMAX` (R165). -/
  | vredmax (d : LReg) (a : VSrc) (k : MReg) (t : RedTy)
  /-- `VREDMIN` (R165). -/
  | vredmin (d : LReg) (a : VSrc) (k : MReg) (t : RedTy)
  /-- `VDOT8_E4M3` (R167). -/
  | vdot8E4m3 (d : LReg) (a : VSrc) (b : VOpd) (m : MReg)
  /-- `VDOT8_E5M2` (R167). -/
  | vdot8E5m2 (d : LReg) (a : VSrc) (b : VOpd) (m : MReg)
  /-- `VDOT8_I8` (R167). -/
  | vdot8I8 (d : LReg) (a : VSrc) (b : VOpd) (m : MReg)
  /-- `VDOTT_T2` (R167). -/
  | vdottT2 (d : LReg) (a : VSrc) (b : VOpd) (m : MReg)
  /-- `VCVT` (R168). -/
  | vcvt (d : VReg) (a : VSrc) (m : MReg) (k j : VCvtKind)
  /-- `VQNT` (R169). -/
  | vqnt (d : VReg) (a : VSrc) (b : LOpd) (f : QTy)
  /-- `VDQNT` (R170). -/
  | vdqnt (d : VReg) (a : VSrc) (b : LOpd) (f : QTy)
  /-- `VRECIP` (R171). -/
  | vrecip (d : VReg) (a : VSrc) (m : MReg) (t : FTy)
  /-- `VRSQRT` (R171). -/
  | vrsqrt (d : VReg) (a : VSrc) (m : MReg) (t : FTy)
  /-- `VEXP2` (R171). -/
  | vexp2 (d : VReg) (a : VSrc) (m : MReg) (t : FTy)
  /-- `VBCAST_F32` (R161). -/
  | vbcastF32 (d : VReg) (imm : BitVec 20)
  /-- `VADD_CB` (R160). -/
  | vaddCb (d a : VReg) (m : MReg) (t : CTy) (c : Fin 256)
  /-- `VSUB_CB` (R160). -/
  | vsubCb (d a : VReg) (m : MReg) (t : CTy) (c : Fin 256)
  /-- `VMUL_CB` (R160). -/
  | vmulCb (d a : VReg) (m : MReg) (t : CTy) (c : Fin 256)
  /-- `VFMA_CB` (R160). -/
  | vfmaCb (d a : VReg) (m : MReg) (t : CTy) (c : Fin 256)
  /-- `VMIN_CB` (R160). -/
  | vminCb (d a : VReg) (m : MReg) (t : CTy) (c : Fin 256)
  /-- `VMAX_CB` (R160). -/
  | vmaxCb (d a : VReg) (m : MReg) (t : CTy) (c : Fin 256)
  /-- `MAND` (R173). -/
  | mand (d a : MReg) (b : MOpd)
  /-- `MOR` (R173). -/
  | mor (d a : MReg) (b : MOpd)
  /-- `MXOR` (R173). -/
  | mxor (d a : MReg) (b : MOpd)
  /-- `MNOT` (R173). -/
  | mnot (d a : MReg)
  /-- `MPOP` (R173). -/
  | mpop (d : SReg) (a : MReg)
  /-- `MFIRST` (R173). -/
  | mfirst (d : SReg) (a : MReg)
  /-- `MSET` (R173). -/
  | mset (d : MReg) (b : SOpd)
  /-- `MTEST` (R173). -/
  | mtest (d : SReg) (a : MReg) (b : SOpd)
  /-- `LD_I8` (R180). -/
  | ldI8 (d : SReg) (b : SSrc) (h : Hint) (off : BitVec 10)
  /-- `LD_N8` (R180). -/
  | ldN8 (d : SReg) (b : SSrc) (h : Hint) (off : BitVec 10)
  /-- `LD_I16` (R180). -/
  | ldI16 (d : SReg) (b : SSrc) (h : Hint) (off : BitVec 10)
  /-- `LD_N16` (R180). -/
  | ldN16 (d : SReg) (b : SSrc) (h : Hint) (off : BitVec 10)
  /-- `LD_I32` (R180). -/
  | ldI32 (d : SReg) (b : SSrc) (h : Hint) (off : BitVec 10)
  /-- `LD_N32` (R180). -/
  | ldN32 (d : SReg) (b : SSrc) (h : Hint) (off : BitVec 10)
  /-- `LD_I64` (R180). -/
  | ldI64 (d : SReg) (b : SSrc) (h : Hint) (off : BitVec 10)
  /-- `ST_I8` (R180). -/
  | stI8 (d : SReg) (b : SSrc) (h : Hint) (off : BitVec 10)
  /-- `ST_I16` (R180). -/
  | stI16 (d : SReg) (b : SSrc) (h : Hint) (off : BitVec 10)
  /-- `ST_I32` (R180). -/
  | stI32 (d : SReg) (b : SSrc) (h : Hint) (off : BitVec 10)
  /-- `ST_I64` (R180). -/
  | stI64 (d : SReg) (b : SSrc) (h : Hint) (off : BitVec 10)
  /-- `VLD` (R180). -/
  | vld (d : VReg) (b : SSrc) (h : Hint) (off : BitVec 10)
  /-- `VST` (R180). -/
  | vst (d : VReg) (b : SSrc) (h : Hint) (off : BitVec 10)
  /-- `LD_SP` (R182). -/
  | ldSp (d : SReg) (b : SSrc) (z : Size) (off : BitVec 10)
  /-- `LD_SP_N` (R182). -/
  | ldSpN (d : SReg) (b : SSrc) (z : Size) (off : BitVec 10)
  /-- `ST_SP` (R182). -/
  | stSp (d : SReg) (b : SSrc) (z : Size) (off : BitVec 10)
  /-- `LDSYNC` (R183). -/
  | ldsync (d : SReg) (b : SSrc) (mem wide : Bool) (off : BitVec 10)
  /-- `VLD_SP` (R182). -/
  | vldSp (d : VReg) (b : SSrc) (off : BitVec 10)
  /-- `VST_SP` (R182). -/
  | vstSp (d : VReg) (b : SSrc) (off : BitVec 10)
  /-- `STFILL` (R184). -/
  | stfill (a : SSrc) (b : SOpd) (mem wide : Bool)
  /-- `CLRFE` (R184). -/
  | clrfe (a : SSrc) (b : SOpd) (mem : Bool)
  /-- `LDA` (R189). -/
  | lda (d : SReg) (a : SSrc) (narrow : Bool)
  /-- `STL` (R189). -/
  | stl (a : SSrc) (b : SOpd) (narrow : Bool)
  /-- `PREF` (R190). -/
  | pref (a : SSrc)
  /-- `PREF_ST` (R190). -/
  | prefSt (a : SSrc)
  /-- `PREF_SK` (R190). -/
  | prefSk (a : SSrc)
  /-- `DRAIN` (R191). -/
  | drain (p : DrainPath)
  /-- `VGATHER` (R187). -/
  | vgather (d : VReg) (a : LSrc) (b : VOpd) (m : MReg) (sp : Bool)
  /-- `VSCATTER` (R187). -/
  | vscatter (d : VReg) (a : LSrc) (b : VOpd) (m : MReg) (sp : Bool)
  /-- `AMO_ADD` (R193). -/
  | amoAdd (d : SReg) (a : SSrc) (b : SOpd) (wide : Bool)
  /-- `AMO_MIN_I` (R193). -/
  | amoMinI (d : SReg) (a : SSrc) (b : SOpd) (wide : Bool)
  /-- `AMO_MIN_N` (R193). -/
  | amoMinN (d : SReg) (a : SSrc) (b : SOpd) (wide : Bool)
  /-- `AMO_MAX_I` (R193). -/
  | amoMaxI (d : SReg) (a : SSrc) (b : SOpd) (wide : Bool)
  /-- `AMO_MAX_N` (R193). -/
  | amoMaxN (d : SReg) (a : SSrc) (b : SOpd) (wide : Bool)
  /-- `AMO_AND` (R193). -/
  | amoAnd (d : SReg) (a : SSrc) (b : SOpd) (wide : Bool)
  /-- `AMO_OR` (R193). -/
  | amoOr (d : SReg) (a : SSrc) (b : SOpd) (wide : Bool)
  /-- `AMO_XOR` (R193). -/
  | amoXor (d : SReg) (a : SSrc) (b : SOpd) (wide : Bool)
  /-- `AMO_SWAP` (R193). -/
  | amoSwap (d : SReg) (a : SSrc) (b : SOpd) (wide : Bool)
  /-- `AMO_CAS` (R193). -/
  | amoCas (d : SReg) (a : SSrc) (b : SOpd) (wide : Bool)
  /-- `AMO_STADD` (R193). -/
  | amoStadd (a : SSrc) (b : SOpd) (wide : Bool)
  /-- `AMO_STMIN_I` (R193). -/
  | amoStminI (a : SSrc) (b : SOpd) (wide : Bool)
  /-- `AMO_STMIN_N` (R193). -/
  | amoStminN (a : SSrc) (b : SOpd) (wide : Bool)
  /-- `AMO_STMAX_I` (R193). -/
  | amoStmaxI (a : SSrc) (b : SOpd) (wide : Bool)
  /-- `AMO_STMAX_N` (R193). -/
  | amoStmaxN (a : SSrc) (b : SOpd) (wide : Bool)
  /-- `AMO_STAND` (R193). -/
  | amoStand (a : SSrc) (b : SOpd) (wide : Bool)
  /-- `AMO_STOR` (R193). -/
  | amoStor (a : SSrc) (b : SOpd) (wide : Bool)
  /-- `AMO_STXOR` (R193). -/
  | amoStxor (a : SSrc) (b : SOpd) (wide : Bool)
  /-- `AMO_STSWAP` (R193). -/
  | amoStswap (a : SSrc) (b : SOpd) (wide : Bool)
  /-- `AMO_STCAS` (R193). -/
  | amoStcas (d : SReg) (a : SSrc) (b : SOpd) (wide : Bool)
  /-- `FAMO_ADD` (R195). -/
  | famoAdd (d : SReg) (a : SSrc) (b : SOpd)
  /-- `FAMO_STADD` (R195). -/
  | famoStadd (a : SSrc) (b : SOpd)
  /-- `TLD` (R197). -/
  | tld (a : SSrc) (b : SOpd) (peek : Bool)
  /-- `TST` (R198). -/
  | tst (a : SSrc) (b : SOpd)
  /-- `TWAIT` (R200). -/
  | twait (a : SSrc)
  /-- `TWAIT_Y` (R200). -/
  | twaitY (a : SSrc)
  /-- `TDROP` (R201). -/
  | tdrop (a : SSrc)
  /-- `TPEEK` (R202). -/
  | tpeek (d : SReg) (a : SSrc) (b : SOpd)
  /-- `THMAKE` (R202). -/
  | thmake (d : SReg) (a : SSrc) (b : SOpd)
  /-- `TQ` (R202). -/
  | tq (d : SReg) (a : SSrc)
  /-- `SPAWN` (R213). -/
  | spawn (a : SSrc) (b : SOpd)
  /-- `SPAWNK` (R213). -/
  | spawnk (a : SSrc) (b : SOpd)
  /-- `LAUNCH` (R216). -/
  | launch (a : SSrc)
  /-- `REAP` (R221). -/
  | reap (d : VReg) (a : SSrc) (b : SOpd)
  /-- `PATH` (R219). -/
  | path (d : SReg) (b : SOpd)
  /-- `REC_LD` (R220). -/
  | recLd (d : SReg) (b : SOpd)
  /-- `CALLR` (R131). -/
  | callr (d : SReg) (a : SSrc) (b : SOpd)
  /-- `REPLY` (R132). -/
  | reply (a : SSrc)
  /-- `CHAN_CFG` (R223). -/
  | chanCfg (a : SSrc)
  /-- `CHAN_CFG_REL` (R224). -/
  | chanCfgRel (a : SSrc)
  /-- `REJOIN` (R229). -/
  | rejoin (a : SSrc) (b : SOpd)
  /-- `LOCKSTEP` (R228). -/
  | lockstep (a : SSrc)
  /-- `CREWID` (R230). -/
  | crewid (d : SReg)
  /-- `RV_INIT` (R232). -/
  | rvInit (a : SSrc) (b : SOpd)
  /-- `RV_ARR` (R232). -/
  | rvArr (d : SReg) (a : SSrc)
  /-- `RV_WAIT` (R232). -/
  | rvWait (a : SSrc) (b : SOpd)
  /-- `BO_ADD` (R235). -/
  | boAdd (a : SSrc) (b : SOpd) (sp : Bool)
  /-- `BO_INIT` (R235). -/
  | boInit (a : SSrc) (b : SOpd) (sp : Bool)
  /-- `BO_ARR` (R235). -/
  | boArr (d : SReg) (a : SSrc) (sp : Bool)
  /-- `BO_WAIT` (R235). -/
  | boWait (a : SSrc) (b : SOpd) (sp : Bool)
  /-- `GSET` (R236). -/
  | gset (g : GReg) (b : SOpd)
  /-- `GCLR` (R236). -/
  | gclr (g : GReg)
  /-- `DIGEST_ADD` (R405). -/
  | digestAdd (a : SSrc) (b : SOpd)
  /-- `DIGEST_END` (R406). -/
  | digestEnd (d : SReg) (a : SSrc) (b : SOpd)
  /-- `CPUSH_M` (R238). -/
  | cpushM (d : SReg) (a : VSrc) (hi : Bool)
  /-- `CPUSH_C` (R238). -/
  | cpushC (d : SReg) (a : VSrc) (hi : Bool)
  /-- `CPUSH_G` (R238). -/
  | cpushG (d : SReg) (a : VSrc) (hi : Bool)
  /-- `CWAIT_M` (R240). -/
  | cwaitM (a : SSrc)
  /-- `CWAIT_C` (R240). -/
  | cwaitC (a : SSrc)
  /-- `CWAIT_G` (R240). -/
  | cwaitG (a : SSrc)
  /-- `CSEQ_M` (R241). -/
  | cseqM (d : SReg)
  /-- `CSEQ_C` (R241). -/
  | cseqC (d : SReg)
  /-- `CSEQ_G` (R241). -/
  | cseqG (d : SReg)
  /-- `ABIND` (R253). -/
  | abind (d : SReg) (b : SOpd)
  /-- `SKIM_ROW` (R261). -/
  | skimRow (d : SReg)
  /-- `SKIM_END` (R262). -/
  | skimEnd (a : VReg) (b : SOpd)
  /-- `NOP` (R136). -/
  | nop
  /-- `ERET` (R138). -/
  | eret
  /-- `HALT` (R139). -/
  | halt
  /-- `TEXIT` (R217). -/
  | texit
  /-- `YIELD` (R218). -/
  | yield
  /-- `DETACH` (R227). -/
  | detach
  /-- `SPLIT` (R227). -/
  | split
  /-- `AREL` (R254). -/
  | arel
  /-- `MMA_E4M3` (R256). -/
  | mmaE4m3 (p : Nat)
  /-- `MMA_E5M2` (R256). -/
  | mmaE5m2 (p : Nat)
  /-- `MMA_BF16` (R256). -/
  | mmaBf16 (p : Nat)
  /-- `MMA_I8` (R256). -/
  | mmaI8 (p : Nat)
  /-- `MMA_T2` (R256). -/
  | mmaT2 (p : Nat)
  /-- `MZERO` (R257). -/
  | mzero (p : Nat)
  /-- `MDRAIN` (R259). -/
  | mdrain (p : Nat)
  /-- `RING_CFG` (R251). -/
  | ringCfg (p : Nat) (e : Engine)
  /-- `RING_ADV` (R251). -/
  | ringAdv (p : Nat) (e : Engine)
  /-- `RING_RESET` (R251). -/
  | ringReset (p : Nat) (e : Engine)
  /-- `COPY` (R265). -/
  | copy (p : Nat)
  /-- `COPY2` (R265). -/
  | copy2 (p : Nat)
  /-- `COPY_Q` (R266). -/
  | copyQ (p : Nat)
  /-- `COPY_V_LOAD` (R267). -/
  | copyVLoad (p : Nat)
  /-- `COPY_V_STORE` (R267). -/
  | copyVStore (p : Nat)
  /-- `TFILL` (R265). -/
  | tfill (p : Nat)
  /-- `GATHER` (R268). -/
  | gather (p : Nat)
  /-- `GDIST` (R269). -/
  | gdist (p : Nat)
  /-- `TOPK_MERGE` (R270). -/
  | topkMerge (p : Nat)
  /-- `COMMAND_END` (R240). -/
  | commandEnd (p : Nat) (e : Engine)
  /-- `POSTED_CAUSE_TAKEN` (R242). -/
  | postedCauseTaken (p : Nat)
  /-- `LATE_OUTCOME_TAKEN` (R177). -/
  | lateOutcomeTaken (p : Nat)
  /-- `FILL_LAND` (R15). -/
  | fillLand (p id part : Nat)
  /-- `TILE_DELIVERY` (R197). -/
  | tileDelivery (n w : Nat)
  /-- `FRONT_END_DECODE` (R329). -/
  | frontEndDecode (c : Nat)
  /-- `CREW_STALL_DETACH` (R331). -/
  | crewStallDetach (c m : Nat)
  /-- `ABIND_GRANT` (R253). -/
  | abindGrant (p : Nat)
  /-- `ARRAY_LEASE_GRANT` (R258). -/
  | arrayLeaseGrant (cl : Nat)
  /-- `ARRAY_LEASE_IDLE_END` (R258). -/
  | arrayLeaseIdleEnd (cl : Nat)
  /-- `MDRAIN_ROW_READ` (R259). -/
  | mdrainRowRead (p : Nat)
  /-- `RING_TILE_PUBLISH` (R250). -/
  | ringTilePublish (cl r : Nat)
  /-- `RECORD_ARRIVAL` (R311). -/
  | recordArrival (die n : Nat)
  /-- `PAN_OVERFLOW_RETURN` (R313). -/
  | panOverflowReturn (die : Nat)
  /-- `DISPATCH` (R316). -/
  | dispatch (die : Nat)
  /-- `LAUNCH_EXPANSION` (R321). -/
  | launchExpansion (n : Nat)
  /-- `INSTANCE_COMPLETE` (R323). -/
  | instanceComplete (n : Nat)
  /-- `LAUNCH_COMPLETE` (R323). -/
  | launchComplete (n : Nat)
  /-- `IDLE_DIE_STEAL` (R326). -/
  | idleDieSteal (die : Nat)
  /-- `STEAL_REQUEST` (R326). -/
  | stealRequest (die : Nat)
  /-- `REPLY_DELIVERY` (R133). -/
  | replyDelivery (n : Nat)
  /-- `VERSION_REQUEST` (R280). -/
  | versionRequest (die n : Nat)
  /-- `VERSION_STORE_REQUEST` (R198). -/
  | versionStoreRequest (die n pick : Nat)
  /-- `VERSION_COPY_DONE` (R198). -/
  | versionCopyDone (die n : Nat)
  /-- `ARRIVAL_NOTICE` (R282). -/
  | arrivalNotice (die n : Nat)
  /-- `SLICE_WRITE` (R290). -/
  | sliceWrite (p id part : Nat)
  /-- `SHARER_UPDATE_ACK` (R290). -/
  | sharerUpdateAck (key core : Nat)
  /-- `DIRECTORY_REQUEST` (R293). -/
  | directoryRequest (die key : Nat) (wr : Bool)
  /-- `INVALIDATE_ACK` (R293). -/
  | invalidateAck (die key : Nat)
  /-- `L2_EVICTION` (R295). -/
  | l2Eviction (die key : Nat)
  /-- `MIGRATION_MOVE` (R303). -/
  | migrationMove (die : Nat)
  /-- `MIGRATION_SWITCH` (R303). -/
  | migrationSwitch (die : Nat)
  /-- `L3_MISS_TRANSLATE` (R349). -/
  | l3MissTranslate (p id part : Nat)
  /-- `MAILBOX_SPACE_POST` (R353). -/
  | mailboxSpacePost (n : Nat)
  /-- `RAKE_WALK` (R354). -/
  | rakeWalk (p : Nat)
  /-- `WALK_ANSWER` (R350). -/
  | walkAnswer (n : Nat)
  /-- `FAULT_MESSAGE` (R356). -/
  | faultMessage (n : Nat)
  /-- `WAKE` (R357). -/
  | wake (n : Nat)
  /-- `VERSION_WAIT_TIMEOUT` (R197). -/
  | versionWaitTimeout (n : Nat)
  /-- `SYNC_TIMEOUT` (R183). -/
  | syncTimeout (p id : Nat)
  /-- `REJOIN_TIMEOUT` (R229). -/
  | rejoinTimeout (c : Nat)
  /-- `FPCSR_WRITE` (R20). -/
  | fpcsrWrite (op : CtlOp) (a : SSrc)
  /-- `TLBINV_PAGE` (R351). -/
  | tlbinvPage (op : CtlOp) (a : SSrc)
  /-- `TLBINV_ASID` (R351). -/
  | tlbinvAsid (op : CtlOp) (a : SSrc)
  /-- `TLBINV_ALL` (R351). -/
  | tlbinvAll (op : CtlOp) (a : SSrc)
  /-- `FRES_RESIDENT` (R358). -/
  | fresResident (op : CtlOp) (a : SSrc)
  /-- `FRES_REFUSED` (R358). -/
  | fresRefused (op : CtlOp) (a : SSrc)
  /-- `PREEMPT_REQUEST` (R339). -/
  | preemptRequest (die : Nat)
  /-- `RESUME_REQUEST` (R340). -/
  | resumeRequest (op : CtlOp) (a : SSrc)
  /-- `VPURGE_START` (R289). -/
  | vpurgeStart (op : CtlOp) (a : SSrc)
  /-- `VPURGE_DONE` (R289). -/
  | vpurgeDone (die : Nat)
  /-- `MEMCFG_WRITE` (R288). -/
  | memcfgWrite (op : CtlOp) (a : SSrc)
  /-- `MIGTL_TAIL_WRITE` (R304). -/
  | migtlTailWrite (op : CtlOp) (a : SSrc)
  /-- `FQTL_HEAD_WRITE` (R360). -/
  | fqtlHeadWrite (op : CtlOp) (a : SSrc)
  /-- `SECPOL_WRITE` (R411). -/
  | secpolWrite (op : CtlOp) (a : SSrc)
  /-- `DEBUG_HALT` (R413). -/
  | debugHalt (die : Nat)
  /-- `DEBUG_RESUME` (R413). -/
  | debugResume (die : Nat)
  /-- `DEBUG_STEP` (R413). -/
  | debugStep (die : Nat)
  /-- `DEBUG_SNAP` (R413). -/
  | debugSnap (die : Nat)
  /-- `DBGCOPY_BANK` (R415). -/
  | dbgcopyBank (op : CtlOp) (a : SSrc)
  /-- `DBGCOPY_TILE_SLOT` (R415). -/
  | dbgcopyTileSlot (op : CtlOp) (a : SSrc)
  /-- `DBGCOPY_RENDEZVOUS` (R415). -/
  | dbgcopyRendezvous (op : CtlOp) (a : SSrc)
  /-- `DBGCOPY_RINGS` (R415). -/
  | dbgcopyRings (op : CtlOp) (a : SSrc)
  /-- `DBGCOPY_MAILBOX` (R415). -/
  | dbgcopyMailbox (op : CtlOp) (a : SSrc)
  /-- `CTL_REGISTER_WRITE` (R45). -/
  | ctlRegisterWrite (op : CtlOp) (c : BitVec 12) (a : SSrc)
  /-- `DOORBELL` (R387). -/
  | doorbell (die slot : Nat)
  /-- `FEATACC_STAGE` (R385). -/
  | feataccStage (k : Nat) (x : Word)
  /-- `FEATACC_COMMIT` (R385). -/
  | feataccCommit (x : Word)
  /-- `PKGNUM_WRITE` (R384). -/
  | pkgnumWrite (x : Word)
  /-- `WATCH_ARM` (R389). -/
  | watchArm (n : Nat)
  /-- `WATCH_DISARM` (R389). -/
  | watchDisarm (n : Nat)
  /-- `WATCH_NOTICE` (R389). -/
  | watchNotice (n : Nat)
  /-- `HOST_REGISTER_WRITE` (R384). -/
  | hostRegisterWrite (off size : Nat) (x : Word)
  /-- `HOST_CXL_MEM_ACCESS` (R383). -/
  | hostCxlMemAccess (addr : Nat) (wr : Bool) (bytes : List Byte)
  /-- `NVME_COMPLETION` (R391). -/
  | nvmeCompletion (n : Nat) (ok : Bool) (bytes : List Byte)
  /-- `NVME_TIMEOUT` (R391). -/
  | nvmeTimeout (n : Nat)
  /-- `ATTESTATION_REQUEST` (R410). -/
  | attestationRequest (nonce : List Byte)
  /-- `VREQ` (R378). -/
  | vreq (hdr : List Word) (body : List Byte)
  /-- `VCANCEL` (R378). -/
  | vcancel (hdr : List Word) (body : List Byte)
  /-- `VNOTE` (R378). -/
  | vnote (hdr : List Word) (body : List Byte)
  /-- `VSTORE` (R378). -/
  | vstore (hdr : List Word) (body : List Byte)
  /-- `VDATA` (R378). -/
  | vdata (hdr : List Word) (body : List Byte)
  /-- `VANS` (R378). -/
  | vans (hdr : List Word) (body : List Byte)
  /-- `REC` (R378). -/
  | recMsg (hdr : List Word) (body : List Byte)
  /-- `PGREQ` (R297). -/
  | pgreq (hdr : List Word) (body : List Byte)
  /-- `PGHAND` (R297). -/
  | pghand (hdr : List Word) (body : List Byte)
  /-- `PGACK` (R297). -/
  | pgack (hdr : List Word) (body : List Byte)
  /-- `PGGRANT` (R297). -/
  | pggrant (hdr : List Word) (body : List Byte)
  /-- `LINERD` (R378). -/
  | linerd (hdr : List Word) (body : List Byte)
  /-- `LINEDATA` (R378). -/
  | linedata (hdr : List Word) (body : List Byte)
  /-- `LINEWB` (R378). -/
  | linewb (hdr : List Word) (body : List Byte)
  /-- `BINIT` (R382). -/
  | binit (hdr : List Word) (body : List Byte)
  /-- `BARR` (R382). -/
  | barr (hdr : List Word) (body : List Byte)
  /-- `BREL` (R382). -/
  | brel (hdr : List Word) (body : List Byte)
  /-- `DIGEST` (R406). -/
  | digest (hdr : List Word) (body : List Byte)
  /-- `INCARN` (R380). -/
  | incarn (hdr : List Word) (body : List Byte)
  /-- `DIE_RESET` (R398). -/
  | dieReset (die : Nat)
  /-- `SUPERVISOR_START` (R32). -/
  | supervisorStart (die : Nat)
  /-- `RAKE_START` (R32). -/
  | rakeStart (p : Nat)
  /-- `CONTROLLER_BOOT` (R408). -/
  | controllerBoot (images : List (List Byte))
  /-- `ECC_ERROR` (R394). -/
  | eccError (unit addr : Nat) (lasting : Bool)
  /-- `DIE_LOSS` (R399). -/
  | dieLoss (die : Nat)
  /-- `D2D_LINK_FAILURE` (R401). -/
  | d2dLinkFailure (reach : List Nat)
  /-- `LINK_DOWN` (R381). -/
  | linkDown (link : Nat)
  /-- `SECURITY_ALARM` (R411). -/
  | securityAlarm (src : Nat)
  /-- `CLOCK_THROTTLE` (R392). -/
  | clockThrottle (low : Bool)
  /-- `ILLEGAL_OPCODE` (R67). -/
  | illegalOpcode (w : W32)
  /-- `LINK_UP` (R381). -/
  | linkUp (link : Nat)
deriving DecidableEq, Repr

end Sys2Proof
end

