-- ==== Sys2Proof/WellFormed.lean ====
section
/-!
DEFINITION. Which terms of Instr stand for an instruction that the decoder can read, and for an event of a unit that
exists: the limits of R55, R56, R63, R66, R69, R155, R168, R169, R170, R236 and the number of units (00, R30, R31).
-/

namespace Sys2Proof

/-- A register operand b is not the encoding that means a literal (R56). -/
def Opd.ok {n : Nat} : Opd n → Bool
  | .reg r => !(r.reg.val == 0 && r.wait)
  | .lit _ => true

/-- An integer kind of `fcvt` (R155). -/
def CvtKind.isInt : CvtKind → Bool
  | .f32 => false | .f16 => false | .bf16 => false | .i64 => true | .n64 => true | .i32 => true | .n32 => true

/-- An integer kind of `vcvt` (R168). -/
def VCvtKind.isInt : VCvtKind → Bool
  | .f32 => false | .f16 => false | .bf16 => false | .e4m3 => false | .e5m2 => false | .i32 => true | .n32 => true

/-- The ctl indices that a ctl table of the manual lists (R45, R285, R314, R334, R351, R372, R393), as closed ranges. -/
def ctlListed : List (Nat × Nat) :=
  [(0x000, 0x00B), (0x010, 0x011), (0x040, 0x044), (0x110, 0x110), (0x200, 0x200), (0x300, 0x305), (0x310, 0x315),
   (0x320, 0x324), (0x330, 0x333), (0x340, 0x345), (0x350, 0x353), (0x360, 0x361), (0x370, 0x375), (0x380, 0x383)]

/-- A ctl index that passes step 5 of R68: a listed one, or one of the controller's range 0xF00–0xFFF (R45, R69). -/
def ctlIndexOk (c : Nat) : Bool :=
  ctlListed.any (fun r => decide (r.1 ≤ c ∧ c ≤ r.2)) || decide (0xF00 ≤ c ∧ c ≤ 0xFFF)

/-- Well-formed instructions and events. -/
def Instr.wf : Instr → Bool
  | .add _ _ b => b.ok
  | .sub _ _ b => b.ok
  | .mul _ _ b => b.ok
  | .mulhI64 _ _ b => b.ok
  | .mulhN64 _ _ b => b.ok
  | .divI64 _ _ b => b.ok
  | .divN64 _ _ b => b.ok
  | .remI64 _ _ b => b.ok
  | .remN64 _ _ b => b.ok
  | .and _ _ b => b.ok
  | .or _ _ b => b.ok
  | .xor _ _ b => b.ok
  | .andn _ _ b => b.ok
  | .shl _ _ b => b.ok
  | .shr _ _ b => b.ok
  | .sar _ _ b => b.ok
  | .rol _ _ b => b.ok
  | .minI64 _ _ b => b.ok
  | .minN64 _ _ b => b.ok
  | .maxI64 _ _ b => b.ok
  | .maxN64 _ _ b => b.ok
  | .sel _ _ b => b.ok
  | .clz _ _ => true
  | .ctz _ _ => true
  | .popc _ _ => true
  | .mov _ _ => true
  | .sextI8 _ _ => true
  | .sextI16 _ _ => true
  | .sextI32 _ _ => true
  | .zextN8 _ _ => true
  | .zextN16 _ _ => true
  | .zextN32 _ _ => true
  | .setEq _ _ b => b.ok
  | .setNe _ _ b => b.ok
  | .setLt _ _ b => b.ok
  | .setGe _ _ b => b.ok
  | .setLtn _ _ b => b.ok
  | .setGen _ _ b => b.ok
  | .addImm _ _ _ => true
  | .andImm _ _ _ => true
  | .orImm _ _ _ => true
  | .xorImm _ _ _ => true
  | .shlImm _ _ _ => true
  | .shrImm _ _ _ => true
  | .sarImm _ _ _ => true
  | .rolImm _ _ _ => true
  | .bfx _ _ p n => decide (1 ≤ n.val ∧ p.val + n.val ≤ 64)
  | .bfi _ _ p n => decide (1 ≤ n.val ∧ p.val + n.val ≤ 64)
  | .li _ _ => true
  | .lih _ _ b => b.ok
  | .lea _ _ b _ => b.ok
  | .brEq _ _ _ => true
  | .brNe _ _ _ => true
  | .brLt _ _ _ => true
  | .brGe _ _ _ => true
  | .brLtn _ _ _ => true
  | .brGen _ _ _ => true
  | .brAny _ _ => true
  | .brAll _ _ => true
  | .brNone _ _ => true
  | .brNall _ _ => true
  | .bra _ => true
  | .call _ => true
  | .jtab _ len => len != 0
  | .jr _ => true
  | .callReg _ => true
  | .trap _ => true
  | .ctlRd _ c => ctlIndexOk c.toNat
  | .ctlWr _ c => ctlIndexOk c.toNat
  | .ctlSet _ c => ctlIndexOk c.toNat
  | .ctlClr _ c => ctlIndexOk c.toNat
  | .fence a scope => (decide (3 ≤ scope.val) || (a.reg == 0 && !a.wait))
  | .fadd _ _ b _ => b.ok
  | .fsub _ _ b _ => b.ok
  | .fmul _ _ b _ => b.ok
  | .fdiv _ _ b _ => b.ok
  | .fmin _ _ b _ => b.ok
  | .fmax _ _ b _ => b.ok
  | .fsgn _ _ b _ => b.ok
  | .fma _ _ b _ => b.ok
  | .fms _ _ b _ => b.ok
  | .fnma _ _ b _ => b.ok
  | .fsqrt _ _ _ => true
  | .fcmp _ _ b _ => b.ok
  | .fclass _ _ _ => true
  | .fcvt _ _ k j => !(k.isInt && j.isInt)
  | .liF32 _ _ => true
  | .faddCb _ _ _ _ => true
  | .fsubCb _ _ _ _ => true
  | .fmulCb _ _ _ _ => true
  | .fmaCb _ _ _ _ => true
  | .fminCb _ _ _ _ => true
  | .fmaxCb _ _ _ _ => true
  | .vaddI32 _ _ b _ => b.ok
  | .vsubI32 _ _ b _ => b.ok
  | .vmulI32 _ _ b _ => b.ok
  | .vminI32 _ _ b _ => b.ok
  | .vminN32 _ _ b _ => b.ok
  | .vmaxI32 _ _ b _ => b.ok
  | .vmaxN32 _ _ b _ => b.ok
  | .vandI32 _ _ b _ => b.ok
  | .vorI32 _ _ b _ => b.ok
  | .vxorI32 _ _ b _ => b.ok
  | .vshlI32 _ _ b _ => b.ok
  | .vshrI32 _ _ b _ => b.ok
  | .vsarI32 _ _ b _ => b.ok
  | .vaddFp _ _ b _ _ => b.ok
  | .vsubFp _ _ b _ _ => b.ok
  | .vmulFp _ _ b _ _ => b.ok
  | .vfma _ _ b _ _ => b.ok
  | .vminFp _ _ b _ _ => b.ok
  | .vmaxFp _ _ b _ _ => b.ok
  | .vcmp _ _ b _ _ _ => b.ok
  | .vsel _ _ b _ => b.ok
  | .vfclass _ _ _ _ => true
  | .vbcast _ _ _ => true
  | .vins _ _ b => b.ok
  | .vextN32 _ _ b => b.ok
  | .vextI32 _ _ b => b.ok
  | .vperm _ _ b _ => b.ok
  | .vslide _ _ b _ => b.ok
  | .vredsum _ _ _ _ => true
  | .vredmax _ _ _ _ => true
  | .vredmin _ _ _ _ => true
  | .vdot8E4m3 _ _ b _ => b.ok
  | .vdot8E5m2 _ _ b _ => b.ok
  | .vdot8I8 _ _ b _ => b.ok
  | .vdottT2 _ _ b _ => b.ok
  | .vcvt _ _ _ k j => !(k.isInt && j.isInt)
  | .vqnt d a b _ => b.ok && a.reg.val % 4 == 0 && d.val % 2 == 0
  | .vdqnt d _ b _ => b.ok && d.val % 4 == 0
  | .vrecip _ _ _ _ => true
  | .vrsqrt _ _ _ _ => true
  | .vexp2 _ _ _ _ => true
  | .vbcastF32 _ _ => true
  | .vaddCb _ _ _ _ _ => true
  | .vsubCb _ _ _ _ _ => true
  | .vmulCb _ _ _ _ _ => true
  | .vfmaCb _ _ _ _ _ => true
  | .vminCb _ _ _ _ _ => true
  | .vmaxCb _ _ _ _ _ => true
  | .mand _ _ _ => true
  | .mor _ _ _ => true
  | .mxor _ _ _ => true
  | .mnot _ _ => true
  | .mpop _ _ => true
  | .mfirst _ _ => true
  | .mset _ b => b.ok
  | .mtest _ _ b => b.ok
  | .ldI8 _ _ _ _ => true
  | .ldN8 _ _ _ _ => true
  | .ldI16 _ _ _ _ => true
  | .ldN16 _ _ _ _ => true
  | .ldI32 _ _ _ _ => true
  | .ldN32 _ _ _ _ => true
  | .ldI64 _ _ _ _ => true
  | .stI8 _ _ _ _ => true
  | .stI16 _ _ _ _ => true
  | .stI32 _ _ _ _ => true
  | .stI64 _ _ _ _ => true
  | .vld _ _ _ _ => true
  | .vst _ _ _ _ => true
  | .ldSp _ _ _ _ => true
  | .ldSpN _ _ _ _ => true
  | .stSp _ _ _ _ => true
  | .ldsync _ _ _ _ _ => true
  | .vldSp _ _ _ => true
  | .vstSp _ _ _ => true
  | .stfill _ b _ _ => b.ok
  | .clrfe _ b _ => b.ok
  | .lda _ _ _ => true
  | .stl _ b _ => b.ok
  | .pref _ => true
  | .prefSt _ => true
  | .prefSk _ => true
  | .drain _ => true
  | .vgather _ _ b _ _ => b.ok
  | .vscatter _ _ b _ _ => b.ok
  | .amoAdd _ _ b _ => b.ok
  | .amoMinI _ _ b _ => b.ok
  | .amoMinN _ _ b _ => b.ok
  | .amoMaxI _ _ b _ => b.ok
  | .amoMaxN _ _ b _ => b.ok
  | .amoAnd _ _ b _ => b.ok
  | .amoOr _ _ b _ => b.ok
  | .amoXor _ _ b _ => b.ok
  | .amoSwap _ _ b _ => b.ok
  | .amoCas _ _ b _ => b.ok
  | .amoStadd _ b _ => b.ok
  | .amoStminI _ b _ => b.ok
  | .amoStminN _ b _ => b.ok
  | .amoStmaxI _ b _ => b.ok
  | .amoStmaxN _ b _ => b.ok
  | .amoStand _ b _ => b.ok
  | .amoStor _ b _ => b.ok
  | .amoStxor _ b _ => b.ok
  | .amoStswap _ b _ => b.ok
  | .amoStcas _ _ b _ => b.ok
  | .famoAdd _ _ b => b.ok
  | .famoStadd _ b => b.ok
  | .tld _ b _ => b.ok
  | .tst _ b => b.ok
  | .twait _ => true
  | .twaitY _ => true
  | .tdrop _ => true
  | .tpeek _ _ b => b.ok
  | .thmake _ _ b => b.ok
  | .tq _ _ => true
  | .spawn _ b => b.ok
  | .spawnk _ b => b.ok
  | .launch _ => true
  | .reap _ _ b => b.ok
  | .path _ b => b.ok
  | .recLd _ b => b.ok
  | .callr _ _ b => b.ok
  | .reply _ => true
  | .chanCfg _ => true
  | .chanCfgRel _ => true
  | .rejoin _ b => b.ok
  | .lockstep _ => true
  | .crewid _ => true
  | .rvInit _ b => b.ok
  | .rvArr _ _ => true
  | .rvWait _ b => b.ok
  | .boAdd _ b _ => b.ok
  | .boInit _ b _ => b.ok
  | .boArr _ _ _ => true
  | .boWait _ b _ => b.ok
  | .gset g b => b.ok && g != 0
  | .gclr g => g != 0
  | .digestAdd _ b => b.ok
  | .digestEnd _ _ b => b.ok
  | .cpushM _ _ _ => true
  | .cpushC _ _ _ => true
  | .cpushG _ _ _ => true
  | .cwaitM _ => true
  | .cwaitC _ => true
  | .cwaitG _ => true
  | .cseqM _ => true
  | .cseqC _ => true
  | .cseqG _ => true
  | .abind _ b => b.ok
  | .skimRow _ => true
  | .skimEnd _ b => b.ok
  | .nop => true
  | .eret => true
  | .halt => true
  | .texit => true
  | .yield => true
  | .detach => true
  | .split => true
  | .arel => true
  | .mmaE4m3 p => decide (p < 16384)
  | .mmaE5m2 p => decide (p < 16384)
  | .mmaBf16 p => decide (p < 16384)
  | .mmaI8 p => decide (p < 16384)
  | .mmaT2 p => decide (p < 16384)
  | .mzero p => decide (p < 16384)
  | .mdrain p => decide (p < 16384)
  | .ringCfg p _ => decide (p < 16384)
  | .ringAdv p _ => decide (p < 16384)
  | .ringReset p _ => decide (p < 16384)
  | .copy p => decide (p < 16384)
  | .copy2 p => decide (p < 16384)
  | .copyQ p => decide (p < 16384)
  | .copyVLoad p => decide (p < 16384)
  | .copyVStore p => decide (p < 16384)
  | .tfill p => decide (p < 16384)
  | .gather p => decide (p < 16384)
  | .gdist p => decide (p < 16384)
  | .topkMerge p => decide (p < 16384)
  | .commandEnd p _ => decide (p < 16384)
  | .postedCauseTaken p => decide (p < 16384)
  | .lateOutcomeTaken p => decide (p < 16384)
  | .fillLand p _ _ => decide (p < 16384)
  | .tileDelivery _ _ => true
  | .frontEndDecode _ => true
  | .crewStallDetach _ m => decide (m < 8)
  | .abindGrant p => decide (p < 16384)
  | .arrayLeaseGrant cl => decide (cl < 128)
  | .arrayLeaseIdleEnd cl => decide (cl < 128)
  | .mdrainRowRead p => decide (p < 16384)
  | .ringTilePublish cl r => decide (cl < 128) && decide (r < 16)
  | .recordArrival die _ => decide (die < 16)
  | .panOverflowReturn die => decide (die < 16)
  | .dispatch die => decide (die < 16)
  | .launchExpansion _ => true
  | .instanceComplete _ => true
  | .launchComplete _ => true
  | .idleDieSteal die => decide (die < 16)
  | .stealRequest die => decide (die < 16)
  | .replyDelivery _ => true
  | .versionRequest die _ => decide (die < 16)
  | .versionStoreRequest die _ _ => decide (die < 16)
  | .versionCopyDone die _ => decide (die < 16)
  | .arrivalNotice die _ => decide (die < 16)
  | .sliceWrite p _ _ => decide (p < 16384)
  | .sharerUpdateAck _ _ => true
  | .directoryRequest die _ _ => decide (die < 16)
  | .invalidateAck die _ => decide (die < 16)
  | .l2Eviction die _ => decide (die < 16)
  | .migrationMove die => decide (die < 16)
  | .migrationSwitch die => decide (die < 16)
  | .l3MissTranslate p _ _ => decide (p < 16384)
  | .mailboxSpacePost _ => true
  | .rakeWalk p => decide (p < 16384)
  | .walkAnswer _ => true
  | .faultMessage _ => true
  | .wake _ => true
  | .versionWaitTimeout _ => true
  | .syncTimeout p _ => decide (p < 16384)
  | .rejoinTimeout _ => true
  | .fpcsrWrite _ _ => true
  | .tlbinvPage _ _ => true
  | .tlbinvAsid _ _ => true
  | .tlbinvAll _ _ => true
  | .fresResident _ _ => true
  | .fresRefused _ _ => true
  | .preemptRequest die => decide (die < 16)
  | .resumeRequest _ _ => true
  | .vpurgeStart _ _ => true
  | .vpurgeDone die => decide (die < 16)
  | .memcfgWrite _ _ => true
  | .migtlTailWrite _ _ => true
  | .fqtlHeadWrite _ _ => true
  | .secpolWrite _ _ => true
  | .debugHalt die => decide (die < 16)
  | .debugResume die => decide (die < 16)
  | .debugStep die => decide (die < 16)
  | .debugSnap die => decide (die < 16)
  | .dbgcopyBank _ _ => true
  | .dbgcopyTileSlot _ _ => true
  | .dbgcopyRendezvous _ _ => true
  | .dbgcopyRings _ _ => true
  | .dbgcopyMailbox _ _ => true
  | .ctlRegisterWrite _ c _ => ctlIndexOk c.toNat
  | .doorbell die _ => decide (die < 16)
  | .feataccStage _ _ => true
  | .feataccCommit _ => true
  | .pkgnumWrite _ => true
  | .watchArm _ => true
  | .watchDisarm _ => true
  | .watchNotice _ => true
  | .hostRegisterWrite _ _ _ => true
  | .hostCxlMemAccess _ _ _ => true
  | .nvmeCompletion _ _ _ => true
  | .nvmeTimeout _ => true
  | .attestationRequest _ => true
  | .vreq _ _ => true
  | .vcancel _ _ => true
  | .vnote _ _ => true
  | .vstore _ _ => true
  | .vdata _ _ => true
  | .vans _ _ => true
  | .recMsg _ _ => true
  | .pgreq _ _ => true
  | .pghand _ _ => true
  | .pgack _ _ => true
  | .pggrant _ _ => true
  | .linerd _ _ => true
  | .linedata _ _ => true
  | .linewb _ _ => true
  | .binit _ _ => true
  | .barr _ _ => true
  | .brel _ _ => true
  | .digest _ _ => true
  | .incarn _ _ => true
  | .dieReset die => decide (die < 16)
  | .supervisorStart die => decide (die < 16)
  | .rakeStart p => decide (p < 16384)
  | .controllerBoot _ => true
  | .eccError _ _ _ => true
  | .dieLoss die => decide (die < 16)
  | .d2dLinkFailure _ => true
  | .linkDown _ => true
  | .securityAlarm _ => true
  | .clockThrottle _ => true
  | .illegalOpcode _ => true
  | .linkUp _ => true

end Sys2Proof
end

