-- ==== Sys2Proof/Decode.lean ====
section
/-!
DEFINITION. Decoding of instruction words, total on every word and rejecting by the step of R68 that fails (R53–R70),
and the encoder, written from the match values and field places of spec/opcode_table.json.
-/

namespace Sys2Proof

/-- Why a word is no instruction: its row is not allocated (step 2 of R68), or its function or one of its fields is out
of limits (steps 3 and 5); `feature` is the feature bit that step 4 asks for before step 5 (R7). -/
inductive Reject where
  | opcode
  | field (feature : Option Nat)
deriving DecidableEq, Repr

/-- The `len`-bit field of `w` whose lowest bit is `lo` (R2). -/
def fld (w lo len : Nat) : Nat := w / 2 ^ lo % 2 ^ len
/-- Bit `k` of `w`. -/
def bit (w k : Nat) : Bool := w / 2 ^ k % 2 == 1
/-- The low bits of `w` as a number below `n`. -/
def fin (n : Nat) (w : Nat) (h : 0 < n := by decide) : Fin n := ⟨w % n, Nat.mod_lt _ h⟩

/-- Field d of the R, I, C, M and X formats (R54). -/
def d6 (w : Nat) : SReg := fin 64 (w / 2 ^ 19)
/-- Operand a of the R format (R54). -/
def a6 (w : Nat) : SSrc := ⟨fin 64 (w / 2 ^ 13), bit w 6⟩
/-- Operand b of the R format: a literal where the field is 0 and wb is 1 (R56). -/
def b6 (w : Nat) (lit : W32) : SOpd :=
  if fld w 7 6 == 0 && bit w 5 then .lit lit else .reg ⟨fin 64 (w / 2 ^ 7), bit w 5⟩
/-- Operand a, or the base, of the I, C, M and X formats (R54). -/
def a12 (w : Nat) : SSrc := ⟨fin 64 (w / 2 ^ 13), bit w 12⟩
/-- Operands of the B format (R54). -/
def aB (w : Nat) : SSrc := ⟨fin 64 (w / 2 ^ 19), bit w 12⟩
/-- Operand b of the B format. -/
def bB (w : Nat) : SSrc := ⟨fin 64 (w / 2 ^ 13), bit w 11⟩
/-- Field d of the Rv, Cv and F formats (R54). -/
def d5 (w : Nat) : Fin 32 := fin 32 (w / 2 ^ 20)
/-- Operand a of the Rv format. -/
def a5 (w : Nat) : Src 32 := ⟨fin 32 (w / 2 ^ 15), bit w 6⟩
/-- Operand b of the Rv format (R56). -/
def b5 (w : Nat) (lit : W32) : Opd 32 :=
  if fld w 10 5 == 0 && bit w 5 then .lit lit else .reg ⟨fin 32 (w / 2 ^ 10), bit w 5⟩
/-- A vector register in field a of an R-format word (R237, R252). -/
def aV (w : Nat) : VSrc := ⟨fin 32 (w / 2 ^ 13), bit w 6⟩
/-- The mask field of the Rv format. -/
def mk (w : Nat) : MReg := fin 8 (w / 2 ^ 7)
/-- A mask in operand b of row 0x36 (R172). -/
def mB (w : Nat) (lit : W32) : MOpd := if bit w 5 then .lit lit else .reg (fin 8 (w / 2 ^ 7))
/-- Operand b of row 0x36 is a mask register without a wait bit, or a literal (R172). -/
def mbOk (w : Nat) : Bool := fld w 6 1 == 0 && (if bit w 5 then fld w 7 6 == 0 else decide (fld w 7 6 < 8))
/-- The 12-bit immediate. -/
def imm12 (w : Nat) : BitVec 12 := BitVec.ofNat 12 w
/-- The branch offset of the B format. -/
def off11 (w : Nat) : BitVec 11 := BitVec.ofNat 11 w
/-- The offset of the M format. -/
def off10 (w : Nat) : BitVec 10 := BitVec.ofNat 10 w
/-- The function of the R and Rv formats. -/
def fn (w : Nat) : Nat := fld w 0 5
/-- Field d is not used and is 0 (R55). -/
def noD (w : Nat) : Bool := fld w 19 6 == 0
/-- Operand a of an R-format word is not used and is 0. -/
def noA (w : Nat) : Bool := fld w 13 6 == 0 && fld w 6 1 == 0
/-- Operand b of an R-format word is not used and is 0. -/
def noB (w : Nat) : Bool := fld w 7 6 == 0 && fld w 5 1 == 0
/-- Operand b of an Rv-format word is not used and is 0. -/
def noB5 (w : Nat) : Bool := fld w 10 5 == 0 && fld w 5 1 == 0
/-- The mask field of an Rv-format word is 0. -/
def noM (w : Nat) : Bool := fld w 7 3 == 0

/-- An instruction whose fields are within their limits, or the rejection of step 5 of R68. -/
def need (ok : Bool) (i : Instr) : Except Reject Instr := if ok then .ok i else .error (.field none)

/-- Code of a floating-point type in fn[1:0] (R151). -/
def FTy.code : FTy → Nat | .f32 => 0 | .f16 => 1 | .bf16 => 2
/-- The type that a code names. -/
def fty : Nat → Option FTy | 0 => some .f32 | 1 => some .f16 | 2 => some .bf16 | _ => none
/-- Code of a constant-bank type in fn[0] (R157). -/
def CTy.code : CTy → Nat | .f32 => 0 | .bf16 => 1
/-- The constant-bank type of a C or Cv word. -/
def cty (w : Nat) : CTy := if bit w 8 then .bf16 else .f32
/-- Code of a `vcmp` type (R162). -/
def CmpTy.code : CmpTy → Nat | .i32 => 0 | .n32 => 1 | .f32 => 2 | .f16 => 3 | .bf16 => 4
/-- The `vcmp` type that a code names. -/
def cmpTy : Nat → Option CmpTy
  | 0 => some .i32 | 1 => some .n32 | 2 => some .f32 | 3 => some .f16 | 4 => some .bf16 | _ => none
/-- Code of a predicate (R162). -/
def Pred.code : Pred → Nat | .eq => 0 | .ne => 1 | .lt => 2 | .ge => 3
/-- The predicate that two bits name. -/
def pred : Nat → Pred | 0 => .eq | 1 => .ne | 2 => .lt | _ => .ge
/-- Code of a reduction type (R165). -/
def RedTy.code : RedTy → Nat | .i32 => 0 | .n32 => 1 | .f32 => 2
/-- The reduction type that a code names. -/
def redTy : Nat → Option RedTy | 0 => some .i32 | 1 => some .n32 | 2 => some .f32 | _ => none
/-- Code of a kind of `fcvt` (R155). -/
def CvtKind.code : CvtKind → Nat
  | .f32 => 0 | .f16 => 1 | .bf16 => 2 | .i64 => 3 | .n64 => 4 | .i32 => 5 | .n32 => 6
/-- The kind of `fcvt` that a code names. -/
def cvtKind : Nat → Option CvtKind
  | 0 => some .f32 | 1 => some .f16 | 2 => some .bf16 | 3 => some .i64 | 4 => some .n64 | 5 => some .i32
  | 6 => some .n32 | _ => none
/-- Code of a kind of `vcvt` (R168). -/
def VCvtKind.code : VCvtKind → Nat
  | .f32 => 0 | .f16 => 1 | .bf16 => 2 | .e4m3 => 3 | .e5m2 => 4 | .i32 => 5 | .n32 => 6
/-- The kind of `vcvt` that a code names. -/
def vcvtKind : Nat → Option VCvtKind
  | 0 => some .f32 | 1 => some .f16 | 2 => some .bf16 | 3 => some .e4m3 | 4 => some .e5m2 | 5 => some .i32
  | 6 => some .n32 | _ => none
/-- Code of a quantisation target (R169). -/
def QTy.code : QTy → Nat | .e4m3 => 0 | .e5m2 => 1
/-- Code of a retention hint (R62). -/
def Hint.code : Hint → Nat | .dflt => 0 | .st => 1 | .sk => 2 | .by => 3
/-- The hint of an M-format word. -/
def hint (w : Nat) : Hint := match fld w 10 2 with | 0 => .dflt | 1 => .st | 2 => .sk | _ => .by
/-- Code of a scratchpad size (R62). -/
def Size.code : Size → Nat | .b1 => 0 | .b2 => 1 | .b4 => 2 | .b8 => 3
/-- The size code of a scratchpad word. -/
def size (w : Nat) : Size := match fld w 10 2 with | 0 => .b1 | 1 => .b2 | 2 => .b4 | _ => .b8
/-- Code of a `drain` class (R188). -/
def DrainPath.code : DrainPath → Nat | .sp => 0 | .l2 => 1 | .mem => 2 | .host => 3 | .link => 4

/-- Row 0x01 of the opcode map (R64). -/
def decodeRow01 (w : Nat) (lit : W32) : Except Reject Instr :=
    match fn w with
    | 0 => .ok (.add (d6 w) (a6 w) (b6 w lit))
    | 1 => .ok (.sub (d6 w) (a6 w) (b6 w lit))
    | 2 => .ok (.mul (d6 w) (a6 w) (b6 w lit))
    | 3 => .ok (.mulhI64 (d6 w) (a6 w) (b6 w lit))
    | 4 => .ok (.mulhN64 (d6 w) (a6 w) (b6 w lit))
    | 5 => .ok (.divI64 (d6 w) (a6 w) (b6 w lit))
    | 6 => .ok (.divN64 (d6 w) (a6 w) (b6 w lit))
    | 7 => .ok (.remI64 (d6 w) (a6 w) (b6 w lit))
    | 8 => .ok (.remN64 (d6 w) (a6 w) (b6 w lit))
    | 9 => .ok (.and (d6 w) (a6 w) (b6 w lit))
    | 10 => .ok (.or (d6 w) (a6 w) (b6 w lit))
    | 11 => .ok (.xor (d6 w) (a6 w) (b6 w lit))
    | 12 => .ok (.andn (d6 w) (a6 w) (b6 w lit))
    | 13 => .ok (.shl (d6 w) (a6 w) (b6 w lit))
    | 14 => .ok (.shr (d6 w) (a6 w) (b6 w lit))
    | 15 => .ok (.sar (d6 w) (a6 w) (b6 w lit))
    | 16 => .ok (.rol (d6 w) (a6 w) (b6 w lit))
    | 17 => .ok (.minI64 (d6 w) (a6 w) (b6 w lit))
    | 18 => .ok (.minN64 (d6 w) (a6 w) (b6 w lit))
    | 19 => .ok (.maxI64 (d6 w) (a6 w) (b6 w lit))
    | 20 => .ok (.maxN64 (d6 w) (a6 w) (b6 w lit))
    | 21 => .ok (.sel (d6 w) (a6 w) (b6 w lit))
    | _ => .error (.field none)

/-- Row 0x02 of the opcode map (R64). -/
def decodeRow02 (w : Nat) (lit : W32) : Except Reject Instr :=
    match fn w with
    | 0 => need (noB w) (.clz (d6 w) (a6 w))
    | 1 => need (noB w) (.ctz (d6 w) (a6 w))
    | 2 => need (noB w) (.popc (d6 w) (a6 w))
    | 3 => need (noB w) (.mov (d6 w) (a6 w))
    | 4 => need (noB w) (.sextI8 (d6 w) (a6 w))
    | 5 => need (noB w) (.sextI16 (d6 w) (a6 w))
    | 6 => need (noB w) (.sextI32 (d6 w) (a6 w))
    | 7 => need (noB w) (.zextN8 (d6 w) (a6 w))
    | 8 => need (noB w) (.zextN16 (d6 w) (a6 w))
    | 9 => need (noB w) (.zextN32 (d6 w) (a6 w))
    | 16 => .ok (.setEq (d6 w) (a6 w) (b6 w lit))
    | 17 => .ok (.setNe (d6 w) (a6 w) (b6 w lit))
    | 18 => .ok (.setLt (d6 w) (a6 w) (b6 w lit))
    | 19 => .ok (.setGe (d6 w) (a6 w) (b6 w lit))
    | 20 => .ok (.setLtn (d6 w) (a6 w) (b6 w lit))
    | 21 => .ok (.setGen (d6 w) (a6 w) (b6 w lit))
    | _ => .error (.field none)

/-- Row 0x03 of the opcode map (R64). -/
def decodeRow03 (w : Nat) : Except Reject Instr :=
    .ok (.addImm (d6 w) (a12 w) (imm12 w))

/-- Row 0x04 of the opcode map (R64). -/
def decodeRow04 (w : Nat) : Except Reject Instr :=
    .ok (.andImm (d6 w) (a12 w) (imm12 w))

/-- Row 0x05 of the opcode map (R64). -/
def decodeRow05 (w : Nat) : Except Reject Instr :=
    .ok (.orImm (d6 w) (a12 w) (imm12 w))

/-- Row 0x06 of the opcode map (R64). -/
def decodeRow06 (w : Nat) : Except Reject Instr :=
    .ok (.xorImm (d6 w) (a12 w) (imm12 w))

/-- Row 0x07 of the opcode map (R64). -/
def decodeRow07 (w : Nat) : Except Reject Instr :=
    match fld w 10 2 with
    | 0 => need (fld w 6 4 == 0) (.shlImm (d6 w) (a12 w) (fin 64 w))
    | 1 => need (fld w 6 4 == 0) (.shrImm (d6 w) (a12 w) (fin 64 w))
    | 2 => need (fld w 6 4 == 0) (.sarImm (d6 w) (a12 w) (fin 64 w))
    | 3 => need (fld w 6 4 == 0) (.rolImm (d6 w) (a12 w) (fin 64 w))
    | _ => .error (.field none)

/-- Row 0x08 of the opcode map (R64). -/
def decodeRow08 (w : Nat) : Except Reject Instr :=
    need (decide (1 ≤ fld w 0 6 ∧ fld w 6 6 + fld w 0 6 ≤ 64)) (.bfx (d6 w) (a12 w) (fin 64 (w / 2 ^ 6)) (fin 64 w))

/-- Row 0x09 of the opcode map (R64). -/
def decodeRow09 (w : Nat) : Except Reject Instr :=
    need (decide (1 ≤ fld w 0 6 ∧ fld w 6 6 + fld w 0 6 ≤ 64)) (.bfi (d6 w) (a12 w) (fin 64 (w / 2 ^ 6)) (fin 64 w))

/-- Row 0x0A of the opcode map (R64). -/
def decodeRow0A (w : Nat) : Except Reject Instr :=
    need (fld w 12 7 == 0) (.li (d6 w) (imm12 w))

/-- Row 0x0B of the opcode map (R64). -/
def decodeRow0B (w : Nat) (lit : W32) : Except Reject Instr :=
    need (fn w == 0) (.lih (d6 w) (a6 w) (b6 w lit))

/-- Row 0x0C of the opcode map (R64). -/
def decodeRow0C (w : Nat) (lit : W32) : Except Reject Instr :=
    need (fld w 2 3 == 0) (.lea (d6 w) (a6 w) (b6 w lit) (fin 4 w))

/-- Row 0x10 of the opcode map (R64). -/
def decodeRow10 (w : Nat) : Except Reject Instr :=
    .ok (.brEq (aB w) (bB w) (off11 w))

/-- Row 0x11 of the opcode map (R64). -/
def decodeRow11 (w : Nat) : Except Reject Instr :=
    .ok (.brNe (aB w) (bB w) (off11 w))

/-- Row 0x12 of the opcode map (R64). -/
def decodeRow12 (w : Nat) : Except Reject Instr :=
    .ok (.brLt (aB w) (bB w) (off11 w))

/-- Row 0x13 of the opcode map (R64). -/
def decodeRow13 (w : Nat) : Except Reject Instr :=
    .ok (.brGe (aB w) (bB w) (off11 w))

/-- Row 0x14 of the opcode map (R64). -/
def decodeRow14 (w : Nat) : Except Reject Instr :=
    .ok (.brLtn (aB w) (bB w) (off11 w))

/-- Row 0x15 of the opcode map (R64). -/
def decodeRow15 (w : Nat) : Except Reject Instr :=
    .ok (.brGen (aB w) (bB w) (off11 w))

/-- Row 0x16 of the opcode map (R64). -/
def decodeRow16 (w : Nat) : Except Reject Instr :=
    need (decide (fld w 19 6 < 8) && fld w 11 8 == 0) (.brAny (fin 8 (w / 2 ^ 19)) (off11 w))

/-- Row 0x17 of the opcode map (R64). -/
def decodeRow17 (w : Nat) : Except Reject Instr :=
    need (decide (fld w 19 6 < 8) && fld w 11 8 == 0) (.brAll (fin 8 (w / 2 ^ 19)) (off11 w))

/-- Row 0x18 of the opcode map (R64). -/
def decodeRow18 (w : Nat) : Except Reject Instr :=
    need (decide (fld w 19 6 < 8) && fld w 11 8 == 0) (.brNone (fin 8 (w / 2 ^ 19)) (off11 w))

/-- Row 0x19 of the opcode map (R64). -/
def decodeRow19 (w : Nat) : Except Reject Instr :=
    need (decide (fld w 19 6 < 8) && fld w 11 8 == 0) (.brNall (fin 8 (w / 2 ^ 19)) (off11 w))

/-- Row 0x1A of the opcode map (R64). -/
def decodeRow1A (w : Nat) : Except Reject Instr :=
    .ok (.bra (BitVec.ofNat 25 w))

/-- Row 0x1B of the opcode map (R64). -/
def decodeRow1B (w : Nat) : Except Reject Instr :=
    .ok (.call (BitVec.ofNat 25 w))

/-- Row 0x1C of the opcode map (R64). -/
def decodeRow1C (w : Nat) : Except Reject Instr :=
    need (noD w && fld w 0 12 != 0) (.jtab (a12 w) (imm12 w))

/-- Row 0x1D of the opcode map (R64). -/
def decodeRow1D (w : Nat) : Except Reject Instr :=
    match fn w with
    | 0 => need (noD w && noB w) (.jr (a6 w))
    | 1 => need (noD w && noB w) (.callReg (a6 w))
    | _ => .error (.field none)

/-- Row 0x1E of the opcode map (R64). -/
def decodeRow1E (w : Nat) : Except Reject Instr :=
    match fld w 8 4 with
    | 0 => need (fld w 12 13 == 0 && fld w 0 8 == 0) .nop
    | 1 => need (fld w 12 13 == 0) (.trap (BitVec.ofNat 8 w))
    | 2 => need (fld w 12 13 == 0 && fld w 0 8 == 0) .eret
    | 3 => need (fld w 12 13 == 0 && fld w 0 8 == 0) .halt
    | _ => .error (.field none)

/-- Row 0x20 of the opcode map (R64). -/
def decodeRow20 (w : Nat) : Except Reject Instr :=
    need (fld w 12 7 == 0 && ctlIndexOk (fld w 0 12)) (.ctlRd (d6 w) (imm12 w))

/-- Row 0x21 of the opcode map (R64). -/
def decodeRow21 (w : Nat) : Except Reject Instr :=
    need (noD w && ctlIndexOk (fld w 0 12)) (.ctlWr (a12 w) (imm12 w))

/-- Row 0x22 of the opcode map (R64). -/
def decodeRow22 (w : Nat) : Except Reject Instr :=
    need (noD w && ctlIndexOk (fld w 0 12)) (.ctlSet (a12 w) (imm12 w))

/-- Row 0x23 of the opcode map (R64). -/
def decodeRow23 (w : Nat) : Except Reject Instr :=
    need (noD w && ctlIndexOk (fld w 0 12)) (.ctlClr (a12 w) (imm12 w))

/-- Row 0x24 of the opcode map (R64). -/
def decodeRow24 (w : Nat) : Except Reject Instr :=
    need (noD w && fld w 3 9 == 0 && decide (fld w 0 3 ≤ 5) && (decide (3 ≤ fld w 0 3) || fld w 12 7 == 0))
      (.fence (a12 w) ⟨fld w 0 3 % 6, Nat.mod_lt _ (by decide)⟩)

/-- Row 0x28 of the opcode map (R64). -/
def decodeRow28 (w : Nat) (lit : W32) : Except Reject Instr :=
    match fty (fld w 0 2) with
    | none => .error (.field none)
    | some t =>
      match fld w 2 3 with
      | 0 => .ok (.fadd (d6 w) (a6 w) (b6 w lit) t)
      | 1 => .ok (.fsub (d6 w) (a6 w) (b6 w lit) t)
      | 2 => .ok (.fmul (d6 w) (a6 w) (b6 w lit) t)
      | 3 => .ok (.fdiv (d6 w) (a6 w) (b6 w lit) t)
      | 4 => .ok (.fmin (d6 w) (a6 w) (b6 w lit) t)
      | 5 => .ok (.fmax (d6 w) (a6 w) (b6 w lit) t)
      | 6 => .ok (.fsgn (d6 w) (a6 w) (b6 w lit) t)
      | _ => .error (.field none)

/-- Row 0x29 of the opcode map (R64). -/
def decodeRow29 (w : Nat) (lit : W32) : Except Reject Instr :=
    match fty (fld w 0 2) with
    | none => .error (.field none)
    | some t =>
      match fld w 2 3 with
      | 0 => .ok (.fma (d6 w) (a6 w) (b6 w lit) t)
      | 1 => .ok (.fms (d6 w) (a6 w) (b6 w lit) t)
      | 2 => .ok (.fnma (d6 w) (a6 w) (b6 w lit) t)
      | 3 => need (noB w) (.fsqrt (d6 w) (a6 w) t)
      | 4 => .ok (.fcmp (d6 w) (a6 w) (b6 w lit) t)
      | 5 => need (noB w) (.fclass (d6 w) (a6 w) t)
      | 6 => 
        match cvtKind (fld w 10 3), cvtKind (fld w 7 3) with
        | some k, some j => need (fld w 0 2 == 0 && fld w 5 1 == 0 && !(k.isInt && j.isInt)) (.fcvt (d6 w) (a6 w) k j)
        | _, _ => .error (.field none)
      | _ => .error (.field none)

/-- Row 0x2A of the opcode map (R64). -/
def decodeRow2A (w : Nat) : Except Reject Instr :=
    .ok (.liF32 (d5 w) (BitVec.ofNat 20 w))

/-- Row 0x2B of the opcode map (R64). -/
def decodeRow2B (w : Nat) : Except Reject Instr :=
    match fld w 9 3 with
    | 0 => .ok (.faddCb (d6 w) (a12 w) (cty w) (fin 256 w))
    | 1 => .ok (.fsubCb (d6 w) (a12 w) (cty w) (fin 256 w))
    | 2 => .ok (.fmulCb (d6 w) (a12 w) (cty w) (fin 256 w))
    | 3 => .ok (.fmaCb (d6 w) (a12 w) (cty w) (fin 256 w))
    | 4 => .ok (.fminCb (d6 w) (a12 w) (cty w) (fin 256 w))
    | 5 => .ok (.fmaxCb (d6 w) (a12 w) (cty w) (fin 256 w))
    | _ => .error (.field none)

/-- Row 0x2C of the opcode map (R64). -/
def decodeRow2C (w : Nat) (lit : W32) : Except Reject Instr :=
    match fn w with
    | 0 => .ok (.vaddI32 (d5 w) (a5 w) (b5 w lit) (mk w))
    | 1 => .ok (.vsubI32 (d5 w) (a5 w) (b5 w lit) (mk w))
    | 2 => .ok (.vmulI32 (d5 w) (a5 w) (b5 w lit) (mk w))
    | 3 => .ok (.vminI32 (d5 w) (a5 w) (b5 w lit) (mk w))
    | 4 => .ok (.vminN32 (d5 w) (a5 w) (b5 w lit) (mk w))
    | 5 => .ok (.vmaxI32 (d5 w) (a5 w) (b5 w lit) (mk w))
    | 6 => .ok (.vmaxN32 (d5 w) (a5 w) (b5 w lit) (mk w))
    | 7 => .ok (.vandI32 (d5 w) (a5 w) (b5 w lit) (mk w))
    | 8 => .ok (.vorI32 (d5 w) (a5 w) (b5 w lit) (mk w))
    | 9 => .ok (.vxorI32 (d5 w) (a5 w) (b5 w lit) (mk w))
    | 10 => .ok (.vshlI32 (d5 w) (a5 w) (b5 w lit) (mk w))
    | 11 => .ok (.vshrI32 (d5 w) (a5 w) (b5 w lit) (mk w))
    | 12 => .ok (.vsarI32 (d5 w) (a5 w) (b5 w lit) (mk w))
    | _ => .error (.field none)

/-- Row 0x2D of the opcode map (R64). -/
def decodeRow2D (w : Nat) (lit : W32) : Except Reject Instr :=
    match fty (fld w 0 2) with
    | none => .error (.field none)
    | some t =>
      match fld w 2 3 with
      | 0 => .ok (.vaddFp (d5 w) (a5 w) (b5 w lit) (mk w) t)
      | 1 => .ok (.vsubFp (d5 w) (a5 w) (b5 w lit) (mk w) t)
      | 2 => .ok (.vmulFp (d5 w) (a5 w) (b5 w lit) (mk w) t)
      | 3 => .ok (.vfma (d5 w) (a5 w) (b5 w lit) (mk w) t)
      | 4 => .ok (.vminFp (d5 w) (a5 w) (b5 w lit) (mk w) t)
      | 5 => .ok (.vmaxFp (d5 w) (a5 w) (b5 w lit) (mk w) t)
      | _ => .error (.field none)

/-- Row 0x2E of the opcode map (R64). -/
def decodeRow2E (w : Nat) (lit : W32) : Except Reject Instr :=
    if fn w = 0x14 then .ok (.vsel (d5 w) (a5 w) (b5 w lit) (mk w))
    else if fn w < 0x14 then
      match cmpTy (fn w / 4) with
      | some t => need (decide (fld w 20 5 < 8)) (.vcmp (fin 8 (w / 2 ^ 20)) (a5 w) (b5 w lit) (mk w) t (pred (fn w % 4)))
      | none => .error (.field none)
    else
      match fty (fn w - 0x15) with
      | some t => need (noB5 w) (.vfclass (d5 w) (a5 w) (mk w) t)
      | none => .error (.field none)

/-- Row 0x2F of the opcode map (R64). -/
def decodeRow2F (w : Nat) (lit : W32) : Except Reject Instr :=
    match fn w with
    | 0 => need (noB5 w) (.vbcast (d5 w) (a5 w) (mk w))
    | 1 => need (noM w) (.vins (d5 w) (a5 w) (b5 w lit))
    | 2 => need (noM w) (.vextN32 (d5 w) (a5 w) (b5 w lit))
    | 3 => need (noM w) (.vextI32 (d5 w) (a5 w) (b5 w lit))
    | 4 => .ok (.vperm (d5 w) (a5 w) (b5 w lit) (mk w))
    | 5 => .ok (.vslide (d5 w) (a5 w) (b5 w lit) (mk w))
    | _ => .error (.field none)

/-- Row 0x30 of the opcode map (R64). -/
def decodeRow30 (w : Nat) : Except Reject Instr :=
    match redTy (fld w 0 2) with
    | none => .error (.field none)
    | some t =>
      match fld w 2 3 with
      | 0 => need (noB5 w) (.vredsum (d5 w) (a5 w) (mk w) t)
      | 1 => need (noB5 w) (.vredmax (d5 w) (a5 w) (mk w) t)
      | 2 => need (noB5 w) (.vredmin (d5 w) (a5 w) (mk w) t)
      | _ => .error (.field none)

/-- Row 0x31 of the opcode map (R64). -/
def decodeRow31 (w : Nat) (lit : W32) : Except Reject Instr :=
    match fn w with
    | 0 => .ok (.vdot8E4m3 (d5 w) (a5 w) (b5 w lit) (mk w))
    | 1 => .ok (.vdot8E5m2 (d5 w) (a5 w) (b5 w lit) (mk w))
    | 2 => .ok (.vdot8I8 (d5 w) (a5 w) (b5 w lit) (mk w))
    | 3 => .ok (.vdottT2 (d5 w) (a5 w) (b5 w lit) (mk w))
    | _ => .error (.field none)

/-- Row 0x32 of the opcode map (R64). -/
def decodeRow32 (w : Nat) (lit : W32) : Except Reject Instr :=
    if fn w < 8 then
      match vcvtKind (fn w), vcvtKind (fld w 10 3) with
      | some k, some j =>
        need (fld w 13 2 == 0 && fld w 5 1 == 0 && !(k.isInt && j.isInt)) (.vcvt (d5 w) (a5 w) (mk w) k j)
      | _, _ => .error (.field none)
    else
      match fn w with
      | 8 => need (noM w && fld w 15 2 == 0 && fld w 20 1 == 0) (.vqnt (d5 w) (a5 w) (b5 w lit) .e4m3)
      | 9 => need (noM w && fld w 15 2 == 0 && fld w 20 1 == 0) (.vqnt (d5 w) (a5 w) (b5 w lit) .e5m2)
      | 10 => need (noM w && fld w 20 2 == 0) (.vdqnt (d5 w) (a5 w) (b5 w lit) .e4m3)
      | 11 => need (noM w && fld w 20 2 == 0) (.vdqnt (d5 w) (a5 w) (b5 w lit) .e5m2)
      | _ => .error (.field none)

/-- Row 0x33 of the opcode map (R64). -/
def decodeRow33 (w : Nat) : Except Reject Instr :=
    match fty (fld w 0 2) with
    | none => .error (.field none)
    | some t =>
      match fld w 2 3 with
      | 0 => need (noB5 w) (.vrecip (d5 w) (a5 w) (mk w) t)
      | 1 => need (noB5 w) (.vrsqrt (d5 w) (a5 w) (mk w) t)
      | 2 => need (noB5 w) (.vexp2 (d5 w) (a5 w) (mk w) t)
      | _ => .error (.field none)

/-- Row 0x34 of the opcode map (R64). -/
def decodeRow34 (w : Nat) : Except Reject Instr :=
    .ok (.vbcastF32 (d5 w) (BitVec.ofNat 20 w))

/-- Row 0x35 of the opcode map (R64). -/
def decodeRow35 (w : Nat) : Except Reject Instr :=
    match fld w 9 3 with
    | 0 => .ok (.vaddCb (d5 w) (fin 32 (w / 2 ^ 15)) (fin 8 (w / 2 ^ 12)) (cty w) (fin 256 w))
    | 1 => .ok (.vsubCb (d5 w) (fin 32 (w / 2 ^ 15)) (fin 8 (w / 2 ^ 12)) (cty w) (fin 256 w))
    | 2 => .ok (.vmulCb (d5 w) (fin 32 (w / 2 ^ 15)) (fin 8 (w / 2 ^ 12)) (cty w) (fin 256 w))
    | 3 => .ok (.vfmaCb (d5 w) (fin 32 (w / 2 ^ 15)) (fin 8 (w / 2 ^ 12)) (cty w) (fin 256 w))
    | 4 => .ok (.vminCb (d5 w) (fin 32 (w / 2 ^ 15)) (fin 8 (w / 2 ^ 12)) (cty w) (fin 256 w))
    | 5 => .ok (.vmaxCb (d5 w) (fin 32 (w / 2 ^ 15)) (fin 8 (w / 2 ^ 12)) (cty w) (fin 256 w))
    | _ => .error (.field none)

/-- Row 0x36 of the opcode map (R64). -/
def decodeRow36 (w : Nat) (lit : W32) : Except Reject Instr :=
    match fn w with
    | 0 => need (decide (fld w 19 6 < 8) && decide (fld w 13 6 < 8) && mbOk w) (.mand (fin 8 (w / 2 ^ 19)) (fin 8 (w / 2 ^ 13)) (mB w lit))
    | 1 => need (decide (fld w 19 6 < 8) && decide (fld w 13 6 < 8) && mbOk w) (.mor (fin 8 (w / 2 ^ 19)) (fin 8 (w / 2 ^ 13)) (mB w lit))
    | 2 => need (decide (fld w 19 6 < 8) && decide (fld w 13 6 < 8) && mbOk w) (.mxor (fin 8 (w / 2 ^ 19)) (fin 8 (w / 2 ^ 13)) (mB w lit))
    | 3 => need (decide (fld w 19 6 < 8) && decide (fld w 13 6 < 8) && noB w && fld w 6 1 == 0) (.mnot (fin 8 (w / 2 ^ 19)) (fin 8 (w / 2 ^ 13)))
    | 4 => need (decide (fld w 13 6 < 8) && noB w && fld w 6 1 == 0) (.mpop (d6 w) (fin 8 (w / 2 ^ 13)))
    | 5 => need (decide (fld w 13 6 < 8) && noB w && fld w 6 1 == 0) (.mfirst (d6 w) (fin 8 (w / 2 ^ 13)))
    | 6 => need (decide (fld w 19 6 < 8) && noA w) (.mset (fin 8 (w / 2 ^ 19)) (b6 w lit))
    | 7 => need (decide (fld w 13 6 < 8) && fld w 6 1 == 0) (.mtest (d6 w) (fin 8 (w / 2 ^ 13)) (b6 w lit))
    | _ => .error (.field none)

/-- Row 0x40 of the opcode map (R64). -/
def decodeRow40 (w : Nat) : Except Reject Instr :=
    .ok (.ldI8 (d6 w) (a12 w) (hint w) (off10 w))

/-- Row 0x41 of the opcode map (R64). -/
def decodeRow41 (w : Nat) : Except Reject Instr :=
    .ok (.ldN8 (d6 w) (a12 w) (hint w) (off10 w))

/-- Row 0x42 of the opcode map (R64). -/
def decodeRow42 (w : Nat) : Except Reject Instr :=
    .ok (.ldI16 (d6 w) (a12 w) (hint w) (off10 w))

/-- Row 0x43 of the opcode map (R64). -/
def decodeRow43 (w : Nat) : Except Reject Instr :=
    .ok (.ldN16 (d6 w) (a12 w) (hint w) (off10 w))

/-- Row 0x44 of the opcode map (R64). -/
def decodeRow44 (w : Nat) : Except Reject Instr :=
    .ok (.ldI32 (d6 w) (a12 w) (hint w) (off10 w))

/-- Row 0x45 of the opcode map (R64). -/
def decodeRow45 (w : Nat) : Except Reject Instr :=
    .ok (.ldN32 (d6 w) (a12 w) (hint w) (off10 w))

/-- Row 0x46 of the opcode map (R64). -/
def decodeRow46 (w : Nat) : Except Reject Instr :=
    .ok (.ldI64 (d6 w) (a12 w) (hint w) (off10 w))

/-- Row 0x47 of the opcode map (R64). -/
def decodeRow47 (w : Nat) : Except Reject Instr :=
    .ok (.stI8 (d6 w) (a12 w) (hint w) (off10 w))

/-- Row 0x48 of the opcode map (R64). -/
def decodeRow48 (w : Nat) : Except Reject Instr :=
    .ok (.stI16 (d6 w) (a12 w) (hint w) (off10 w))

/-- Row 0x49 of the opcode map (R64). -/
def decodeRow49 (w : Nat) : Except Reject Instr :=
    .ok (.stI32 (d6 w) (a12 w) (hint w) (off10 w))

/-- Row 0x4a of the opcode map (R64). -/
def decodeRow4A (w : Nat) : Except Reject Instr :=
    .ok (.stI64 (d6 w) (a12 w) (hint w) (off10 w))

/-- Row 0x4B of the opcode map (R64). -/
def decodeRow4B (w : Nat) : Except Reject Instr :=
    need (decide (fld w 19 6 < 32)) (.vld (fin 32 (w / 2 ^ 19)) (a12 w) (hint w) (off10 w))

/-- Row 0x4C of the opcode map (R64). -/
def decodeRow4C (w : Nat) : Except Reject Instr :=
    need (decide (fld w 19 6 < 32)) (.vst (fin 32 (w / 2 ^ 19)) (a12 w) (hint w) (off10 w))

/-- Row 0x4D of the opcode map (R64). -/
def decodeRow4D (w : Nat) : Except Reject Instr :=
    .ok (.ldSp (d6 w) (a12 w) (size w) (off10 w))

/-- Row 0x4E of the opcode map (R64). -/
def decodeRow4E (w : Nat) : Except Reject Instr :=
    .ok (.ldSpN (d6 w) (a12 w) (size w) (off10 w))

/-- Row 0x4F of the opcode map (R64). -/
def decodeRow4F (w : Nat) : Except Reject Instr :=
    .ok (.stSp (d6 w) (a12 w) (size w) (off10 w))

/-- Row 0x50 of the opcode map (R64). -/
def decodeRow50 (w : Nat) : Except Reject Instr :=
    .ok (.ldsync (d6 w) (a12 w) (bit w 11) (bit w 10) (off10 w))

/-- Row 0x51 of the opcode map (R64). -/
def decodeRow51 (w : Nat) : Except Reject Instr :=
    need (decide (fld w 19 6 < 32) && fld w 10 2 == 3) (.vldSp (fin 32 (w / 2 ^ 19)) (a12 w) (off10 w))

/-- Row 0x52 of the opcode map (R64). -/
def decodeRow52 (w : Nat) : Except Reject Instr :=
    need (decide (fld w 19 6 < 32) && fld w 10 2 == 3) (.vstSp (fin 32 (w / 2 ^ 19)) (a12 w) (off10 w))

/-- Row 0x53 of the opcode map (R64). -/
def decodeRow53 (w : Nat) (lit : W32) : Except Reject Instr :=
    match fn w with
    | 0 => need (noD w) (.stfill (a6 w) (b6 w lit) (bit w 1) (bit w 0))
    | 1 => need (noD w) (.stfill (a6 w) (b6 w lit) (bit w 1) (bit w 0))
    | 2 => need (noD w) (.stfill (a6 w) (b6 w lit) (bit w 1) (bit w 0))
    | 3 => need (noD w) (.stfill (a6 w) (b6 w lit) (bit w 1) (bit w 0))
    | 4 => need (noD w) (.clrfe (a6 w) (b6 w lit) (bit w 0))
    | 5 => need (noD w) (.clrfe (a6 w) (b6 w lit) (bit w 0))
    | 6 => need (noB w) (.lda (d6 w) (a6 w) (bit w 0))
    | 7 => need (noB w) (.lda (d6 w) (a6 w) (bit w 0))
    | 8 => need (noD w) (.stl (a6 w) (b6 w lit) (bit w 0))
    | 9 => need (noD w) (.stl (a6 w) (b6 w lit) (bit w 0))
    | 10 => need (noD w && noB w) (.pref (a6 w))
    | 11 => need (noD w && noB w) (.prefSt (a6 w))
    | 12 => need (noD w && noB w) (.prefSk (a6 w))
    | 16 => need (fld w 5 20 == 0) (.drain .sp)
    | 17 => need (fld w 5 20 == 0) (.drain .l2)
    | 18 => need (fld w 5 20 == 0) (.drain .mem)
    | 19 => need (fld w 5 20 == 0) (.drain .host)
    | 20 => need (fld w 5 20 == 0) (.drain .link)
    | _ => .error (.field none)

/-- Row 0x54 of the opcode map (R64). -/
def decodeRow54 (w : Nat) (lit : W32) : Except Reject Instr :=
    match fn w with
    | 0 => .ok (.vgather (d5 w) (a5 w) (b5 w lit) (mk w) false)
    | 1 => .ok (.vscatter (d5 w) (a5 w) (b5 w lit) (mk w) false)
    | 2 => .ok (.vgather (d5 w) (a5 w) (b5 w lit) (mk w) true)
    | 3 => .ok (.vscatter (d5 w) (a5 w) (b5 w lit) (mk w) true)
    | _ => .error (.field none)

/-- Row 0x55 of the opcode map (R64). -/
def decodeRow55 (w : Nat) (lit : W32) : Except Reject Instr :=
    match fn w with
    | 0 => .ok (.amoAdd (d6 w) (a6 w) (b6 w lit) true)
    | 1 => .ok (.amoMinI (d6 w) (a6 w) (b6 w lit) true)
    | 2 => .ok (.amoMinN (d6 w) (a6 w) (b6 w lit) true)
    | 3 => .ok (.amoMaxI (d6 w) (a6 w) (b6 w lit) true)
    | 4 => .ok (.amoMaxN (d6 w) (a6 w) (b6 w lit) true)
    | 5 => .ok (.amoAnd (d6 w) (a6 w) (b6 w lit) true)
    | 6 => .ok (.amoOr (d6 w) (a6 w) (b6 w lit) true)
    | 7 => .ok (.amoXor (d6 w) (a6 w) (b6 w lit) true)
    | 8 => .ok (.amoSwap (d6 w) (a6 w) (b6 w lit) true)
    | 9 => .ok (.amoCas (d6 w) (a6 w) (b6 w lit) true)
    | 16 => need (noD w) (.amoStadd (a6 w) (b6 w lit) true)
    | 17 => need (noD w) (.amoStminI (a6 w) (b6 w lit) true)
    | 18 => need (noD w) (.amoStminN (a6 w) (b6 w lit) true)
    | 19 => need (noD w) (.amoStmaxI (a6 w) (b6 w lit) true)
    | 20 => need (noD w) (.amoStmaxN (a6 w) (b6 w lit) true)
    | 21 => need (noD w) (.amoStand (a6 w) (b6 w lit) true)
    | 22 => need (noD w) (.amoStor (a6 w) (b6 w lit) true)
    | 23 => need (noD w) (.amoStxor (a6 w) (b6 w lit) true)
    | 24 => need (noD w) (.amoStswap (a6 w) (b6 w lit) true)
    | 25 => .ok (.amoStcas (d6 w) (a6 w) (b6 w lit) true)
    | _ => .error (.field none)

/-- Row 0x56 of the opcode map (R64). -/
def decodeRow56 (w : Nat) (lit : W32) : Except Reject Instr :=
    match fn w with
    | 0 => .ok (.amoAdd (d6 w) (a6 w) (b6 w lit) false)
    | 1 => .ok (.amoMinI (d6 w) (a6 w) (b6 w lit) false)
    | 2 => .ok (.amoMinN (d6 w) (a6 w) (b6 w lit) false)
    | 3 => .ok (.amoMaxI (d6 w) (a6 w) (b6 w lit) false)
    | 4 => .ok (.amoMaxN (d6 w) (a6 w) (b6 w lit) false)
    | 5 => .ok (.amoAnd (d6 w) (a6 w) (b6 w lit) false)
    | 6 => .ok (.amoOr (d6 w) (a6 w) (b6 w lit) false)
    | 7 => .ok (.amoXor (d6 w) (a6 w) (b6 w lit) false)
    | 8 => .ok (.amoSwap (d6 w) (a6 w) (b6 w lit) false)
    | 9 => .ok (.amoCas (d6 w) (a6 w) (b6 w lit) false)
    | 16 => need (noD w) (.amoStadd (a6 w) (b6 w lit) false)
    | 17 => need (noD w) (.amoStminI (a6 w) (b6 w lit) false)
    | 18 => need (noD w) (.amoStminN (a6 w) (b6 w lit) false)
    | 19 => need (noD w) (.amoStmaxI (a6 w) (b6 w lit) false)
    | 20 => need (noD w) (.amoStmaxN (a6 w) (b6 w lit) false)
    | 21 => need (noD w) (.amoStand (a6 w) (b6 w lit) false)
    | 22 => need (noD w) (.amoStor (a6 w) (b6 w lit) false)
    | 23 => need (noD w) (.amoStxor (a6 w) (b6 w lit) false)
    | 24 => need (noD w) (.amoStswap (a6 w) (b6 w lit) false)
    | 25 => .ok (.amoStcas (d6 w) (a6 w) (b6 w lit) false)
    | _ => .error (.field none)

/-- Row 0x57 of the opcode map (R64). -/
def decodeRow57 (w : Nat) (lit : W32) : Except Reject Instr :=
    match fn w with
    | 0 => .ok (.famoAdd (d6 w) (a6 w) (b6 w lit))
    | 1 => need (noD w) (.famoStadd (a6 w) (b6 w lit))
    | _ => .error (.field none)

/-- Row 0x58 of the opcode map (R64). -/
def decodeRow58 (w : Nat) (lit : W32) : Except Reject Instr :=
    match fn w with
    | 0 => need (noD w) (.tld (a6 w) (b6 w lit) false)
    | 1 => need (noD w) (.tld (a6 w) (b6 w lit) true)
    | 2 => need (noD w) (.tst (a6 w) (b6 w lit))
    | _ => .error (.field none)

/-- Row 0x59 of the opcode map (R64). -/
def decodeRow59 (w : Nat) (lit : W32) : Except Reject Instr :=
    match fn w with
    | 0 => need (noD w && noB w) (.twait (a6 w))
    | 1 => need (noD w && noB w) (.twaitY (a6 w))
    | 2 => need (noD w && noB w) (.tdrop (a6 w))
    | 3 => .ok (.tpeek (d6 w) (a6 w) (b6 w lit))
    | 4 => .ok (.thmake (d6 w) (a6 w) (b6 w lit))
    | 5 => need (noB w) (.tq (d6 w) (a6 w))
    | _ => .error (.field none)

/-- Row 0x60 of the opcode map (R64). -/
def decodeRow60 (w : Nat) (lit : W32) : Except Reject Instr :=
    match fn w with
    | 0 => need (noD w) (.spawn (a6 w) (b6 w lit))
    | 1 => need (noD w) (.spawnk (a6 w) (b6 w lit))
    | 2 => need (noD w && noB w) (.launch (a6 w))
    | 3 => need (fld w 5 20 == 0) .texit
    | 4 => need (decide (fld w 19 6 < 32)) (.reap (fin 32 (w / 2 ^ 19)) (a6 w) (b6 w lit))
    | 5 => need (fld w 5 20 == 0) .yield
    | 6 => need (noA w) (.path (d6 w) (b6 w lit))
    | 7 => need (noA w) (.recLd (d6 w) (b6 w lit))
    | _ => .error (.field none)

/-- Row 0x61 of the opcode map (R64). -/
def decodeRow61 (w : Nat) (lit : W32) : Except Reject Instr :=
    match fn w with
    | 0 => .ok (.callr (d6 w) (a6 w) (b6 w lit))
    | 1 => need (noD w && noB w) (.reply (a6 w))
    | _ => .error (.field none)

/-- Row 0x62 of the opcode map (R64). -/
def decodeRow62 (w : Nat) : Except Reject Instr :=
    match fn w with
    | 0 => need (noD w && noB w) (.chanCfg (a6 w))
    | 1 => need (noD w && noB w) (.chanCfgRel (a6 w))
    | _ => .error (.field none)

/-- Row 0x63 of the opcode map (R64). -/
def decodeRow63 (w : Nat) (lit : W32) : Except Reject Instr :=
    match fn w with
    | 0 => need (fld w 5 20 == 0) .detach
    | 1 => need (noD w) (.rejoin (a6 w) (b6 w lit))
    | 2 => need (noD w && noB w) (.lockstep (a6 w))
    | 3 => need (fld w 5 20 == 0) .split
    | 4 => need (noA w && noB w) (.crewid (d6 w))
    | _ => .error (.field none)

/-- Row 0x64 of the opcode map (R64). -/
def decodeRow64 (w : Nat) (lit : W32) : Except Reject Instr :=
    match fn w with
    | 0 => need (noD w) (.rvInit (a6 w) (b6 w lit))
    | 1 => need (noB w) (.rvArr (d6 w) (a6 w))
    | 2 => need (noD w) (.rvWait (a6 w) (b6 w lit))
    | 3 => need (noD w) (.boAdd (a6 w) (b6 w lit) false)
    | 4 => need (noD w) (.boInit (a6 w) (b6 w lit) false)
    | 5 => need (noB w) (.boArr (d6 w) (a6 w) false)
    | 6 => need (noD w) (.boWait (a6 w) (b6 w lit) false)
    | 11 => need (noD w) (.boAdd (a6 w) (b6 w lit) true)
    | 12 => need (noD w) (.boInit (a6 w) (b6 w lit) true)
    | 13 => need (noB w) (.boArr (d6 w) (a6 w) true)
    | 14 => need (noD w) (.boWait (a6 w) (b6 w lit) true)
    | _ => .error (.field none)

/-- Row 0x65 of the opcode map (R64). -/
def decodeRow65 (w : Nat) (lit : W32) : Except Reject Instr :=
    match fn w with
    | 0 => need (noD w && fld w 6 1 == 0 && decide (1 ≤ fld w 13 6) && decide (fld w 13 6 < 16)) (.gset (fin 16 (w / 2 ^ 13)) (b6 w lit))
    | 1 => need (noD w && fld w 6 1 == 0 && noB w && decide (1 ≤ fld w 13 6) && decide (fld w 13 6 < 16)) (.gclr (fin 16 (w / 2 ^ 13)))
    | _ => .error (.field none)

/-- Row 0x66 of the opcode map (R64). -/
def decodeRow66 (w : Nat) (lit : W32) : Except Reject Instr :=
    match fn w with
    | 0 => if noD w then .ok (.digestAdd (a6 w) (b6 w lit)) else .error (.field (some 9))
    | 1 => .ok (.digestEnd (d6 w) (a6 w) (b6 w lit))
    | _ => .error (.field none)

/-- Row 0x70 of the opcode map (R64). -/
def decodeRow70 (w : Nat) : Except Reject Instr :=
    match fn w with
    | 0 => need (decide (fld w 13 6 < 32) && noB w) (.cpushM (d6 w) (aV w) false)
    | 1 => need (decide (fld w 13 6 < 32) && noB w) (.cpushM (d6 w) (aV w) true)
    | 2 => need (decide (fld w 13 6 < 32) && noB w) (.cpushC (d6 w) (aV w) false)
    | 3 => need (decide (fld w 13 6 < 32) && noB w) (.cpushC (d6 w) (aV w) true)
    | 4 => need (decide (fld w 13 6 < 32) && noB w) (.cpushG (d6 w) (aV w) false)
    | 5 => need (decide (fld w 13 6 < 32) && noB w) (.cpushG (d6 w) (aV w) true)
    | 6 => need (noD w && noB w) (.cwaitM (a6 w))
    | 7 => need (noD w && noB w) (.cwaitC (a6 w))
    | 8 => need (noD w && noB w) (.cwaitG (a6 w))
    | 9 => need (noA w && noB w) (.cseqM (d6 w))
    | 10 => need (noA w && noB w) (.cseqC (d6 w))
    | 11 => need (noA w && noB w) (.cseqG (d6 w))
    | _ => .error (.field none)

/-- Row 0x71 of the opcode map (R64). -/
def decodeRow71 (w : Nat) (lit : W32) : Except Reject Instr :=
    match fn w with
    | 0 => need (noA w) (.abind (d6 w) (b6 w lit))
    | 1 => need (fld w 5 20 == 0) .arel
    | 2 => need (noA w && noB w) (.skimRow (d6 w))
    | 3 => need (noD w && decide (fld w 13 6 < 32) && !bit w 6) (.skimEnd (aV w).reg (b6 w lit))
    | _ => .error (.field none)

/-- The instruction that the word `w` is, with `lit` the word after it (R53, R54, R68). -/
def decode (w : Nat) (lit : W32) : Except Reject Instr :=
  match w / 2 ^ 25 % 128 with
  | 0x01 => decodeRow01 w lit
  | 0x02 => decodeRow02 w lit
  | 0x03 => decodeRow03 w
  | 0x04 => decodeRow04 w
  | 0x05 => decodeRow05 w
  | 0x06 => decodeRow06 w
  | 0x07 => decodeRow07 w
  | 0x08 => decodeRow08 w
  | 0x09 => decodeRow09 w
  | 0x0A => decodeRow0A w
  | 0x0B => decodeRow0B w lit
  | 0x0C => decodeRow0C w lit
  | 0x10 => decodeRow10 w
  | 0x11 => decodeRow11 w
  | 0x12 => decodeRow12 w
  | 0x13 => decodeRow13 w
  | 0x14 => decodeRow14 w
  | 0x15 => decodeRow15 w
  | 0x16 => decodeRow16 w
  | 0x17 => decodeRow17 w
  | 0x18 => decodeRow18 w
  | 0x19 => decodeRow19 w
  | 0x1A => decodeRow1A w
  | 0x1B => decodeRow1B w
  | 0x1C => decodeRow1C w
  | 0x1D => decodeRow1D w
  | 0x1E => decodeRow1E w
  | 0x20 => decodeRow20 w
  | 0x21 => decodeRow21 w
  | 0x22 => decodeRow22 w
  | 0x23 => decodeRow23 w
  | 0x24 => decodeRow24 w
  | 0x28 => decodeRow28 w lit
  | 0x29 => decodeRow29 w lit
  | 0x2A => decodeRow2A w
  | 0x2B => decodeRow2B w
  | 0x2C => decodeRow2C w lit
  | 0x2D => decodeRow2D w lit
  | 0x2E => decodeRow2E w lit
  | 0x2F => decodeRow2F w lit
  | 0x30 => decodeRow30 w
  | 0x31 => decodeRow31 w lit
  | 0x32 => decodeRow32 w lit
  | 0x33 => decodeRow33 w
  | 0x34 => decodeRow34 w
  | 0x35 => decodeRow35 w
  | 0x36 => decodeRow36 w lit
  | 0x40 => decodeRow40 w
  | 0x41 => decodeRow41 w
  | 0x42 => decodeRow42 w
  | 0x43 => decodeRow43 w
  | 0x44 => decodeRow44 w
  | 0x45 => decodeRow45 w
  | 0x46 => decodeRow46 w
  | 0x47 => decodeRow47 w
  | 0x48 => decodeRow48 w
  | 0x49 => decodeRow49 w
  | 0x4a => decodeRow4A w
  | 0x4B => decodeRow4B w
  | 0x4C => decodeRow4C w
  | 0x4D => decodeRow4D w
  | 0x4E => decodeRow4E w
  | 0x4F => decodeRow4F w
  | 0x50 => decodeRow50 w
  | 0x51 => decodeRow51 w
  | 0x52 => decodeRow52 w
  | 0x53 => decodeRow53 w lit
  | 0x54 => decodeRow54 w lit
  | 0x55 => decodeRow55 w lit
  | 0x56 => decodeRow56 w lit
  | 0x57 => decodeRow57 w lit
  | 0x58 => decodeRow58 w lit
  | 0x59 => decodeRow59 w lit
  | 0x60 => decodeRow60 w lit
  | 0x61 => decodeRow61 w lit
  | 0x62 => decodeRow62 w
  | 0x63 => decodeRow63 w lit
  | 0x64 => decodeRow64 w lit
  | 0x65 => decodeRow65 w lit
  | 0x66 => decodeRow66 w lit
  | 0x70 => decodeRow70 w
  | 0x71 => decodeRow71 w lit
  | _ => .error .opcode

/-- The b field of an operand: 0 for a literal (R56). -/
def Opd.field {n : Nat} : Opd n → Nat | .reg r => r.reg.val | .lit _ => 0
/-- The wb bit of an operand: 1 for a literal. -/
def Opd.waitBit {n : Nat} : Opd n → Nat | .reg r => r.wait.toNat | .lit _ => 1
/-- The literal word of an operand. -/
def Opd.literal {n : Nat} : Opd n → Option W32 | .reg _ => none | .lit l => some l
/-- The b field of a mask operand (R172). -/
def MOpd.field : MOpd → Nat | .reg r => r.val | .lit _ => 0
/-- The wb bit of a mask operand. -/
def MOpd.waitBit : MOpd → Nat | .reg _ => 0 | .lit _ => 1
/-- A field value at bit `lo` of a word. -/
def sh (x lo : Nat) : Nat := x * 2 ^ lo
/-- A source register at bit `lo` and its wait bit at bit `wl`. -/
def srcE {n : Nat} (a : Src n) (lo wl : Nat) : Nat := a.reg.val * 2 ^ lo + a.wait.toNat * 2 ^ wl
/-- Operand b at bit `lo` and wb. -/
def Opd.enc {n : Nat} (b : Opd n) (lo : Nat) : Nat := b.field * 2 ^ lo + b.waitBit * 2 ^ 5
/-- A mask operand b at bit `lo` and wb. -/
def MOpd.enc (b : MOpd) (lo : Nat) : Nat := b.field * 2 ^ lo + b.waitBit * 2 ^ 5
/-- The literal word of a mask operand. -/
def MOpd.literal : MOpd → Option W32 | .reg _ => none | .lit l => some l

/-- The first word of an encoded instruction and its literal word, by the match value and the fields that
spec/opcode_table.json gives its row; an event has none. -/
def encode : Instr → Option (Nat × Option W32)
  | .add d a b => some (0x02000000 + sh d.val 19 + srcE a 13 6 + b.enc 7, b.literal)
  | .sub d a b => some (0x02000001 + sh d.val 19 + srcE a 13 6 + b.enc 7, b.literal)
  | .mul d a b => some (0x02000002 + sh d.val 19 + srcE a 13 6 + b.enc 7, b.literal)
  | .mulhI64 d a b => some (0x02000003 + sh d.val 19 + srcE a 13 6 + b.enc 7, b.literal)
  | .mulhN64 d a b => some (0x02000004 + sh d.val 19 + srcE a 13 6 + b.enc 7, b.literal)
  | .divI64 d a b => some (0x02000005 + sh d.val 19 + srcE a 13 6 + b.enc 7, b.literal)
  | .divN64 d a b => some (0x02000006 + sh d.val 19 + srcE a 13 6 + b.enc 7, b.literal)
  | .remI64 d a b => some (0x02000007 + sh d.val 19 + srcE a 13 6 + b.enc 7, b.literal)
  | .remN64 d a b => some (0x02000008 + sh d.val 19 + srcE a 13 6 + b.enc 7, b.literal)
  | .and d a b => some (0x02000009 + sh d.val 19 + srcE a 13 6 + b.enc 7, b.literal)
  | .or d a b => some (0x0200000A + sh d.val 19 + srcE a 13 6 + b.enc 7, b.literal)
  | .xor d a b => some (0x0200000B + sh d.val 19 + srcE a 13 6 + b.enc 7, b.literal)
  | .andn d a b => some (0x0200000C + sh d.val 19 + srcE a 13 6 + b.enc 7, b.literal)
  | .shl d a b => some (0x0200000D + sh d.val 19 + srcE a 13 6 + b.enc 7, b.literal)
  | .shr d a b => some (0x0200000E + sh d.val 19 + srcE a 13 6 + b.enc 7, b.literal)
  | .sar d a b => some (0x0200000F + sh d.val 19 + srcE a 13 6 + b.enc 7, b.literal)
  | .rol d a b => some (0x02000010 + sh d.val 19 + srcE a 13 6 + b.enc 7, b.literal)
  | .minI64 d a b => some (0x02000011 + sh d.val 19 + srcE a 13 6 + b.enc 7, b.literal)
  | .minN64 d a b => some (0x02000012 + sh d.val 19 + srcE a 13 6 + b.enc 7, b.literal)
  | .maxI64 d a b => some (0x02000013 + sh d.val 19 + srcE a 13 6 + b.enc 7, b.literal)
  | .maxN64 d a b => some (0x02000014 + sh d.val 19 + srcE a 13 6 + b.enc 7, b.literal)
  | .sel d a b => some (0x02000015 + sh d.val 19 + srcE a 13 6 + b.enc 7, b.literal)
  | .clz d a => some (0x04000000 + sh d.val 19 + srcE a 13 6, none)
  | .ctz d a => some (0x04000001 + sh d.val 19 + srcE a 13 6, none)
  | .popc d a => some (0x04000002 + sh d.val 19 + srcE a 13 6, none)
  | .mov d a => some (0x04000003 + sh d.val 19 + srcE a 13 6, none)
  | .sextI8 d a => some (0x04000004 + sh d.val 19 + srcE a 13 6, none)
  | .sextI16 d a => some (0x04000005 + sh d.val 19 + srcE a 13 6, none)
  | .sextI32 d a => some (0x04000006 + sh d.val 19 + srcE a 13 6, none)
  | .zextN8 d a => some (0x04000007 + sh d.val 19 + srcE a 13 6, none)
  | .zextN16 d a => some (0x04000008 + sh d.val 19 + srcE a 13 6, none)
  | .zextN32 d a => some (0x04000009 + sh d.val 19 + srcE a 13 6, none)
  | .setEq d a b => some (0x04000010 + sh d.val 19 + srcE a 13 6 + b.enc 7, b.literal)
  | .setNe d a b => some (0x04000011 + sh d.val 19 + srcE a 13 6 + b.enc 7, b.literal)
  | .setLt d a b => some (0x04000012 + sh d.val 19 + srcE a 13 6 + b.enc 7, b.literal)
  | .setGe d a b => some (0x04000013 + sh d.val 19 + srcE a 13 6 + b.enc 7, b.literal)
  | .setLtn d a b => some (0x04000014 + sh d.val 19 + srcE a 13 6 + b.enc 7, b.literal)
  | .setGen d a b => some (0x04000015 + sh d.val 19 + srcE a 13 6 + b.enc 7, b.literal)
  | .addImm d a imm => some (0x06000000 + sh d.val 19 + srcE a 13 12 + imm.toNat, none)
  | .andImm d a imm => some (0x08000000 + sh d.val 19 + srcE a 13 12 + imm.toNat, none)
  | .orImm d a imm => some (0x0A000000 + sh d.val 19 + srcE a 13 12 + imm.toNat, none)
  | .xorImm d a imm => some (0x0C000000 + sh d.val 19 + srcE a 13 12 + imm.toNat, none)
  | .shlImm d a n => some (0x0E000000 + sh d.val 19 + srcE a 13 12 + n.val, none)
  | .shrImm d a n => some (0x0E000400 + sh d.val 19 + srcE a 13 12 + n.val, none)
  | .sarImm d a n => some (0x0E000800 + sh d.val 19 + srcE a 13 12 + n.val, none)
  | .rolImm d a n => some (0x0E000C00 + sh d.val 19 + srcE a 13 12 + n.val, none)
  | .bfx d a p n => some (0x10000000 + sh d.val 19 + srcE a 13 12 + sh p.val 6 + n.val, none)
  | .bfi d a p n => some (0x12000000 + sh d.val 19 + srcE a 13 12 + sh p.val 6 + n.val, none)
  | .li d imm => some (0x14000000 + sh d.val 19 + imm.toNat, none)
  | .lih d a b => some (0x16000000 + sh d.val 19 + srcE a 13 6 + b.enc 7, b.literal)
  | .lea d a b k => some (0x18000000 + sh d.val 19 + srcE a 13 6 + b.enc 7 + k.val, b.literal)
  | .brEq a b off => some (0x20000000 + srcE a 19 12 + srcE b 13 11 + off.toNat, none)
  | .brNe a b off => some (0x22000000 + srcE a 19 12 + srcE b 13 11 + off.toNat, none)
  | .brLt a b off => some (0x24000000 + srcE a 19 12 + srcE b 13 11 + off.toNat, none)
  | .brGe a b off => some (0x26000000 + srcE a 19 12 + srcE b 13 11 + off.toNat, none)
  | .brLtn a b off => some (0x28000000 + srcE a 19 12 + srcE b 13 11 + off.toNat, none)
  | .brGen a b off => some (0x2A000000 + srcE a 19 12 + srcE b 13 11 + off.toNat, none)
  | .brAny a off => some (0x2C000000 + sh a.val 19 + off.toNat, none)
  | .brAll a off => some (0x2E000000 + sh a.val 19 + off.toNat, none)
  | .brNone a off => some (0x30000000 + sh a.val 19 + off.toNat, none)
  | .brNall a off => some (0x32000000 + sh a.val 19 + off.toNat, none)
  | .bra off => some (0x34000000 + off.toNat, none)
  | .call off => some (0x36000000 + off.toNat, none)
  | .jtab a len => some (0x38000000 + srcE a 13 12 + len.toNat, none)
  | .jr a => some (0x3A000000 + srcE a 13 6, none)
  | .callReg a => some (0x3A000001 + srcE a 13 6, none)
  | .trap c => some (0x3C000100 + c.toNat, none)
  | .ctlRd d c => some (0x40000000 + sh d.val 19 + c.toNat, none)
  | .ctlWr a c => some (0x42000000 + srcE a 13 12 + c.toNat, none)
  | .ctlSet a c => some (0x44000000 + srcE a 13 12 + c.toNat, none)
  | .ctlClr a c => some (0x46000000 + srcE a 13 12 + c.toNat, none)
  | .fence a scope => some (0x48000000 + srcE a 13 12 + scope.val, none)
  | .fadd d a b t => some (0x50000000 + sh d.val 19 + srcE a 13 6 + b.enc 7 + t.code, b.literal)
  | .fsub d a b t => some (0x50000004 + sh d.val 19 + srcE a 13 6 + b.enc 7 + t.code, b.literal)
  | .fmul d a b t => some (0x50000008 + sh d.val 19 + srcE a 13 6 + b.enc 7 + t.code, b.literal)
  | .fdiv d a b t => some (0x5000000C + sh d.val 19 + srcE a 13 6 + b.enc 7 + t.code, b.literal)
  | .fmin d a b t => some (0x50000010 + sh d.val 19 + srcE a 13 6 + b.enc 7 + t.code, b.literal)
  | .fmax d a b t => some (0x50000014 + sh d.val 19 + srcE a 13 6 + b.enc 7 + t.code, b.literal)
  | .fsgn d a b t => some (0x50000018 + sh d.val 19 + srcE a 13 6 + b.enc 7 + t.code, b.literal)
  | .fma d a b t => some (0x52000000 + sh d.val 19 + srcE a 13 6 + b.enc 7 + t.code, b.literal)
  | .fms d a b t => some (0x52000004 + sh d.val 19 + srcE a 13 6 + b.enc 7 + t.code, b.literal)
  | .fnma d a b t => some (0x52000008 + sh d.val 19 + srcE a 13 6 + b.enc 7 + t.code, b.literal)
  | .fsqrt d a t => some (0x5200000C + sh d.val 19 + srcE a 13 6 + t.code, none)
  | .fcmp d a b t => some (0x52000010 + sh d.val 19 + srcE a 13 6 + b.enc 7 + t.code, b.literal)
  | .fclass d a t => some (0x52000014 + sh d.val 19 + srcE a 13 6 + t.code, none)
  | .fcvt d a k j => some (0x52000018 + sh d.val 19 + srcE a 13 6 + sh k.code 10 + sh j.code 7, none)
  | .liF32 d imm => some (0x54000000 + sh d.val 20 + imm.toNat, none)
  | .faddCb d a t c => some (0x56000000 + sh d.val 19 + srcE a 13 12 + sh t.code 8 + c.val, none)
  | .fsubCb d a t c => some (0x56000200 + sh d.val 19 + srcE a 13 12 + sh t.code 8 + c.val, none)
  | .fmulCb d a t c => some (0x56000400 + sh d.val 19 + srcE a 13 12 + sh t.code 8 + c.val, none)
  | .fmaCb d a t c => some (0x56000600 + sh d.val 19 + srcE a 13 12 + sh t.code 8 + c.val, none)
  | .fminCb d a t c => some (0x56000800 + sh d.val 19 + srcE a 13 12 + sh t.code 8 + c.val, none)
  | .fmaxCb d a t c => some (0x56000A00 + sh d.val 19 + srcE a 13 12 + sh t.code 8 + c.val, none)
  | .vaddI32 d a b m => some (0x58000000 + sh d.val 20 + srcE a 15 6 + b.enc 10 + sh m.val 7, b.literal)
  | .vsubI32 d a b m => some (0x58000001 + sh d.val 20 + srcE a 15 6 + b.enc 10 + sh m.val 7, b.literal)
  | .vmulI32 d a b m => some (0x58000002 + sh d.val 20 + srcE a 15 6 + b.enc 10 + sh m.val 7, b.literal)
  | .vminI32 d a b m => some (0x58000003 + sh d.val 20 + srcE a 15 6 + b.enc 10 + sh m.val 7, b.literal)
  | .vminN32 d a b m => some (0x58000004 + sh d.val 20 + srcE a 15 6 + b.enc 10 + sh m.val 7, b.literal)
  | .vmaxI32 d a b m => some (0x58000005 + sh d.val 20 + srcE a 15 6 + b.enc 10 + sh m.val 7, b.literal)
  | .vmaxN32 d a b m => some (0x58000006 + sh d.val 20 + srcE a 15 6 + b.enc 10 + sh m.val 7, b.literal)
  | .vandI32 d a b m => some (0x58000007 + sh d.val 20 + srcE a 15 6 + b.enc 10 + sh m.val 7, b.literal)
  | .vorI32 d a b m => some (0x58000008 + sh d.val 20 + srcE a 15 6 + b.enc 10 + sh m.val 7, b.literal)
  | .vxorI32 d a b m => some (0x58000009 + sh d.val 20 + srcE a 15 6 + b.enc 10 + sh m.val 7, b.literal)
  | .vshlI32 d a b m => some (0x5800000A + sh d.val 20 + srcE a 15 6 + b.enc 10 + sh m.val 7, b.literal)
  | .vshrI32 d a b m => some (0x5800000B + sh d.val 20 + srcE a 15 6 + b.enc 10 + sh m.val 7, b.literal)
  | .vsarI32 d a b m => some (0x5800000C + sh d.val 20 + srcE a 15 6 + b.enc 10 + sh m.val 7, b.literal)
  | .vaddFp d a b m t => some (0x5A000000 + sh d.val 20 + srcE a 15 6 + b.enc 10 + sh m.val 7 + t.code, b.literal)
  | .vsubFp d a b m t => some (0x5A000004 + sh d.val 20 + srcE a 15 6 + b.enc 10 + sh m.val 7 + t.code, b.literal)
  | .vmulFp d a b m t => some (0x5A000008 + sh d.val 20 + srcE a 15 6 + b.enc 10 + sh m.val 7 + t.code, b.literal)
  | .vfma d a b m t => some (0x5A00000C + sh d.val 20 + srcE a 15 6 + b.enc 10 + sh m.val 7 + t.code, b.literal)
  | .vminFp d a b m t => some (0x5A000010 + sh d.val 20 + srcE a 15 6 + b.enc 10 + sh m.val 7 + t.code, b.literal)
  | .vmaxFp d a b m t => some (0x5A000014 + sh d.val 20 + srcE a 15 6 + b.enc 10 + sh m.val 7 + t.code, b.literal)
  | .vcmp d a b m t p => some (0x5C000000 + sh d.val 20 + srcE a 15 6 + b.enc 10 + sh m.val 7 + sh t.code 2 + p.code, b.literal)
  | .vsel d a b k => some (0x5C000014 + sh d.val 20 + srcE a 15 6 + b.enc 10 + sh k.val 7, b.literal)
  | .vfclass d a m t => some (0x5C000015 + sh d.val 20 + srcE a 15 6 + sh m.val 7 + t.code, none)
  | .vbcast d a m => some (0x5E000000 + sh d.val 20 + srcE a 15 6 + sh m.val 7, none)
  | .vins d a b => some (0x5E000001 + sh d.val 20 + srcE a 15 6 + b.enc 10, b.literal)
  | .vextN32 d a b => some (0x5E000002 + sh d.val 20 + srcE a 15 6 + b.enc 10, b.literal)
  | .vextI32 d a b => some (0x5E000003 + sh d.val 20 + srcE a 15 6 + b.enc 10, b.literal)
  | .vperm d a b m => some (0x5E000004 + sh d.val 20 + srcE a 15 6 + b.enc 10 + sh m.val 7, b.literal)
  | .vslide d a b m => some (0x5E000005 + sh d.val 20 + srcE a 15 6 + b.enc 10 + sh m.val 7, b.literal)
  | .vredsum d a k t => some (0x60000000 + sh d.val 20 + srcE a 15 6 + sh k.val 7 + t.code, none)
  | .vredmax d a k t => some (0x60000004 + sh d.val 20 + srcE a 15 6 + sh k.val 7 + t.code, none)
  | .vredmin d a k t => some (0x60000008 + sh d.val 20 + srcE a 15 6 + sh k.val 7 + t.code, none)
  | .vdot8E4m3 d a b m => some (0x62000000 + sh d.val 20 + srcE a 15 6 + b.enc 10 + sh m.val 7, b.literal)
  | .vdot8E5m2 d a b m => some (0x62000001 + sh d.val 20 + srcE a 15 6 + b.enc 10 + sh m.val 7, b.literal)
  | .vdot8I8 d a b m => some (0x62000002 + sh d.val 20 + srcE a 15 6 + b.enc 10 + sh m.val 7, b.literal)
  | .vdottT2 d a b m => some (0x62000003 + sh d.val 20 + srcE a 15 6 + b.enc 10 + sh m.val 7, b.literal)
  | .vcvt d a m k j => some (0x64000000 + sh d.val 20 + srcE a 15 6 + sh j.code 10 + sh m.val 7 + k.code, none)
  | .vqnt d a b f => some (0x64000008 + sh d.val 20 + srcE a 15 6 + b.enc 10 + f.code, b.literal)
  | .vdqnt d a b f => some (0x6400000A + sh d.val 20 + srcE a 15 6 + b.enc 10 + f.code, b.literal)
  | .vrecip d a m t => some (0x66000000 + sh d.val 20 + srcE a 15 6 + sh m.val 7 + t.code, none)
  | .vrsqrt d a m t => some (0x66000004 + sh d.val 20 + srcE a 15 6 + sh m.val 7 + t.code, none)
  | .vexp2 d a m t => some (0x66000008 + sh d.val 20 + srcE a 15 6 + sh m.val 7 + t.code, none)
  | .vbcastF32 d imm => some (0x68000000 + sh d.val 20 + imm.toNat, none)
  | .vaddCb d a m t c => some (0x6A000000 + sh d.val 20 + sh a.val 15 + sh m.val 12 + sh t.code 8 + c.val, none)
  | .vsubCb d a m t c => some (0x6A000200 + sh d.val 20 + sh a.val 15 + sh m.val 12 + sh t.code 8 + c.val, none)
  | .vmulCb d a m t c => some (0x6A000400 + sh d.val 20 + sh a.val 15 + sh m.val 12 + sh t.code 8 + c.val, none)
  | .vfmaCb d a m t c => some (0x6A000600 + sh d.val 20 + sh a.val 15 + sh m.val 12 + sh t.code 8 + c.val, none)
  | .vminCb d a m t c => some (0x6A000800 + sh d.val 20 + sh a.val 15 + sh m.val 12 + sh t.code 8 + c.val, none)
  | .vmaxCb d a m t c => some (0x6A000A00 + sh d.val 20 + sh a.val 15 + sh m.val 12 + sh t.code 8 + c.val, none)
  | .mand d a b => some (0x6C000000 + sh d.val 19 + sh a.val 13 + b.enc 7, b.literal)
  | .mor d a b => some (0x6C000001 + sh d.val 19 + sh a.val 13 + b.enc 7, b.literal)
  | .mxor d a b => some (0x6C000002 + sh d.val 19 + sh a.val 13 + b.enc 7, b.literal)
  | .mnot d a => some (0x6C000003 + sh d.val 19 + sh a.val 13, none)
  | .mpop d a => some (0x6C000004 + sh d.val 19 + sh a.val 13, none)
  | .mfirst d a => some (0x6C000005 + sh d.val 19 + sh a.val 13, none)
  | .mset d b => some (0x6C000006 + sh d.val 19 + b.enc 7, b.literal)
  | .mtest d a b => some (0x6C000007 + sh d.val 19 + sh a.val 13 + b.enc 7, b.literal)
  | .ldI8 d b h off => some (0x80000000 + sh d.val 19 + srcE b 13 12 + sh h.code 10 + off.toNat, none)
  | .ldN8 d b h off => some (0x82000000 + sh d.val 19 + srcE b 13 12 + sh h.code 10 + off.toNat, none)
  | .ldI16 d b h off => some (0x84000000 + sh d.val 19 + srcE b 13 12 + sh h.code 10 + off.toNat, none)
  | .ldN16 d b h off => some (0x86000000 + sh d.val 19 + srcE b 13 12 + sh h.code 10 + off.toNat, none)
  | .ldI32 d b h off => some (0x88000000 + sh d.val 19 + srcE b 13 12 + sh h.code 10 + off.toNat, none)
  | .ldN32 d b h off => some (0x8A000000 + sh d.val 19 + srcE b 13 12 + sh h.code 10 + off.toNat, none)
  | .ldI64 d b h off => some (0x8C000000 + sh d.val 19 + srcE b 13 12 + sh h.code 10 + off.toNat, none)
  | .stI8 d b h off => some (0x8E000000 + sh d.val 19 + srcE b 13 12 + sh h.code 10 + off.toNat, none)
  | .stI16 d b h off => some (0x90000000 + sh d.val 19 + srcE b 13 12 + sh h.code 10 + off.toNat, none)
  | .stI32 d b h off => some (0x92000000 + sh d.val 19 + srcE b 13 12 + sh h.code 10 + off.toNat, none)
  | .stI64 d b h off => some (0x94000000 + sh d.val 19 + srcE b 13 12 + sh h.code 10 + off.toNat, none)
  | .vld d b h off => some (0x96000000 + sh d.val 19 + srcE b 13 12 + sh h.code 10 + off.toNat, none)
  | .vst d b h off => some (0x98000000 + sh d.val 19 + srcE b 13 12 + sh h.code 10 + off.toNat, none)
  | .ldSp d b z off => some (0x9A000000 + sh d.val 19 + srcE b 13 12 + sh z.code 10 + off.toNat, none)
  | .ldSpN d b z off => some (0x9C000000 + sh d.val 19 + srcE b 13 12 + sh z.code 10 + off.toNat, none)
  | .stSp d b z off => some (0x9E000000 + sh d.val 19 + srcE b 13 12 + sh z.code 10 + off.toNat, none)
  | .ldsync d b mem wide off => some (0xA0000000 + sh d.val 19 + srcE b 13 12 + sh mem.toNat 11 + sh wide.toNat 10 + off.toNat, none)
  | .vldSp d b off => some (0xA2000C00 + sh d.val 19 + srcE b 13 12 + off.toNat, none)
  | .vstSp d b off => some (0xA4000C00 + sh d.val 19 + srcE b 13 12 + off.toNat, none)
  | .stfill a b mem wide => some (0xA6000000 + srcE a 13 6 + b.enc 7 + sh mem.toNat 1 + wide.toNat, b.literal)
  | .clrfe a b mem => some (0xA6000004 + srcE a 13 6 + b.enc 7 + mem.toNat, b.literal)
  | .lda d a narrow => some (0xA6000006 + sh d.val 19 + srcE a 13 6 + narrow.toNat, none)
  | .stl a b narrow => some (0xA6000008 + srcE a 13 6 + b.enc 7 + narrow.toNat, b.literal)
  | .pref a => some (0xA600000A + srcE a 13 6, none)
  | .prefSt a => some (0xA600000B + srcE a 13 6, none)
  | .prefSk a => some (0xA600000C + srcE a 13 6, none)
  | .drain p => some (0xA6000010 + p.code, none)
  | .vgather d a b m sp => some (0xA8000000 + sh d.val 20 + srcE a 15 6 + b.enc 10 + sh m.val 7 + sh sp.toNat 1, b.literal)
  | .vscatter d a b m sp => some (0xA8000001 + sh d.val 20 + srcE a 15 6 + b.enc 10 + sh m.val 7 + sh sp.toNat 1, b.literal)
  | .amoAdd d a b wide => some (0xA8000000 + sh (if wide then 1 else 2) 25 + sh d.val 19 + srcE a 13 6 + b.enc 7, b.literal)
  | .amoMinI d a b wide => some (0xA8000001 + sh (if wide then 1 else 2) 25 + sh d.val 19 + srcE a 13 6 + b.enc 7, b.literal)
  | .amoMinN d a b wide => some (0xA8000002 + sh (if wide then 1 else 2) 25 + sh d.val 19 + srcE a 13 6 + b.enc 7, b.literal)
  | .amoMaxI d a b wide => some (0xA8000003 + sh (if wide then 1 else 2) 25 + sh d.val 19 + srcE a 13 6 + b.enc 7, b.literal)
  | .amoMaxN d a b wide => some (0xA8000004 + sh (if wide then 1 else 2) 25 + sh d.val 19 + srcE a 13 6 + b.enc 7, b.literal)
  | .amoAnd d a b wide => some (0xA8000005 + sh (if wide then 1 else 2) 25 + sh d.val 19 + srcE a 13 6 + b.enc 7, b.literal)
  | .amoOr d a b wide => some (0xA8000006 + sh (if wide then 1 else 2) 25 + sh d.val 19 + srcE a 13 6 + b.enc 7, b.literal)
  | .amoXor d a b wide => some (0xA8000007 + sh (if wide then 1 else 2) 25 + sh d.val 19 + srcE a 13 6 + b.enc 7, b.literal)
  | .amoSwap d a b wide => some (0xA8000008 + sh (if wide then 1 else 2) 25 + sh d.val 19 + srcE a 13 6 + b.enc 7, b.literal)
  | .amoCas d a b wide => some (0xA8000009 + sh (if wide then 1 else 2) 25 + sh d.val 19 + srcE a 13 6 + b.enc 7, b.literal)
  | .amoStadd a b wide => some (0xA8000010 + sh (if wide then 1 else 2) 25 + srcE a 13 6 + b.enc 7, b.literal)
  | .amoStminI a b wide => some (0xA8000011 + sh (if wide then 1 else 2) 25 + srcE a 13 6 + b.enc 7, b.literal)
  | .amoStminN a b wide => some (0xA8000012 + sh (if wide then 1 else 2) 25 + srcE a 13 6 + b.enc 7, b.literal)
  | .amoStmaxI a b wide => some (0xA8000013 + sh (if wide then 1 else 2) 25 + srcE a 13 6 + b.enc 7, b.literal)
  | .amoStmaxN a b wide => some (0xA8000014 + sh (if wide then 1 else 2) 25 + srcE a 13 6 + b.enc 7, b.literal)
  | .amoStand a b wide => some (0xA8000015 + sh (if wide then 1 else 2) 25 + srcE a 13 6 + b.enc 7, b.literal)
  | .amoStor a b wide => some (0xA8000016 + sh (if wide then 1 else 2) 25 + srcE a 13 6 + b.enc 7, b.literal)
  | .amoStxor a b wide => some (0xA8000017 + sh (if wide then 1 else 2) 25 + srcE a 13 6 + b.enc 7, b.literal)
  | .amoStswap a b wide => some (0xA8000018 + sh (if wide then 1 else 2) 25 + srcE a 13 6 + b.enc 7, b.literal)
  | .amoStcas d a b wide => some (0xA8000019 + sh (if wide then 1 else 2) 25 + sh d.val 19 + srcE a 13 6 + b.enc 7, b.literal)
  | .famoAdd d a b => some (0xAE000000 + sh d.val 19 + srcE a 13 6 + b.enc 7, b.literal)
  | .famoStadd a b => some (0xAE000001 + srcE a 13 6 + b.enc 7, b.literal)
  | .tld a b peek => some (0xB0000000 + srcE a 13 6 + b.enc 7 + peek.toNat, b.literal)
  | .tst a b => some (0xB0000002 + srcE a 13 6 + b.enc 7, b.literal)
  | .twait a => some (0xB2000000 + srcE a 13 6, none)
  | .twaitY a => some (0xB2000001 + srcE a 13 6, none)
  | .tdrop a => some (0xB2000002 + srcE a 13 6, none)
  | .tpeek d a b => some (0xB2000003 + sh d.val 19 + srcE a 13 6 + b.enc 7, b.literal)
  | .thmake d a b => some (0xB2000004 + sh d.val 19 + srcE a 13 6 + b.enc 7, b.literal)
  | .tq d a => some (0xB2000005 + sh d.val 19 + srcE a 13 6, none)
  | .spawn a b => some (0xC0000000 + srcE a 13 6 + b.enc 7, b.literal)
  | .spawnk a b => some (0xC0000001 + srcE a 13 6 + b.enc 7, b.literal)
  | .launch a => some (0xC0000002 + srcE a 13 6, none)
  | .reap d a b => some (0xC0000004 + sh d.val 19 + srcE a 13 6 + b.enc 7, b.literal)
  | .path d b => some (0xC0000006 + sh d.val 19 + b.enc 7, b.literal)
  | .recLd d b => some (0xC0000007 + sh d.val 19 + b.enc 7, b.literal)
  | .callr d a b => some (0xC2000000 + sh d.val 19 + srcE a 13 6 + b.enc 7, b.literal)
  | .reply a => some (0xC2000001 + srcE a 13 6, none)
  | .chanCfg a => some (0xC4000000 + srcE a 13 6, none)
  | .chanCfgRel a => some (0xC4000001 + srcE a 13 6, none)
  | .rejoin a b => some (0xC6000001 + srcE a 13 6 + b.enc 7, b.literal)
  | .lockstep a => some (0xC6000002 + srcE a 13 6, none)
  | .crewid d => some (0xC6000004 + sh d.val 19, none)
  | .rvInit a b => some (0xC8000000 + srcE a 13 6 + b.enc 7, b.literal)
  | .rvArr d a => some (0xC8000001 + sh d.val 19 + srcE a 13 6, none)
  | .rvWait a b => some (0xC8000002 + srcE a 13 6 + b.enc 7, b.literal)
  | .boAdd a b sp => some (0xC8000003 + srcE a 13 6 + b.enc 7 + sh sp.toNat 3, b.literal)
  | .boInit a b sp => some (0xC8000004 + srcE a 13 6 + b.enc 7 + sh sp.toNat 3, b.literal)
  | .boArr d a sp => some (0xC8000005 + sh d.val 19 + srcE a 13 6 + sh sp.toNat 3, none)
  | .boWait a b sp => some (0xC8000006 + srcE a 13 6 + b.enc 7 + sh sp.toNat 3, b.literal)
  | .gset g b => some (0xCA000000 + sh g.val 13 + b.enc 7, b.literal)
  | .gclr g => some (0xCA000001 + sh g.val 13, none)
  | .digestAdd a b => some (0xCC000000 + srcE a 13 6 + b.enc 7, b.literal)
  | .digestEnd d a b => some (0xCC000001 + sh d.val 19 + srcE a 13 6 + b.enc 7, b.literal)
  | .cpushM d a hi => some (0xE0000000 + sh d.val 19 + srcE a 13 6 + hi.toNat, none)
  | .cpushC d a hi => some (0xE0000002 + sh d.val 19 + srcE a 13 6 + hi.toNat, none)
  | .cpushG d a hi => some (0xE0000004 + sh d.val 19 + srcE a 13 6 + hi.toNat, none)
  | .cwaitM a => some (0xE0000006 + srcE a 13 6, none)
  | .cwaitC a => some (0xE0000007 + srcE a 13 6, none)
  | .cwaitG a => some (0xE0000008 + srcE a 13 6, none)
  | .cseqM d => some (0xE0000009 + sh d.val 19, none)
  | .cseqC d => some (0xE000000A + sh d.val 19, none)
  | .cseqG d => some (0xE000000B + sh d.val 19, none)
  | .abind d b => some (0xE2000000 + sh d.val 19 + b.enc 7, b.literal)
  | .skimRow d => some (0xE2000002 + sh d.val 19, none)
  | .skimEnd a b => some (0xE2000003 + sh a.val 13 + b.enc 7, b.literal)
  | .nop => some (0x3C000000, none)
  | .eret => some (0x3C000200, none)
  | .halt => some (0x3C000300, none)
  | .texit => some (0xC0000003, none)
  | .yield => some (0xC0000005, none)
  | .detach => some (0xC6000000, none)
  | .split => some (0xC6000003, none)
  | .arel => some (0xE2000001, none)
  | .mmaE4m3 _ => none
  | .mmaE5m2 _ => none
  | .mmaBf16 _ => none
  | .mmaI8 _ => none
  | .mmaT2 _ => none
  | .mzero _ => none
  | .mdrain _ => none
  | .ringCfg _ _ => none
  | .ringAdv _ _ => none
  | .ringReset _ _ => none
  | .copy _ => none
  | .copy2 _ => none
  | .copyQ _ => none
  | .copyVLoad _ => none
  | .copyVStore _ => none
  | .tfill _ => none
  | .gather _ => none
  | .gdist _ => none
  | .topkMerge _ => none
  | .commandEnd _ _ => none
  | .postedCauseTaken _ => none
  | .lateOutcomeTaken _ => none
  | .fillLand _ _ _ => none
  | .tileDelivery _ _ => none
  | .frontEndDecode _ => none
  | .crewStallDetach _ _ => none
  | .abindGrant _ => none
  | .arrayLeaseGrant _ => none
  | .arrayLeaseIdleEnd _ => none
  | .mdrainRowRead _ => none
  | .ringTilePublish _ _ => none
  | .recordArrival _ _ => none
  | .panOverflowReturn _ => none
  | .dispatch _ => none
  | .launchExpansion _ => none
  | .instanceComplete _ => none
  | .launchComplete _ => none
  | .idleDieSteal _ => none
  | .stealRequest _ => none
  | .replyDelivery _ => none
  | .versionRequest _ _ => none
  | .versionStoreRequest _ _ _ => none
  | .versionCopyDone _ _ => none
  | .arrivalNotice _ _ => none
  | .sliceWrite _ _ _ => none
  | .sharerUpdateAck _ _ => none
  | .directoryRequest _ _ _ => none
  | .invalidateAck _ _ => none
  | .l2Eviction _ _ => none
  | .migrationMove _ => none
  | .migrationSwitch _ => none
  | .l3MissTranslate _ _ _ => none
  | .mailboxSpacePost _ => none
  | .rakeWalk _ => none
  | .walkAnswer _ => none
  | .faultMessage _ => none
  | .wake _ => none
  | .versionWaitTimeout _ => none
  | .syncTimeout _ _ => none
  | .rejoinTimeout _ => none
  | .fpcsrWrite _ _ => none
  | .tlbinvPage _ _ => none
  | .tlbinvAsid _ _ => none
  | .tlbinvAll _ _ => none
  | .fresResident _ _ => none
  | .fresRefused _ _ => none
  | .preemptRequest _ => none
  | .resumeRequest _ _ => none
  | .vpurgeStart _ _ => none
  | .vpurgeDone _ => none
  | .memcfgWrite _ _ => none
  | .migtlTailWrite _ _ => none
  | .fqtlHeadWrite _ _ => none
  | .secpolWrite _ _ => none
  | .debugHalt _ => none
  | .debugResume _ => none
  | .debugStep _ => none
  | .debugSnap _ => none
  | .dbgcopyBank _ _ => none
  | .dbgcopyTileSlot _ _ => none
  | .dbgcopyRendezvous _ _ => none
  | .dbgcopyRings _ _ => none
  | .dbgcopyMailbox _ _ => none
  | .ctlRegisterWrite _ _ _ => none
  | .doorbell _ _ => none
  | .feataccStage _ _ => none
  | .feataccCommit _ => none
  | .pkgnumWrite _ => none
  | .watchArm _ => none
  | .watchDisarm _ => none
  | .watchNotice _ => none
  | .hostRegisterWrite _ _ _ => none
  | .hostCxlMemAccess _ _ _ => none
  | .nvmeCompletion _ _ _ => none
  | .nvmeTimeout _ => none
  | .attestationRequest _ => none
  | .vreq _ _ => none
  | .vcancel _ _ => none
  | .vnote _ _ => none
  | .vstore _ _ => none
  | .vdata _ _ => none
  | .vans _ _ => none
  | .recMsg _ _ => none
  | .pgreq _ _ => none
  | .pghand _ _ => none
  | .pgack _ _ => none
  | .pggrant _ _ => none
  | .linerd _ _ => none
  | .linedata _ _ => none
  | .linewb _ _ => none
  | .binit _ _ => none
  | .barr _ _ => none
  | .brel _ _ => none
  | .digest _ _ => none
  | .incarn _ _ => none
  | .dieReset _ => none
  | .supervisorStart _ => none
  | .rakeStart _ => none
  | .controllerBoot _ => none
  | .eccError _ _ _ => none
  | .dieLoss _ => none
  | .d2dLinkFailure _ => none
  | .linkDown _ => none
  | .securityAlarm _ => none
  | .clockThrottle _ => none
  | .illegalOpcode _ => none
  | .linkUp _ => none

/-- The literal word that an instruction carries. -/
def Instr.literal (i : Instr) : Option W32 := (encode i).bind (·.2)

/-- The instruction whose first word is bits 31..0 of `w` and whose literal word, if it has one, is bits 63..32. -/
def decodeTableWord (_nbits w : Nat) : Option Instr :=
  match decode (w % 2 ^ 32) (BitVec.ofNat 32 (w / 2 ^ 32)) with
  | .ok i => some i
  | .error _ => none

end Sys2Proof
end

