-- ==== Sys2Proof/Config.lean ====
section
/-!
DEFINITION. What the manual leaves to the part, to its environment or to time: free values, opaque constants that
nothing can evaluate (entry 4 of the assumption log and the entries named beside each).
-/

namespace Sys2Proof

/-- Whose turn a step is: a slot issues at its instruction boundary, or a unit of the package, the host, a link or the
surroundings takes a step. -/
inductive Act where
  | issue (p : Nat)
  | event (i : Instr)
deriving DecidableEq, Repr, Inhabited

/-- One turn: the cycles that pass before it, and who acts (entry 4). -/
structure Turn where
  elapsed : Nat
  act : Act
deriving DecidableEq, Repr, Inhabited

/-- The order of all agents and their timing: which turn is the n-th (entry 4). -/
opaque Config.agenda : Nat → Turn

/-- Which of several outcomes that the rules allow comes about, by the number of the turn (entry 4). -/
opaque Config.pick : Nat → Nat

/-- Populated size in bytes of CXL expansion port 0–3 (R374); entry 5. -/
opaque Config.cxlSize : Nat → Nat

/-- The byte that the host answers for a read of its own memory: by the number of the read and the address (R275); the
host may write its memory at any time (entry 7). -/
opaque Config.hostByte : Nat → Nat → BitVec 8

/-- Frames of versions that a base die's L3 can hold (R278); entry 9. -/
opaque Config.l3Frames : Nat → Nat

/-- WHEAD of a version directory entry, by the number of the first waiter record or 0 (R277); entry 10. -/
opaque Config.waiterName : Nat → BitVec 32

/-- What `tq` of a name homed on another package finds, by the number of the request (R202); entry 11. -/
opaque Config.remoteName : Nat → BitVec 64

/-- What the gather engine makes of a top-k list that is not sorted, or that holds NaN scores, by the number of the turn
and the word (R269, R270); entry 12. -/
opaque Config.looseList : Nat → Nat → BitVec 32

/-- LEADER of a crew without an attached member, by the number of the turn (R51, R230); entry 13. -/
opaque Config.noLeader : Nat → Nat

/-- WID of a walk request in its mailbox (R353); entry 14. -/
opaque Config.walkId : Nat → BitVec 32

/-- A byte of another package's memory that a unit of the device reads through the physical window, by the number of the
turn and the address; entry 15. -/
opaque Config.remoteByte : Nat → Nat → BitVec 8

/-- The base die of another package, 0 or 1, to which the messages about one of its pages go, by page (R297, R377);
entry 16. -/
opaque Config.pageDie : Nat → Nat

/-- ADDR of a report for which the manual names none, by the number of the turn (R360); entry 17. -/
opaque Config.reportAddr : Nat → Nat

/-- A line of memory was modified only in a die of another package that has been lost, by the number of the turn and the
line's number (R380, R399); entry 19. -/
opaque Config.lostLine : Nat → Nat → Bool

/-- What the controller takes from a runtime image's signed header: entry address, `ctl.tvec`, `ctl.vdir`, `ctl.vstore`
(0 to 3) of a compute die (R32, R285); entry 20. -/
opaque Config.bootReg : Nat → Nat → BitVec 64

/-- An image of a class passes the checks of its signature and security version (R408); entry 21. -/
opaque Config.imageOk : Nat → List (BitVec 8) → Bool

/-- The dies that an image of a class serves (R408); entry 21. -/
opaque Config.imageDies : Nat → BitVec 16

/-- The image of a class that the controller loads again after a reset of a die, by the number of the turn (R32, R408); entry 21. -/
opaque Config.imageAgain : Nat → Nat → List (BitVec 8)

/-- The dies that the standby controller reaches after a failure of die-to-die links, by the number of the turn (R401); entry 48. -/
opaque Config.standbyReach : Nat → BitVec 16

/-- A byte of the public identity key (R410); entry 22. -/
opaque Config.identityKey : Nat → BitVec 8

/-- A byte of an attestation signature, by the number of the turn (R410); entry 22. -/
opaque Config.signature : Nat → Nat → BitVec 8

/-- How the free landing pages are ordered when an NVMe read takes some, by the number of the turn (R391); entry 46. -/
opaque Config.landing : Nat → Nat

/-- Bus address of a port's landing window (R383, R391); entry 46. -/
opaque Config.windowBus : Nat → Nat

/-- Bus address of the list that PRP2 of a read of more than two pages names, by the number of the turn (R391); entry 46. -/
opaque Config.prpList : Nat → BitVec 64

/-- A byte of a completion entry that an NVMe controller writes, by the number of the turn and its place (R390); entry 46. -/
opaque Config.nvmeEntry : Nat → Nat → BitVec 8

/-- Second word of a notice whose watched word can be read no more, by the number of the turn (R389); entry 73. -/
opaque Config.lostWord : Nat → BitVec 64

/-- How many of the newest messages on a link are still in flight when it fails, by the number of the turn and the link (R379);
entry 72. -/
opaque Config.inFlight : Nat → Nat → Nat

/-- Lanes of a Gwynwiorn link (R395); entry 23. -/
opaque Config.linkLanes : Nat

/-- Spare DRAM rows of a stack of a memory die as it was made (R395, R396); entry 23. -/
opaque Config.spareRows : Nat → Nat → Nat

/-- Which of the words that R71 allows a fetch returns, by the number of the turn and the address; entry 4. -/
opaque Config.codePick : Nat → Nat → Nat

/-- A byte of the entry of a saved access or tile request in an image, by the number of the access and the byte's place in its
entry: R336 gives the entries no coding; entry 28. -/
opaque Config.savedEntry : Nat → Nat → BitVec 8

/-- The set of a cache that a line falls into, by die and line key (R274); entry 62. -/
opaque Config.cacheSet : Nat → Nat → Nat

/-- A `rejoin` whose mask leaves out its own member stands for a group of its own (R432), not for one with its member added (R229),
by the number of the turn; entry 63. -/
opaque Config.alone : Nat → Bool

end Sys2Proof
end

