-- ==== Sys2Proof/Machine/Sparse.lean ====
section
/-!
DEFINITION. Tables with few entries, held as lists of (key, value) pairs in rising key order, and memory as such a
list of (address, byte) pairs in canonical form: no listed byte is 0, which is what an unlisted address reads as
(entry 1 of the assumption log).
-/

namespace Sys2Proof.Machine

/-- A table: pairs of a key and a value. -/
abbrev SMap (α : Type) := List (Nat × α)

namespace SMap
variable {α : Type}

/-- The value of a key, if it has one. -/
def get? : SMap α → Nat → Option α
  | [], _ => none
  | (j, x) :: t, k => if j = k then some x else get? t k

/-- The value of a key, or `d`. -/
def getD (t : SMap α) (k : Nat) (d : α) : α := (get? t k).getD d

/-- The table with one key bound to a value, in key order. -/
def set : SMap α → Nat → α → SMap α
  | [], k, x => [(k, x)]
  | (j, y) :: t, k, x =>
    if k < j then (k, x) :: (j, y) :: t
    else if j = k then (k, x) :: t
    else (j, y) :: set t k x

/-- The table without a key. -/
def del : SMap α → Nat → SMap α
  | [], _ => []
  | (j, y) :: t, k => if j = k then del t k else (j, y) :: del t k

/-- The table after a function has been applied to the value of a key, or to `d` where it has none. -/
def upd (t : SMap α) (k : Nat) (d : α) (f : α → α) : SMap α := set t k (f (getD t k d))

/-- A key has a value. -/
def has (t : SMap α) (k : Nat) : Bool := (get? t k).isSome

end SMap

/-- Physical memory (R374): pairs of an address and a byte. -/
abbrev Memory := List Host.Cell

namespace Memory

/-- Keys strictly rising from a lower bound on, and no byte 0: the canonical form above an address. -/
def wfFrom : Nat → Memory → Bool
  | _, [] => true
  | lo, (a, b) :: t => decide (lo ≤ a) && b != 0 && wfFrom (a + 1) t

/-- The canonical form: addresses strictly rising, and no entry equal to what an unlisted address reads as. -/
def wf (m : Memory) : Bool := wfFrom 0 m

/-- One byte. -/
def byte (m : Memory) (a : Nat) : Byte := SMap.getD m a 0

/-- Memory with one byte written. -/
def put (m : Memory) (a : Nat) (b : Byte) : Memory := if b == 0 then SMap.del m a else SMap.set m a b

/-- `n` bytes from an address on, the byte at the lowest address first. -/
def bytes (m : Memory) (a : Nat) : Nat → List Byte
  | 0 => []
  | n + 1 => byte m a :: bytes m (a + 1) n

/-- Memory with bytes written from an address on. -/
def putBytes (m : Memory) (a : Nat) : List Byte → Memory
  | [] => m
  | b :: t => putBytes (put m a b) (a + 1) t

end Memory

/-- The number whose bytes are given, lowest first (R2). -/
def ofBytes : List Byte → Nat
  | [] => 0
  | b :: t => b.toNat + 256 * ofBytes t

/-- The `n` low bytes of a number, lowest first (R2). -/
def toBytes : Nat → Nat → List Byte
  | 0, _ => []
  | n + 1, x => BitVec.ofNat 8 x :: toBytes n (x / 256)

/-- Lane `i` of a vector register (R147). -/
def lane (v : Vec) (i : Nat) : W32 := v.extractLsb' (32 * i) 32

/-- The number whose 32-bit lanes are given, lane 0 first. -/
def ofLaneList : List W32 → Nat
  | [] => 0
  | x :: t => x.toNat + 2 ^ 32 * ofLaneList t

/-- A vector register from its sixteen lanes. -/
def ofLanes (f : Nat → W32) : Vec := BitVec.ofNat 512 (ofLaneList ((List.range 16).map f))

/-- A vector with the active lanes of `new` and the other lanes of `old` (R148). -/
def blend (m : Mask) (new old : Vec) : Vec := ofLanes fun i => if m.getLsbD i then lane new i else lane old i

end Sys2Proof.Machine
end

