-- ==== Sys2Proof/Machine/State.lean ====
section
/-!
DEFINITION. The state of the whole package as plain data (01 and the chapters that name each piece; INVENTORY.md lists
every field with its rule and reset value), the state after reset, and the ways in which a step could stop.
-/

namespace Sys2Proof.Machine

/-- Guard states (R17). -/
inductive Guard where | unresolved | isTrue | isFalse
deriving DecidableEq, Repr

/-- What a slot holds (R27, R32, R332). -/
inductive Use where
  /-- No task. -/
  | free
  /-- A task dispatched from a record. -/
  | task
  /-- The device runtime. -/
  | supervisor
  /-- The page walker. -/
  | rake
  /-- A skim handler. -/
  | skim
  /-- Held for a parked or pre-empted task (R332). -/
  | held
deriving DecidableEq, Repr

/-! ### Accesses to memory (06, 09) -/

/-- Attributes of a translation, carried by every line that it filled (R345, R348). -/
structure Attr where
  r : Bool
  w : Bool
  x : Bool
  u : Bool
  sc : Bool
  d : Bool
  ret : BitVec 2
deriving DecidableEq, Repr

/-- Operations of the atomics (R192, R195); a floating-point sum carries the rounding mode in effect at its issue. -/
inductive AmoOp where
  | add | minI | minN | maxI | maxN | and | or | xor | swap | cas
  | fadd (rm : BitVec 3)
deriving DecidableEq, Repr

/-- Kinds of access. -/
inductive AccKind where
  /-- A load (R180), with an acquire order where `acq` (R189), waiting for full words where `sync` (R183). -/
  | load (acq sync : Bool)
  /-- A store (R180), with a release order where `rel` (R189), setting its words full where `fill` (R184). -/
  | store (rel fill : Bool)
  /-- `clrfe` (R184). -/
  | clear
  /-- An atomic; `cmp` is the compare value of a cas (R193). -/
  | atomic (op : AmoOp) (cmp : Word)
  /-- A barrier instruction's read and write of a barrier object in memory (R235). -/
  | barrier
deriving DecidableEq, Repr

/-- Where one part of an access stands. -/
inductive PartState where
  | todo
  /-- Waiting for the walk with that number (R350). -/
  | walking (n : Nat)
  /-- Written at the home slice and not yet committed (R290). -/
  | updating
  /-- Bound (a load's value, an atomic's old word) or committed. -/
  | done (val : Nat)
  /-- The outcome of R177. -/
  | bad (cause : Nat)
deriving DecidableEq, Repr

/-- A naturally aligned piece of an access: address, bytes, lane, data of a write, and the dies whose acknowledgement of
an invalidation has still to reach the writer (R293). -/
structure Part where
  va : Nat
  size : Nat
  lane : Nat
  data : Nat
  st : PartState
  acks : List Nat
deriving DecidableEq, Repr

/-- What a deferred fill writes (R11). -/
inductive FillDst where
  | none
  | s (d : SReg) (signed : Bool) (size : Nat)
  | v (d : VReg) (m : Mask)
deriving DecidableEq, Repr

/-- An outstanding access of a slot; `id` rises in program order. -/
structure Access where
  id : Nat
  kind : AccKind
  asid : Nat
  user : Bool
  hint : Hint
  sp : Bool
  parts : List Part
  dst : FillDst
  /-- `now` at its issue, and whether its wait has been reported (R183, R370). -/
  since : Nat
  reported : Bool
deriving DecidableEq, Repr

/-- An uncommitted update at a line's home slice: byte offset, data, the writer, and the sharers that have still to
acknowledge it, as core numbers (R290). -/
structure Update where
  off : Nat
  data : List Byte
  slot : Nat
  id : Nat
  part : Nat
  wait : List Nat
  /-- It sets its words full (R184). -/
  fill : Bool
deriving DecidableEq, Repr

/-- An on-chip line of an address space (R272, R290–R296). -/
structure Line where
  /-- Physical address of its 64 bytes. -/
  frame : Nat
  attr : Attr
  /-- Committed contents. -/
  cur : List Byte
  poison : Bool
  /-- Contents newer than memory's. -/
  dirty : Bool
  /-- Compute dies whose L2 holds the committed contents. -/
  present : List Nat
  /-- The die that holds the line for write. -/
  owner : Option Nat
  /-- Old contents in dies whose invalidation is in flight. -/
  stale : SMap (List Byte)
  /-- Cores whose L1 holds the line. -/
  l1 : List Nat
  /-- The core that holds it exclusively (R291). -/
  excl : Option Nat
  upd : Option Update
  /-- 32-bit words that are empty, 0–15 (R185). -/
  empties : List Nat
  /-- Recorded retention (R181). -/
  ret : BitVec 2
  /-- The step that brought it on chip (R274). -/
  born : Nat
  /-- It passes through to bypass accesses of another package's memory, and no cache keeps it (R274). -/
  pass : Bool
deriving DecidableEq, Repr

/-- The contents of a line before a write, by the frame of the line and the turn of the write (R71). -/
structure OldLine where
  frame : Nat
  at_ : Nat
  bytes : List Byte
deriving DecidableEq, Repr

/-- A translation that a memory-side TLB holds: base page, log2 of its 64 KiB pages, frame of the base page, attributes
(R349). -/
structure TlbEntry where
  mdie : Nat
  asid : Nat
  page : Nat
  log2 : Nat
  frame : Nat
  attr : Attr
deriving DecidableEq, Repr

/-- How a walk ends (R350, R354). -/
inductive WalkAnswer where
  | leaf (page log2 frame : Nat) (attr : Attr)
  | notPresent
  | malformed
  | invalidContext
  | poisoned
  /-- The walk has no outcome yet: a table word lies in another package's memory, at an address whose line is not here. -/
  | far (a : Nat)
deriving DecidableEq, Repr

/-- A page walk: the TLB's die and its incarnation, the page, the compute die of the request, and its answer (R353). -/
structure Walk where
  mdie : Nat
  inc : BitVec 16
  asid : Nat
  page : Nat
  cd : Nat
  /-- The core whose mailbox holds it; none while the TLB holds it. -/
  box : Option Nat
  answer : Option WalkAnswer
deriving DecidableEq, Repr

/-- A unit that translates by itself: the fetch and the one-step accesses of a slot, a command of an engine by task and
engine, a tile request at its home, the notice of a launch, a watch, or a prefetch by its number. -/
inductive Who where
  | slot (p : Nat)
  | eng (p : Nat) (e : Engine)
  | tile (id : Nat)
  | notice (cb : Nat)
  | watch (n : Nat)
  | pref (n : Nat)
deriving DecidableEq, Repr

/-- A unit that waits for a walk, and the cause by which that has failed (R350). -/
structure UnitWalk where
  who : Who
  asid : Nat
  page : Nat
  walk : Nat
  failed : Option Nat
deriving DecidableEq, Repr

/-- A line of code in an instruction cache: its frame, the attributes of the translation that filled it, its bytes (R30, R348). -/
structure CodeLine where
  frame : Nat
  attr : Attr
  bytes : List Byte
deriving DecidableEq, Repr

/-- A prefetch that waits for its translation or for another package (R190): its slot, address space, privilege, address, hint. -/
structure Pref where
  slot : Nat
  asid : Nat
  user : Bool
  va : Nat
  hint : Hint
deriving DecidableEq, Repr

/-! ### Tile requests and version homes (06, 09) -/

/-- What a tile request asks of its home (R197–R202, R267). -/
inductive TileKind where
  /-- `tld.c`, `tld.p` into a tile slot. -/
  | load (consume : Bool) (t : Nat)
  /-- `tst` from a tile slot with a reader count. -/
  | store (t count : Nat)
  | drop
  | peek (d : SReg) (idx : Nat)
  | wait
  | waitY
  | query (d : SReg)
  /-- The load of a `copy.v` command, consuming or not. -/
  | engLoad (e : Engine) (ticket : W32) (consume : Bool)
  /-- A version store by an engine: from a tile slot with the scale block at an offset, or of data and side block. -/
  | engStore (e : Engine) (ticket : W32) (count : Nat) (tile : Option Nat) (scale : Option (Nat × Nat)) (data side : List Byte)
  /-- `digest.add` into a group (R405). -/
  | digest (g : Nat)
  /-- A version watch of the host (R389). -/
  | watch (n : Nat)
  /-- A request of another package: its die there, its number, kind code and word index (R378). -/
  | remote (pkg die : Nat) (tag : Word) (code idx : Nat)
  /-- A version store of another package. -/
  | remoteStore (pkg die : Nat) (tag : Word) (count : Nat) (data side : List Byte)
deriving DecidableEq, Repr

/-- Where a tile request stands. -/
inductive TileState where
  /-- On its way to its home, or waiting there for a directory way. -/
  | sent
  /-- A waiter record of its name, or a store that waits for a free slot (R279, R280). -/
  | queued
  /-- A store whose version is RESERVED. -/
  | copying
  /-- A store whose data has gone to a home on another package (R378). -/
  | away
  /-- Answered FULL; the answer rides on an arrival notice (R282). -/
  | noticed (val : Word) (data side : List Byte)
  /-- Words of the tile slot that have still to arrive (R197). -/
  | delivering (data : List Byte) (left : List Nat)
  /-- Answered with a value. -/
  | answered (val : Word) (data side : List Byte)
  /-- A late outcome, with the address of a read of memory that failed. -/
  | bad (cause : Nat) (addr : Nat)
deriving DecidableEq, Repr

/-- What R276 and the tensor descriptor give for a name: hash, placement mask, addresses of its base image and of its
first scale, rows (0 where it has no scales), and the package of its homes if that is another one. -/
structure Home where
  x : Nat
  place : Nat
  base : Nat
  strip : Nat
  rows : Nat
  pkg : Option Nat
deriving DecidableEq, Repr

/-- A frame of a version: home die, location, slice (of a pool frame), number (R278). -/
structure Frame where
  die : Nat
  loc : Nat
  slice : Nat
  n : Nat
deriving DecidableEq, Repr

/-- A tile request: its kind, handle, address space, the slot and task that made it, and the start of its wait. -/
structure TileReq where
  kind : TileKind
  h : Word
  asid : Nat
  user : Bool
  slot : Nat
  tid : Nat
  st : TileState
  since : Nat
  reported : Bool
  /-- Incarnation of the requester's die (R282). -/
  inc : BitVec 16
  /-- The data is poisoned (R397). -/
  poison : Bool
  home : Home
  /-- The frame that a delivery under way still holds (R281). -/
  frame : Option Frame
deriving DecidableEq, Repr

/-- A version slot of a directory entry (R277); data and side block where they lie on chip (R278). -/
structure VSlot where
  version : Nat
  full : Bool
  loc : Nat
  count : Nat
  frame : Nat
  data : List Byte
  side : List Byte
  /-- `now` at its last delivery (R278). -/
  last : Nat
  /-- Its frame is poisoned (R397). -/
  poison : Bool
deriving DecidableEq, Repr

/-- A version directory entry (R277). -/
structure Name where
  die : Nat
  slice : Nat
  set : Nat
  way : Nat
  tensor : Nat
  tile : Nat
  floor : Nat
  slots : SMap VSlot
  /-- Waiter records, as version and request, in order of arrival (R280). -/
  waiters : List (Nat × Nat)
  /-- Stores that wait for a slot, in order of arrival (R279). -/
  stores : List Nat
  /-- Dies of other packages that have had a VNOTE of a version: version, package · 16 + die (R282, R378). -/
  noted : List (Nat × Nat)
  /-- Taken over from a lost die (R399). -/
  lost : Bool
deriving DecidableEq, Repr

/-- An arrival notice: the die it goes to, the incarnation it names, and the waiter records that ride on it (R282). -/
structure Notice where
  die : Nat
  inc : BitVec 16
  ids : List Nat
deriving DecidableEq, Repr

/-! ### Records, launches and saved tasks (10) -/

/-- Where the tasks of a record may be placed: the die, or a domain of R318 by kind and number. -/
structure Domain where
  kind : Nat
  idx : Nat
  /-- It lies in another package of the link group. -/
  pkg : Option Nat := none
deriving DecidableEq, Repr

/-- A record (R307). -/
structure Rec where
  key : Word
  path : Word
  folds : Nat
  sealed : Bool
  nf : Bool
  lr : Bool
  acnt : Nat
  aff : Nat
  prio : Nat
  cls : Nat
  entry : Nat
  stamp : Nat
  token : Word
  asid : Nat
  lnch : Nat
  payload : Vector Word 8
  /-- In the overflow table: group and place (R313). -/
  spill : Option (Nat × Nat)
  /-- Created by the device itself (R438). -/
  dev : Bool
  /-- Control block of the task that it resumes (R340). -/
  resume : Option Nat
  /-- Of a deterministic launch. -/
  det : Bool
  dom : Option Domain
  /-- Flat index of the instance of level DLEV that its task belongs to (R323), and member of a crew of an expansion. -/
  inst : Option Nat
deriving DecidableEq, Repr

/-- A record on its way to a pan: the die, the record, the slot and task that created it (for the device's own, the first slot of the
die that sends it; for the host's, the first number past the slots), the destination of a `callr`,
and the tasks' accesses that precede it (R215): slot and number of the newest. -/
structure RecMsg where
  die : Nat
  r : Rec
  slot : Nat
  tid : Nat
  dst : Option SReg
  /-- A dependant record of an instance: the accesses of its tasks have been performed (R323). -/
  free : Bool
deriving DecidableEq, Repr

/-- A reply on its way to its caller (R133). -/
structure Reply where
  token : Word
  val : Word
deriving DecidableEq, Repr

/-- A launch: its record, address space, path, die, whether it has started, the next flat index, the instances of
level DLEV that have posted their dependant record, and the state of its notice write. -/
structure Launch where
  words : Vector Word 16
  asid : Nat
  path : Word
  die : Nat
  started : Bool
  next : Nat
  posted : List Nat
  /-- Address of the fault-queue entry of a notice write that waits for its page (R362), and its sequence number. -/
  wait : Option (Nat × Nat)
  /-- The notice write is dropped after a refused page. -/
  refused : Bool
deriving DecidableEq, Repr

/-- A late outcome that no access holds: number, cause, value for `ctl.tval`, and a register it fills (R177). -/
structure Late where
  id : Nat
  cause : Nat
  tval : Word
  fill : Option (SReg × Word)
deriving DecidableEq, Repr

/-- A page fault that a saved task awaits: cause, address, number of the access (none for a fetch), and whether the
page was refused (R361, R364). -/
structure Fault0 where
  cause : Nat
  addr : Nat
  id : Option Nat
  refused : Bool
deriving DecidableEq, Repr

/-! ### Engines (08) -/

/-- Where a piece of a command's result comes from: bytes at hand, memory, the scratchpad, or data that has still to
arrive, by its offset in that data. -/
inductive From where
  | bytes (b : List Byte)
  | mem (va : Nat)
  | sp (off : Nat)
  | later (rel : Nat)
deriving DecidableEq, Repr

/-- A write that a command has still to perform: `n` bytes at a scratchpad offset or a virtual address. -/
structure Put where
  sp : Bool
  dst : Nat
  n : Nat
  src : From
deriving DecidableEq, Repr

/-- A command in an engine queue: ticket, its eight words, and its progress. -/
structure Cmd where
  ticket : W32
  words : List W32
  started : Bool
  /-- What has been decided about it before it starts: released at the head under a TRUE guard, or discarded (R17, R217). -/
  fate : Option Bool
  /-- The slot that it started from, whose cluster performs it (R245). -/
  pos : Nat
  /-- It has waited for a page, and its engine has not taken it up again (R248). -/
  paused : Bool
  /-- Every write that it makes stands in `out`, or has been performed. -/
  loaded : Bool
  /-- Cause and SUB of a failure (R247). -/
  fail : Option (Nat × Nat)
  /-- Pieces of a destination in memory that have still to be marked empty (R265). -/
  marks : List (Nat × Nat)
  /-- Writes that it has still to perform. -/
  out : List Put
  /-- Writes that it has performed, whose words have still to become full (R300). -/
  wrote : List Put
  /-- Tile request that it waits for. -/
  tile : Option Nat
  /-- Scratchpad offset and bytes of a scale block (R267). -/
  scale : Option (Nat × Nat)
  /-- Rows of an `mdrain` that have still to be read, with their cores (R259). -/
  rows : List (Nat × Nat)
  /-- Rings and the number of tiles that it pops as it ends. -/
  pops : List (Nat × Nat)
  /-- Tiles that an `mdrain` has claimed, by ring and index. -/
  claims : List (Nat × Nat)
  /-- It waits for a wake of this page: address, write, entry, sequence number (R362). -/
  page : Option (Nat × Bool × Nat × Nat)
  /-- Flags gathered (R22). -/
  flags : BitVec 5
deriving DecidableEq, Repr

/-- An engine as a slot sees it: pushed and completed counts, last failure, queue (R238, R241). -/
structure Eng where
  p : W32
  sq : W32
  lcause : Byte
  sub : Byte
  lseq : W32
  queue : List Cmd
deriving DecidableEq, Repr

/-- A posted cause: its ticket, cause and engine, and the cycle in which it was posted (R242). -/
structure Posted where
  ticket : W32
  cause : Byte
  eng : Engine
  at_ : Nat
deriving DecidableEq, Repr

/-- A row that a skim handler drains (R259–R262): the binder (as `State.holder` names it), bank, row, tag, destination. -/
structure Skim where
  owner : Nat
  bank : Nat
  row : Nat
  tag : Word
  /-- Scratchpad words of the row at the destination. -/
  dest : List Nat
deriving DecidableEq, Repr

/-- What a slot waits for beyond one turn. -/
inductive Wait where
  | none
  /-- The answer of a tile request (R200). -/
  | tile (id : Nat)
  /-- A `rejoin` at its target with its mask, 0 where it forms a group of its own, and whether it carries a literal (R229, R432). -/
  | rejoin (target : Word) (mask : BitVec 8) (lit : Bool)
  /-- A turn among the waiters of `abind` (R253): the number of its arrival, the bank or 4 for any, and the cycle from
  which it has waited. -/
  | abind (id q since : Nat)
  /-- The copy commands that a `drain` waits for, by task and ticket (R191). -/
  | drain (pend : List (Nat × W32))
  /-- A write of `ctl.tlbinv` that waits for earlier stores (R351). -/
  | invalidate
deriving DecidableEq, Repr

/-- What a barrier instruction other than `bo.wait` does to its object, with what it has read (R235). -/
inductive BarOp where
  | init (exp : Nat)
  | add (v : Nat)
  | arr
deriving DecidableEq, Repr

/-- A barrier instruction whose page was not present: it is performed before the next instruction, and its task parks there while
the page is still absent (R177, R235, R361). -/
structure BarReq where
  id : Nat
  op : BarOp
  addr : Word
  sp : Bool
  dst : Option SReg
deriving DecidableEq, Repr

/-- A rendezvous point (R232). -/
structure Point where
  init : Bool
  e : BitVec 16
  arrived : Nat
  gen : W32
deriving DecidableEq, Repr

/-- A scratchpad ring (R249). -/
structure Ring where
  conf : Bool
  base : Nat
  len : Nat
  head : Nat
  avail : Nat
  claim : Nat
  /-- Claimed tiles of an `mdrain` that has not ended, by index (R259). -/
  kept : List Nat
deriving DecidableEq, Repr

/-- An accumulator bank (R253–R257): its binder, its cells by row · 256 + column, and its flags; an unlisted cell is +0. -/
structure Bank where
  owner : Option Nat
  cells : SMap W32
  flags : BitVec 5
deriving DecidableEq, Repr

/-- The array lease (R258): the holding core, commands started, since when it has been idle, the previous holder. -/
structure Lease where
  holder : Option Nat
  started : Nat
  idle : Option Nat
  prev : Nat
deriving DecidableEq, Repr

/-- A cluster (R30). -/
structure Cluster where
  /-- Scratchpad words by word index; an unlisted word is 0 (entry 3). -/
  sp : SMap W32
  /-- Empty scratchpad words. -/
  spEmpty : SMap Bool
  /-- Poisoned scratchpad words (R397). -/
  spPoison : SMap Bool
  /-- Tile slots retired as lasting-faulty (R395). -/
  retired : List Nat
  /-- Tile slots with an outstanding `tld`, with the request's number (R186). -/
  tld : SMap Nat
  /-- Tile slots locked by a `tst`, once per `tst` (R198). -/
  locks : List Nat
  points : SMap Point
  /-- The team that holds the points, and the one that holds the rings (R324): launch and address space. -/
  ptTeam : Option (Nat × Nat)
  ringTeam : Option (Nat × Nat)
  rings : SMap Ring
  banks : SMap Bank
  lease : Lease
  /-- Where the copy and the gather engine begin their next search for a slot with a ready head (R239). -/
  copyTurn : Nat
  gatherTurn : Nat
  /-- Code lines in the cluster instruction cache, by line key (R30, R71). -/
  code : SMap CodeLine
deriving DecidableEq, Repr

/-- A thread slot (R9 and the rules named per field). -/
structure Slot where
  use : Use
  s : Vector Word 64
  /-- Full/empty bits of s0–s63, 1 = full (R10). -/
  sFull : BitVec 64
  v : Vector Vec 32
  vFull : BitVec 32
  m : Vector Mask 8
  g : Vector Guard 16
  cb : Vector W32 256
  pc : Word
  /-- RM, FLAGS and TEN of `ctl.fpcsr` (R48). -/
  rm : BitVec 3
  flags : BitVec 5
  ten : BitVec 5
  key : Word
  path : Word
  /-- The header word that `rec.ld` reads (R220). -/
  hdr : Word
  asid : BitVec 12
  kdesc : BitVec 16
  priv : BitVec 2
  crew : Bool
  det : Bool
  epc : Word
  cause : Byte
  tval : Word
  estat : BitVec 5
  escratch : Word
  dirtyS : BitVec 64
  dirtyV : BitVec 32
  /-- Spawn index (R213). -/
  idx : Word
  halted : Bool
  /-- One instruction may issue before the slot halts again (R413). -/
  stepOne : Bool
  ehold : Bool
  /-- Cycle of the last issue (R331, R333). -/
  issued : Nat
  /-- Outstanding accesses, oldest first (R177, R337). -/
  accs : List Access
  /-- Writes read from pending replies: line key and the dies still to acknowledge (R294). -/
  borrowed : List (Nat × List Nat)
  /-- Late outcomes of refused records (R177). -/
  late : List Late
  /-- Number of the task (entry 4). -/
  tid : Nat
  /-- Reply token; 0 for none (R132). -/
  token : Word
  /-- Its `reply` or `skim.end` has taken effect and is ending it (R132, R262). -/
  replied : Bool
  /-- Control block of the task's launch; 0 for none (R323). -/
  lnch : Nat
  inst : Option Nat
  dom : Option Domain
  /-- Number of its crew; 0 outside a crew (R325). -/
  crewNo : Nat
  /-- Control block; 0 for none (R335). -/
  block : Nat
  /-- Offset of the saved tile slots in its image (R336). -/
  tileBase : Nat
  /-- Tile slots written since the last image (R28). -/
  dirtyT : List Nat
  eng : Vector Eng 3
  posted : List Posted
  wait : Wait
  skim : Option Skim
  /-- Address and entries of a constant image that has not been read yet (R306). -/
  cimg : Option (Nat × Nat)
  /-- A trap that a refused page leaves for the boundary (R364): cause and address. -/
  owed : Option (Nat × Word)
  /-- Late outcomes of accesses with smaller numbers wait for `eret`, while the handler of an earlier one runs (R177). -/
  laterHeld : Nat
  /-- A barrier instruction that has still to be performed (R235). -/
  redo : Option BarReq
deriving DecidableEq, Repr

/-- A channel of a core (R24, R52). -/
structure Channel where
  en : Bool
  wslot : BitVec 4
  rslot : BitVec 4
  wrel : Bool
  rrel : Bool
  fifo : List Word
  /-- The writer's, the reader's task is out of its slot (R26). -/
  wAway : Bool
  rAway : Bool
deriving DecidableEq, Repr

/-- A core (R28). -/
structure Core where
  chan : Vector Channel 4
  /-- Cycle of the last issue of a core, plus one; a core issues once a cycle (R333). -/
  issued : Nat
  /-- Code lines in its private instruction buffer, by line key (R28). -/
  code : SMap CodeLine
deriving DecidableEq, Repr

/-- An entry of a decoded buffer (R329): address, word, literal, and the number of the outcome that it waits for. -/
structure Decoded where
  pc : Word
  word : W32
  lit : Option W32
  branch : Option Nat
deriving DecidableEq, Repr

/-- A crew in a cluster front end (R29, R329–R331). -/
structure Crew where
  live : BitVec 8
  att : BitVec 8
  wdet : BitVec 8
  lock : Bool
  /-- The decode point. -/
  dpc : Word
  /-- Number of the next outcome. -/
  nextBranch : Nat
  /-- Decode has stopped for this outcome of the leader (R330). -/
  await : Option Nat
  /-- Outcomes of the leader, by number. -/
  outs : SMap Word
  /-- Outcomes of members that issued first: member, number, outcome. -/
  early : List (Nat × Nat × Word)
  /-- Decoded buffers, by member. -/
  bufs : SMap (List Decoded)
  /-- Since when a member's buffer has been full (R331). -/
  fullAt : SMap Nat
  /-- Since when a member has held the others back, with LOCK = 1 (R331). -/
  heldAt : SMap Nat
  /-- Waits at `rejoin` targets: target, start, reported (R229). -/
  rejoins : List (Word × Nat × Bool)
deriving DecidableEq, Repr

/-- A page move under way (R303): descriptor number, address space, page, new frame. -/
structure Move where
  desc : Nat
  asid : Nat
  page : Nat
  dest : Nat
  /-- The frame that it moves from. -/
  src : Nat
  /-- The frame has been copied (step 3 of R303). -/
  copied : Bool
deriving DecidableEq, Repr

/-- What a fault-queue entry says beyond what the device knows by itself (R360). -/
structure FqEntry where
  kind : Nat
  page : Nat := 0
  asid : Nat := 0
  eng : Bool := false
  acc : Nat := 0
  cause : Nat := 0
  cb : Nat := 0
  live : Nat := 0
  pos : Nat := 0
  addr : Nat := 0
  key : Nat := 0
deriving DecidableEq, Repr

/-- A die: its registers and units. -/
structure Die where
  incarn : BitVec 16
  /-- `now` at the die's last reset (R45, ctl.cycle). -/
  epoch : Nat
  wdog : W32
  undeliv : W32
  stale : W32
  tvec : Word
  asctx : Word
  /-- `ctl.vdir`, `ctl.vstore` (R286, R287). -/
  vdir : Word
  vstore : Word
  /-- `ctl.memcfg` (R288). -/
  memcfg : Word
  /-- `ctl.vpurge` (R289). -/
  vpurge : Word
  migq : Word
  /-- HEAD and TAIL of `ctl.migtl` (R304). -/
  migHead : BitVec 16
  migTail : BitVec 16
  panovf : Word
  cbpool : Word
  preempt : Word
  pres : Word
  resume : Word
  tlbinv : Word
  fq : Word
  fqTail : BitVec 16
  fqHead : BitVec 16
  /-- Entries written since the reset (SEQ of R360). -/
  fqSeq : Nat
  /-- Watchdog reports that wait for space in the fault queue, oldest first (R360). -/
  reports : List FqEntry
  fres : Word
  /-- Records in the pan, resident and in the overflow table (R310–R313). -/
  pan : List Rec
  /-- Enqueue counter (R311). -/
  enq : Nat
  /-- Dies that a steal request of this die has still to ask (R326). -/
  steal : List Nat
  /-- It dispatches nothing: a quiesce has begun (R402). -/
  quiet : Bool
  dbgbp : Vector Word 4
  pmc : Vector Word 4
  /-- `ctl.dbgctl`, `ctl.dbgcopy` (R412, R415). -/
  dbgctl : Word
  dbgcopy : Word
  /-- CORR, TRANS and LAST of `ctl.ras` (R396). -/
  corr : BitVec 16
  trans : BitVec 16
  last : BitVec 16
  /-- Tensors purged since the loss of a die whose homes this die took: lost die, tensor (R399). -/
  purged : List (Nat × Nat)
  /-- Ways and lanes fenced off (R395), as unit and address. -/
  fenced : List (Nat × Nat)
  /-- Spare DRAM rows used of each stack of a memory die (R395, R396). -/
  rowsUsed : SMap Nat
  mig : Option Move
  /-- The die has restarted and not yet had its supervisor and rakes started (R32). -/
  fresh : Bool
deriving DecidableEq, Repr

/-- A task out of its slot: the slot as it was, whose engines go on with started commands (R245), and what its image in
memory (R336) gives no layout for. Registers and the other parts with a layout are restored from the image. -/
structure Saved where
  x : Slot
  /-- The slot that it left. -/
  pos : Nat
  /-- Withdrawn tile requests, by their old number (R203). -/
  tiles : List (Nat × TileReq)
  /-- The slot is held for it: it is a crew member (R332). -/
  held : Bool
  /-- Members pre-empted together, by control block (R340). -/
  mates : List Nat
  /-- It holds a bank of its core (R253). -/
  bank : Bool
  fault : Option Fault0
  /-- The tile request of a `twait.y` (R200). -/
  waits : Option Nat
  /-- What had been decided about commands that had not started, by engine and ticket (R17, R217). -/
  fates : List (Engine × W32 × Bool)
deriving DecidableEq, Repr

/-- A wait for a page: a parked task, an engine command, or a launch notice write (R357, R362). -/
inductive Waiting where
  | task (cb : Nat)
  | eng (tid : Nat) (e : Engine) (ticket : W32)
  | notice (cb : Nat)
deriving DecidableEq, Repr

/-- A fault message at a router: port of arrival, page, cause, address, incarnation, and the waits it stands for:
control blocks of parked tasks, engine waits and launch notices (R355). -/
structure FaultMsg where
  router : Nat
  port : Nat
  asid : Nat
  page : Nat
  cause : Nat
  addr : Nat
  die : Nat
  inc : BitVec 16
  /-- ACC and ENG of a page request that it creates (R360). -/
  acc : Nat
  eng : Bool
  /-- The wait that the message stands for, with its fault-queue entry and sequence number, at its first router. -/
  who : Option (Waiting × Nat × Nat)
deriving DecidableEq, Repr

/-- An entry of a router's merge table (R356). -/
structure Merge where
  router : Nat
  asid : Nat
  page : Nat
  ports : List Nat
  /-- The message that created it, for a retry (R398). -/
  first : FaultMsg
deriving DecidableEq, Repr

/-- A merged wait: the router that holds it, its page, and its fault-queue entry. -/
structure Merged where
  router : Nat
  asid : Nat
  page : Nat
  who : Waiting
  entry : Nat
  seq : Nat
deriving DecidableEq, Repr

/-- A wake on its way down: the router it goes to, page, REF (R357). -/
structure WakeMsg where
  router : Nat
  asid : Nat
  page : Nat
  ref : Bool
deriving DecidableEq, Repr

/-- What a die root gathers from its cluster routers before it re-queues tasks: page, REF, the routers still to answer,
and the waits gathered (R357). -/
structure Collect where
  die : Nat
  asid : Nat
  page : Nat
  ref : Bool
  pending : List Nat
  got : List Merged
deriving DecidableEq, Repr

/-- A link message (R377). -/
structure LinkMsg where
  typ : Nat
  dpkg : Nat
  spkg : Nat
  ddie : Nat
  sdie : Nat
  dinc : Nat
  asid : Nat
  sinc : Nat
  len : Nat
  tag : Nat
  q2 : Word
  q3 : Word
  body : List Byte
deriving DecidableEq, Repr

/-- The mode that a package holds of a page, or asks for (R297). -/
inductive PageMode where | none | read | write
deriving DecidableEq, Repr

/-- A page of another package's memory: the mode held, the mode asked for, and a hand-over under way: the dies and the tag of its
PGHAND, home die first, and whether the mode to give up is write (R297, R378). -/
structure Page where
  mode : PageMode
  asked : PageMode
  hand : Option (Nat × Nat × Nat × Bool)
deriving DecidableEq, Repr

/-- A request that a page directory serves: package, die, its incarnation, tag, write. -/
structure PageAsk where
  pkg : Nat
  die : Nat
  inc : Nat
  tag : Nat
  write : Bool
deriving DecidableEq, Repr

/-- A page directory entry of a page of this package's memory (R297): holders for read and the holder for write, each as
package · 16 + die, requests in order of arrival, and the packages whose PGACK is awaited for the first of them. -/
structure PageDir where
  readers : List Nat
  writer : Option Nat
  asks : List PageAsk
  acks : List Nat
deriving DecidableEq, Repr

/-- A line that has been asked of another package (R378): line of the address space, physical address, the die that
asked, the attributes of its translation, and the hint of the access. -/
structure LineAsk where
  key : Nat
  addr : Nat
  die : Nat
  attr : Attr
  hint : Hint
deriving DecidableEq, Repr

/-- A host watch (R388): its words, ST, armed, and notices that are due. -/
structure Watch where
  w0 : Word
  w1 : Word
  w2 : Word
  w3 : Word
  st : Byte
  armed : Bool
  due : Bool
  /-- Its check waits, for a walk or for another package (R389). -/
  checking : Bool
deriving DecidableEq, Repr

/-- A record window slot (R386): its words 0–31, DONE, CODE, and the record on its way (R387). -/
structure WinSlot where
  words : Vector Word 32
  done : Bool
  code : Byte
  post : Option Nat
deriving DecidableEq, Repr

/-- A read of an NVMe controller under way (R391): the task and ticket of the copy command, its entry, its piece, when it began. -/
structure Nvme where
  owner : Nat
  ticket : W32
  entry : Nat
  /-- Offset of its data in the namespace and in the data of the command, and its bytes. -/
  off : Nat
  rel : Nat
  len : Nat
  /-- When its command was submitted, and its landing pages; none while it waits for a place in its queue or for pages. -/
  since : Nat
  pages : List Nat
deriving DecidableEq, Repr

/-- What the package sends to the host. -/
inductive HostOut where
  /-- A posted write through a port: notices, doorbells (R389, R391). -/
  | write (port addr : Nat) (bytes : List Byte)
  /-- A store to host memory by the device (R275). -/
  | store (addr : Nat) (bytes : List Byte)
  /-- The data of a read through CXL.mem (R383). -/
  | data (addr : Nat) (bytes : List Byte)
  /-- An attestation response (R410). -/
  | attest (bytes : List Byte)
  /-- ERR_FATAL on a port (R402). -/
  | fatal (port : Nat)
deriving DecidableEq, Repr

/-- A digest received for a group and step (R406). -/
structure Digest where
  g : Nat
  step : Word
  pkg : Nat
  d : BitVec 256
deriving DecidableEq, Repr

/-- A `digest.end` that waits for the other members (R406): its slot's task, group, step, own digest, destination. -/
structure DigestWait where
  tid : Nat
  die : Nat
  asid : Nat
  g : Nat
  step : Word
  d : BitVec 256
  dst : SReg
deriving DecidableEq, Repr

/-- The Esane controllers (R401, R402, R408–R411): measurements, whether the firmware runs, the base die of the acting
controller, keys erased, quiesced, and the status that asks the host for a reset. -/
structure Controller where
  m : Vector (BitVec 256) 8
  booted : Bool
  acting : Option Nat
  /-- The standby watches from BD1. -/
  standby : Bool
  erased : Bool
  quiet : Bool
  /-- The uncorrectable fatal status of PCIe Advanced Error Reporting, by host port (R402). -/
  aer : BitVec 2
deriving DecidableEq, Repr

/-- The package. -/
structure State where
  /-- Thread slots by number: die · 2048 + cluster · 128 + core · 16 + slot (R47). -/
  slots : SMap Slot
  /-- Cores by number: slot number / 16. -/
  cores : SMap Core
  /-- Crews by their number · 2048 + global cluster · 16 + slot index (R29, R325). -/
  crews : SMap Crew
  dies : SMap Die
  /-- The accepted feature set (R6). -/
  feat : BitVec 256
  mem : Memory
  /-- Poisoned 64-byte lines of memory, by address / 64 (R397). -/
  memPoison : SMap Bool
  /-- On-chip lines by ASID · 2^50 + virtual address / 64 (R272). -/
  lines : SMap Line
  /-- What written lines held before, oldest first, which a fetch of their words may still return (R71). -/
  olds : List OldLine
  /-- The turn of a launch's start, by its control block, or by the address space for tasks without one (R71). -/
  codeAt : SMap Nat
  tlb : List TlbEntry
  walks : SMap Walk
  /-- Units that wait for walks, and the failures that they have still to take (R350). -/
  unitWalks : List UnitWalk
  /-- Prefetches that wait, by number (R190). -/
  prefs : SMap Pref
  /-- Miss mailboxes by core number: walk numbers, oldest first (R353). -/
  mail : SMap (List Nat)
  clusters : SMap Cluster
  /-- Dies in service, one bit each (R372). -/
  up : BitVec 16
  /-- Package number, and whether the host has written it (R372, R384). -/
  pkg : Nat
  pkgSet : Bool
  /-- ROUTE: the links toward each package of the link group (R376, R384). -/
  route : SMap (BitVec 16)
  /-- Links that are down (R381). -/
  linkDown : BitVec 16
  /-- Pages whose lock bit is set by a migration: ASID, page, pages covered (R303). -/
  locks : List (Nat × Nat × Nat)
  /-- Tile requests by number. -/
  tiles : SMap TileReq
  /-- Version directory entries by die, slice, set, tensor and tile (R277). -/
  names : SMap Name
  notices : SMap Notice
  recs : SMap RecMsg
  replies : SMap Reply
  /-- Launches by control block address. -/
  launches : SMap Launch
  /-- Tasks out of their slots, by control block address. -/
  saved : SMap Saved
  faultMsgs : SMap FaultMsg
  merges : List Merge
  merged : List Merged
  wakes : SMap WakeMsg
  collects : List Collect
  /-- Link messages handed to a link, with its number, newest last, and those that wait for a route (R376, R379, R381). -/
  sent : List (Nat × LinkMsg)
  held : List LinkMsg
  /-- Incarnations of the dies of other packages, by package · 16 + die (R373, R380); 1 where none is held. -/
  peers : SMap (BitVec 16)
  /-- Group numbers that are switches (R382). -/
  switches : SMap Bool
  /-- Generations of multi-device barriers, by object address (R382). -/
  shadows : SMap Nat
  /-- Pages of other packages, by physical page number; directory of this package's own pages (R297). -/
  pages : SMap Page
  pdir : SMap PageDir
  /-- Lines asked of other packages, by tag. -/
  lineAsks : SMap LineAsk
  /-- Bytes that units or the host write through the window and that wait for their pages or lines, by address; reads of the host
  that wait likewise (R297, R375, R383). -/
  farPuts : SMap Byte
  farGets : List (Nat × Nat)
  /-- Feature words staged, and whether the set is committed (R385). -/
  staged : Vector Word 3
  accepted : Bool
  nvmeTab : SMap (Vector Word 4)
  watches : SMap Watch
  window : SMap WinSlot
  nvme : SMap Nvme
  /-- NVMe commands placed in each submission queue, and completions taken, by entry. -/
  nvmeTail : SMap Nat
  nvmeDone : SMap Nat
  /-- The landing window BAR2: landing pages, submission and completion queues (R383, R390). -/
  bar2 : Memory
  hostOut : List HostOut
  /-- `ctl.repl0`–`ctl.repl3`, acc(g), digests received, and slots that wait at `digest.end` (R403–R406). -/
  repl : Vector Word 4
  accum : Vector (BitVec 256) 4
  digests : List Digest
  ends : List DigestWait
  /-- Address spaces of which no record is dispatched any more (R406). -/
  stopped : List Nat
  /-- POL and SRC of `ctl.secpol` (R411). -/
  pol : BitVec 2
  alarms : BitVec 8
  /-- Tickets taken from the global sequencer (R302). -/
  tickets : Nat
  ctrl : Controller
  /-- Number given to the next access, walk, request or message (entry 4). -/
  seq : Nat
  /-- Whose turn it is, and its number (entry 4). -/
  turn : Turn
  tick : Nat
  /-- Cycles since power-on (entry 4). -/
  now : Nat
  /-- The slot whose instruction the step issues (entry 4). -/
  cur : Nat
deriving DecidableEq, Repr

/-- No step stops with a fault: every outcome that the manual describes is a next state. -/
inductive Fault
deriving DecidableEq, Repr

/-- Why a step is refused. -/
inductive Refusal where
  /-- Raised by `exec` for an instruction that has no meaning yet: safe, since the run ends there. -/
  | notModelled (mnemonic : String)
deriving DecidableEq, Repr

/-- The outcome of a step. -/
abbrev Out := Host.Outcome State Fault Refusal

/-- An engine with no command (R9, R238). -/
def Eng.init : Eng := { p := 0, sq := 0, lcause := 0, sub := 0, lseq := 0, queue := [] }

/-- A slot that holds nothing: registers 0 and full, guards as R9 gives them (R9, R32; entry 2). -/
def Slot.init : Slot :=
  { use := .free, s := Vector.replicate 64 0, sFull := BitVec.allOnes 64, v := Vector.replicate 32 0,
    vFull := BitVec.allOnes 32, m := Vector.replicate 8 0, g := Vector.replicate 16 .unresolved,
    cb := Vector.replicate 256 0, pc := 0, rm := 0, flags := 0, ten := 0, key := 0, path := 0, hdr := 0, asid := 0,
    kdesc := 0, priv := 0, crew := false, det := false, epc := 0, cause := 0, tval := 0, estat := 0, escratch := 0,
    dirtyS := BitVec.allOnes 64, dirtyV := BitVec.allOnes 32, idx := 0, halted := false, stepOne := false,
    ehold := false, issued := 0, accs := [], borrowed := [], late := [], tid := 0, token := 0, replied := false, lnch := 0, inst := none,
    dom := none, crewNo := 0, block := 0,
    tileBase := 0, dirtyT := [], eng := Vector.replicate 3 Eng.init, posted := [], wait := .none, skim := none,
    cimg := none, owed := none, laterHeld := 0, redo := none }

/-- An unconfigured channel (R52). -/
def Channel.init : Channel := { en := false, wslot := 0, rslot := 0, wrel := false, rrel := false, fifo := [], wAway := false, rAway := false }
/-- A core after reset. -/
def Core.init : Core := { chan := Vector.replicate 4 Channel.init, issued := 0, code := [] }
/-- A crew with no member. -/
def Crew.init : Crew :=
  { live := 0, att := 0, wdet := 0, lock := false, dpc := 0, nextBranch := 0, await := none, outs := [], early := [],
    bufs := [], fullAt := [], heldAt := [], rejoins := [] }
/-- A cluster after reset (entry 3). -/
def Cluster.init : Cluster :=
  { sp := [], spEmpty := [], spPoison := [], retired := [], tld := [], locks := [], points := [],
    ptTeam := none, ringTeam := none, rings := [], banks := [], lease := { holder := none, started := 0, idle := none, prev := 7 },
    copyTurn := 0, gatherTurn := 0, code := [] }
/-- A die after the power-on reset, incarnation 1 (R31). -/
def Die.init : Die :=
  { incarn := 1, epoch := 0, wdog := 0x01000000, undeliv := 0, stale := 0, tvec := 0, asctx := 0, vdir := 0, vstore := 0, memcfg := 4,
    vpurge := 0, migq := 0, migHead := 0, migTail := 0, panovf := 0, cbpool := 0x1000, preempt := 0, pres := 0, resume := 0,
    tlbinv := 0, fq := 0, fqTail := 0, fqHead := 0, fqSeq := 0, reports := [], fres := 0, pan := [], enq := 0, steal := [], quiet := false,
    dbgbp := Vector.replicate 4 0, pmc := Vector.replicate 4 0, dbgctl := 0, dbgcopy := 0, corr := 0, trans := 0, last := 0,
    purged := [], fenced := [], rowsUsed := [], mig := none, fresh := true }

/-- A record window slot after reset (R386). -/
def WinSlot.init : WinSlot := { words := Vector.replicate 32 0, done := true, code := 0, post := none }
/-- A watch after reset (R388). -/
def Watch.init : Watch := { w0 := 0, w1 := 0, w2 := 0, w3 := 0, st := 0, armed := false, due := false, checking := false }

/-- The package after the power-on reset. -/
def State.reset : State :=
  { slots := [], cores := [], crews := [], dies := [], feat := 1, mem := [], memPoison := [],
    lines := [], olds := [], codeAt := [], tlb := [], walks := [], unitWalks := [], prefs := [], mail := [], clusters := [], up := BitVec.allOnes 16,
    pkg := 0, pkgSet := false, route := [], linkDown := 0,
    locks := [], tiles := [], names := [], notices := [], recs := [], replies := [], launches := [], saved := [],
    faultMsgs := [], merges := [], merged := [], wakes := [], collects := [],
    sent := [], held := [], peers := [], switches := [], shadows := [], pages := [], pdir := [], lineAsks := [], farPuts := [], farGets := [],
    staged := Vector.replicate 3 0, accepted := false, nvmeTab := [], watches := [], window := [], nvme := [], nvmeTail := [],
    nvmeDone := [], bar2 := [], hostOut := [],
    repl := Vector.replicate 4 0, accum := Vector.replicate 4 0, digests := [], ends := [], stopped := [], pol := 0, alarms := 0,
    tickets := 0,
    ctrl := { m := Vector.replicate 8 0, booted := false, acting := none, standby := false, erased := false, quiet := false, aer := 0 },
    seq := 0, turn := Config.agenda 0, tick := 0,
    now := 0, cur := 0 }

end Sys2Proof.Machine
end

