-- ==== Sys2Proof/Machine/Phys.lean ====
section
/-!
DEFINITION. Units and their parts, the physical address map (R374, R375), lines on chip and memory as the physical window shows
them (R272, R342), what a write leaves to later fetches and to watches (R71, R389), and the version directory as it stands in
memory (R276, R277, R286).
-/

namespace Sys2Proof.Machine

/-! ### Numbers of units -/

/-- Die of a slot. -/
def dieOf (p : Nat) : Nat := p / 2048
/-- Cluster of a slot, counted over the package. -/
def clusterOf (p : Nat) : Nat := p / 128
/-- Core of a slot, counted over the package. -/
def coreOf (p : Nat) : Nat := p / 16
/-- Index of a slot in its core. -/
def slotIdx (p : Nat) : Nat := p % 16
/-- Member index: the core's index in its cluster (R29). -/
def memberOf (p : Nat) : Nat := p / 16 % 8
/-- The slot of member `m` of a crew. -/
def crewSlot (ck m : Nat) : Nat := ck % 2048 / 16 * 128 + m * 16 + ck % 16
/-- The die of a crew. -/
def crewDie (ck : Nat) : Nat := ck % 2048 / 256

/-! ### Access to the parts of the state -/

/-- A slot. -/
def State.slot (s : State) (p : Nat) : Slot := s.slots.getD p Slot.init
/-- The crew of a slot: its number, and the cluster and slot index that its members share (R29, R325). -/
def State.crewKey (s : State) (p : Nat) : Nat := (s.slot p).crewNo * 2048 + (p / 128 * 16 + p % 16)
/-- The state with a slot replaced. -/
def State.setSlot (s : State) (p : Nat) (x : Slot) : State := { s with slots := s.slots.set p x }
/-- The state with a slot changed. -/
def State.modSlot (s : State) (p : Nat) (f : Slot → Slot) : State := s.setSlot p (f (s.slot p))
/-- The slot that issues. -/
def State.me (s : State) : Slot := s.slot s.cur
/-- The state with the issuing slot changed. -/
def State.modMe (s : State) (f : Slot → Slot) : State := s.modSlot s.cur f
/-- A core. -/
def State.core (s : State) (k : Nat) : Core := s.cores.getD k Core.init
/-- The state with a core changed. -/
def State.modCore (s : State) (k : Nat) (f : Core → Core) : State := { s with cores := s.cores.set k (f (s.core k)) }
/-- A crew. -/
def State.crew (s : State) (k : Nat) : Crew := s.crews.getD k Crew.init
/-- The state with a crew changed. -/
def State.modCrew (s : State) (k : Nat) (f : Crew → Crew) : State := { s with crews := s.crews.set k (f (s.crew k)) }
/-- A die. -/
def State.die (s : State) (d : Nat) : Die := s.dies.getD d Die.init
/-- The state with a die changed. -/
def State.modDie (s : State) (d : Nat) (f : Die → Die) : State := { s with dies := s.dies.set d (f (s.die d)) }

/-- A cluster. -/
def State.cluster (s : State) (k : Nat) : Cluster := s.clusters.getD k Cluster.init
/-- The state with a cluster changed. -/
def State.modCluster (s : State) (k : Nat) (f : Cluster → Cluster) : State :=
  { s with clusters := s.clusters.set k (f (s.cluster k)) }

/-- A package has a route: some link toward it that is up (R376, R381). -/
def State.routed (s : State) (q : Nat) : Bool := s.route.getD q 0 &&& ~~~s.linkDown != 0

/-- A feature bit of the accepted set (R6–R8). -/
def State.feature (s : State) (n : Nat) : Bool := s.feat.getLsbD n

/-! ### The physical address map -/

/-- What a physical address names (R374). -/
inductive PhysKind where
  /-- HBM4E, LPDDR-6 or CXL memory on the die with that number. -/
  | dram (die : Nat)
  /-- Memory of package `q`. -/
  | remote (q : Nat)
  | host (port : Nat)
  | none
deriving DecidableEq, Repr

/-- What a physical address names, whatever features are accepted (R374). -/
def physMap (a : Nat) : PhysKind :=
  if a < 2 ^ 39 then (if a % 2 ^ 36 < 64000000000 then .dram (10 + a / 2 ^ 37) else .none)
  else if a < 2 ^ 40 then .none
  else if a < 2 ^ 40 + 2 ^ 40 then (if a % 2 ^ 39 < 512000000000 then .dram (14 + a / 2 ^ 39 % 2) else .none)
  else if 2 ^ 43 ≤ a ∧ a < 2 ^ 44 then
    (if a % 2 ^ 41 < Config.cxlSize (a / 2 ^ 41 % 4) then .dram (14 + a / 2 ^ 42 % 2) else .none)
  else if 2 ^ 54 ≤ a ∧ a < 2 ^ 54 + 2 ^ 54 then .remote (a / 2 ^ 44 % 1024)
  else if 2 ^ 55 ≤ a ∧ a < 2 ^ 55 + 2 ^ 52 then .host 0
  else if 2 ^ 55 + 2 ^ 52 ≤ a ∧ a < 2 ^ 55 + 2 ^ 53 then .host 1
  else .none

/-- What a physical address names with the accepted features (R375): far memory, CXL memory and other packages only
where FARTIER, CXLEXP and DEVLINK are accepted, and no host memory behind a port that is lost with its base die (R399;
entry 48). -/
def State.phys (s : State) (a : Nat) : PhysKind :=
  match physMap a with
  | .dram d =>
    if 2 ^ 43 ≤ a then (if s.feature 5 then .dram d else .none)
    else if 2 ^ 40 ≤ a then (if s.feature 4 then .dram d else .none)
    else .dram d
  | .remote q => if s.feature 10 && q != s.pkg && s.routed q then .remote q else .none
  | .host n => if s.up.getLsbD (8 + n) then .host n else .none
  | .none => .none

/-- A physical address names memory (R342, R375). -/
def State.isMem (s : State) (a : Nat) : Bool := s.phys a != .none

/-- The die whose memory holds a frame is out of service: every access to the frame gives POISON (R399). -/
def State.lostMem (s : State) (f : Nat) : Bool := match physMap f with | .dram d => !s.up.getLsbD d | _ => false

/-- The line of a frame is poisoned in memory (R397, R399). -/
def State.poisonAt (s : State) (f : Nat) : Bool := s.memPoison.has (f / 64) || s.lostMem f

/-! ### Lines -/

/-- Key of the line of an address (R272). -/
def lineKey (asid va : Nat) : Nat := asid * 2 ^ 50 + va / 64
/-- The line that holds an address, if it is on chip. -/
def State.line (s : State) (asid va : Nat) : Option Line := s.lines.get? (lineKey asid va)
/-- The state with a line replaced. -/
def State.setLine (s : State) (asid va : Nat) (l : Line) : State := { s with lines := s.lines.set (lineKey asid va) l }
/-- The state with a line removed. -/
def State.delLine (s : State) (asid va : Nat) : State := { s with lines := s.lines.del (lineKey asid va) }

/-- Bytes of a list from an offset on. -/
def slice (l : List Byte) (off n : Nat) : List Byte := (l.drop off).take n
/-- A list of bytes with others written from an offset on. -/
def patch (l : List Byte) (off : Nat) (d : List Byte) : List Byte := l.take off ++ d ++ l.drop (off + d.length)

/-- Bytes written into a line with respect to every observer at once: its contents, and old copies still in flight. -/
def Line.patchAll (l : Line) (off : Nat) (d : List Byte) : Line :=
  { l with cur := patch l.cur off d, dirty := true, stale := l.stale.map fun e => (e.1, patch e.2 off d) }

/-! ### Word watches of the host (R389) -/

/-- An armed word watch whose word a write of `n` bytes at an address touches has a notice due. -/
def Watch.touch (w : Watch) (asid va n : Nat) : Watch :=
  if w.armed && !w.w1.getLsbD 61 && w.w1.toNat % 4096 == asid &&
      decide (w.w0.toNat < va + n ∧ va < w.w0.toNat + 8) then { w with due := true } else w

/-- A write of `n` bytes has been performed at an address of an address space. -/
def State.wrote (s : State) (asid va n : Nat) : State := { s with watches := s.watches.map fun e => (e.1, e.2.touch asid va n) }

/-- A write is about to replace bytes of the line at a frame with these contents: a later fetch may still find them, under whatever
address it finds the frame (R71). -/
def State.keepOld (s : State) (f : Nat) (b : List Byte) : State :=
  { s with olds := s.olds ++ [{ frame := f / 64 * 64, at_ := s.tick, bytes := b }] }

/-! ### Accesses made in one step under the physical window (R342) -/

/-- A byte of physical memory, from the line under ASID 0 if that is on chip. -/
def State.physByte (s : State) (a : Nat) : Byte :=
  match s.phys a with
  | .host _ => Config.hostByte s.tick a
  | .remote _ =>
    (s.farPuts.get? a).getD (match s.line 0 a with | some l => l.cur.getD (a % 64) 0 | none => Config.remoteByte s.tick a)
  | _ =>
    match s.line 0 a with
    | some l => l.cur.getD (a % 64) 0
    | none => s.mem.byte a
/-- Bytes of physical memory. -/
def State.physBytes (s : State) (a n : Nat) : List Byte := (List.range n).map fun k => s.physByte (a + k)
/-- A little-endian number in physical memory. -/
def State.physNum (s : State) (a n : Nat) : Nat := ofBytes (s.physBytes a n)
/-- The line of a physical address is poisoned (R397). -/
def State.physPoison (s : State) (a : Nat) : Bool :=
  match s.line 0 a with
  | some l => l.poison
  | none => s.poisonAt a

/-- A byte written through the physical window, performed with respect to every observer at once; to host memory it goes
through its port, to another package's once its line is here for write (R375), and no memory is nowhere. -/
def State.putPhysByte (s : State) (a : Nat) (b : Byte) : State :=
  match s.phys a with
  | .host _ => { s with hostOut := s.hostOut ++ [.store a [b]] }
  | .remote _ => { s with farPuts := s.farPuts.set a b }
  | .none => s
  | .dram _ =>
    match s.line 0 a with
    | some l => ((s.keepOld a l.cur).setLine 0 a (l.patchAll (a % 64) [b])).wrote 0 a 1
    | none => { s.keepOld a (s.mem.bytes (a / 64 * 64) 64) with mem := s.mem.put a b }.wrote 0 a 1
/-- Bytes written through the physical window. -/
def State.putPhys (s : State) (a : Nat) : List Byte → State
  | [] => s
  | b :: t => (s.putPhysByte a b).putPhys (a + 1) t
/-- A 64-bit word written through the physical window. -/
def State.putPhys64 (s : State) (a x : Nat) : State := s.putPhys a (toBytes 8 x)
/-- The poison marks of lines written whole through the window are cleared, unless the die of their memory is lost (R397, R399). -/
def State.unpoison (s : State) (a n : Nat) : State :=
  (List.range (n / 64)).foldl (fun (t : State) k =>
    let b := a + 64 * k
    if t.lostMem b then t
    else match t.line 0 b with
      | some l => t.setLine 0 b { l with poison := false }
      | none => { t with memPoison := t.memPoison.del (b / 64) }) s
/-- A posted write leaves through a host port, unless that is lost with its base die (R399). -/
def State.postHost (s : State) (port addr : Nat) (bytes : List Byte) : State :=
  if s.up.getLsbD (8 + port) then { s with hostOut := s.hostOut ++ [.write port addr bytes] } else s
/-- The 32-bit words of a range of the window become full, as `stfill` leaves them (R184, R360). -/
def State.fillPhys (s : State) (a n : Nat) : State :=
  (List.range (n / 4)).foldl (fun t k =>
    match t.line 0 (a + 4 * k) with
    | some l => t.setLine 0 (a + 4 * k) { l with empties := l.empties.filter (· != (a + 4 * k) % 64 / 4) }
    | none => t) s

/-! ### Version directories in memory (R276, R277) -/

/-- VERSION of a handle (R33). -/
def verOf (h : Word) : Nat := h.toNat % 2 ^ 24
/-- TILE of a handle. -/
def tileOf (h : Word) : Nat := h.toNat / 2 ^ 24 % 2 ^ 28
/-- TENSOR of a handle. -/
def tensorOf (h : Word) : Nat := h.toNat / 2 ^ 52
/-- Die that R276 names for a home, whether in service or not. -/
def Home.natural (m : Home) : Nat :=
  let l := (List.range 8).filter fun k => m.place.testBit k
  l.getD (m.x / 2 ^ 32 % 2 ^ 32 % l.length) 0

/-- The die of a home: the next one in service where that of R276 is lost (R399). -/
def State.homeDie (s : State) (m : Home) : Nat :=
  (((List.range 8).map fun k => (m.natural + k) % 8).find? fun d => s.up.getLsbD d).getD m.natural

/-- Slice of a name. -/
def Home.slice (m : Home) : Nat := m.x % 16
/-- Log2 of the sets of a die's version directory (R286). -/
def Die.sets (x : Die) : Nat := x.vdir.toNat % 32

/-- Key of the directory entry of a name at its home: die, slice, set, tensor, tile (R276, R277). -/
def State.nameOf (s : State) (m : Home) (h : Word) : Nat :=
  let d := s.homeDie m
  ((d * 16 + m.slice) * 2 ^ 20 + fld m.x 4 (s.die d).sets) * 2 ^ 40 + tensorOf h * 2 ^ 28 + tileOf h
/-- Key of the directory entry of a request's name. -/
def State.nameKey (s : State) (r : TileReq) : Nat := s.nameOf r.home r.h

/-- A slot word of a directory entry (R277). -/
def VSlot.word (v : VSlot) : Nat :=
  v.version * 2 ^ 40 + (if v.full then 2 else 1) * 2 ^ 38 + v.loc * 2 ^ 36 + v.count * 2 ^ 20 + v.frame

/-- The sixteen words of a directory entry (R277). -/
def Name.words (n : Name) : List Nat :=
  [n.tensor * 2 ^ 52 + n.tile * 2 ^ 24 + n.floor,
   (Config.waiterName ((n.waiters.head?.map (·.2)).getD 0)).toNat * 2 ^ 32 + n.waiters.length % 2 ^ 16 * 2 ^ 16 +
     n.slots.foldl (fun a e => a + 2 ^ e.1) 0] ++
  ((List.range 8).map fun j => match n.slots.get? j with | some v => v.word | none => 0) ++ List.replicate 6 0

/-- Address of a directory entry. -/
def State.dirAddr (s : State) (n : Name) : Nat := fld (s.die n.die).vdir.toNat 16 40 * 2 ^ 16 + 128 * (16 * n.set + n.way)

/-- A directory entry replaced, on chip and in memory (R277). -/
def State.setName (s : State) (key : Nat) (n : Name) : State :=
  { s with names := s.names.set key n }.putPhys (s.dirAddr n) (n.words.flatMap (toBytes 8))
/-- A directory entry removed. -/
def State.delName (s : State) (key : Nat) (n : Name) : State :=
  { s with names := s.names.del key }.putPhys (s.dirAddr n) (List.replicate 128 0)

end Sys2Proof.Machine
end

