-- ==== Sys2Proof/Machine/Ops.lean ====
section
/-!
DEFINITION. The named operations over slots, registers, channels, crews and dies: reading sources, waiting for
destinations, writing registers (R10–R14, R24, R25), retiring an instruction, and taking a trap (R366) with the return
from one beside it (R138).
-/

namespace Sys2Proof.Machine

/-! ### Messages to other packages (R373, R376–R381) -/

/-- Incarnation that this package holds of a die of another package (R373). -/
def State.peerInc (s : State) (pkg die : Nat) : BitVec 16 := s.peers.getD (pkg * 16 + die) 1

/-- The path of child `i` of path `p` (R214). -/
def childpath (p i : Word) : Word :=
  let x := p ^^^ (i * 0x9E3779B97F4A7C15)
  let x := x ^^^ (x >>> 31)
  let x := x * 0xD6E8FEB86659FD93
  let x := x ^^^ (x >>> 29)
  let x := x * 0xA24BAED4963EE407
  x ^^^ (x >>> 32)

/-- The link that a message takes: by its dies, among the links of the route mask that are up (R376). -/
def State.linkOf (s : State) (m : LinkMsg) : Nat :=
  let up := s.route.getD m.dpkg 0 &&& ~~~s.linkDown
  let l := (List.range 16).filter fun k => up.getLsbD k
  let h := (childpath (BitVec.ofNat 64 (16 * m.sdie + m.ddie)) (BitVec.ofNat 64 m.dpkg)).toNat / 2 ^ 32
  l.getD (h % l.length) 0

/-- Traffic over the device links has started (R385). -/
def State.linked (s : State) : Bool := s.feature 10 && s.pkgSet

/-- A message leaves, under the package's number, once traffic has started and if its package has a route; else it waits at its
source die (R376, R379, R381, R385). -/
def State.dispatchMsg (s : State) (m : LinkMsg) : State :=
  if s.linked && s.routed m.dpkg then { s with sent := s.sent ++ [(s.linkOf m, { m with spkg := s.pkg })] }
  else { s with held := s.held ++ [m] }

/-- A message to a die of another package is sent (R377). -/
def State.send (s : State) (typ pkg ddie sdie asid tag : Nat) (q2 q3 : Word) (body : List Byte) : State :=
  s.dispatchMsg
    { typ := typ, dpkg := pkg, spkg := s.pkg, ddie := ddie, sdie := sdie, dinc := (s.peerInc pkg ddie).toNat, asid := asid,
      sinc := (s.die sdie).incarn.toNat, len := body.length / 32, tag := tag, q2 := q2, q3 := q3, body := body }

/-! ### Counters (R416) -/

/-- A counter of die `d` advances by `n` for event `evt` (R416). -/
def countWord (evt n : Nat) (x : Word) : Word :=
  if x.toNat / 2 ^ 56 == evt then BitVec.ofNat 64 (evt * 2 ^ 56 + (x.toNat % 2 ^ 56 + n) % 2 ^ 56) else x
/-- The event counters of a die after `n` events (R416). -/
def State.count (s : State) (d evt n : Nat) : State :=
  s.modDie d fun x => { x with pmc := x.pmc.map (countWord evt n) }

/-! ### Crews (R227, R330) -/

/-- Lowest-numbered attached member (R29). -/
def leaderOf (att : BitVec 8) : Nat := ((List.range 8).find? fun m => att.getLsbD m).getD 0
/-- LEADER, which means nothing while no member is attached (R51, R230; entry 13). -/
def State.leaderField (s : State) (att : BitVec 8) : Nat := if att = 0 then Config.noLeader s.tick % 8 else leaderOf att
/-- A slot is an attached member of its crew. -/
def State.attached (s : State) (p : Nat) : Bool := (s.slot p).crew && (s.crew (s.crewKey p)).att.getLsbD (memberOf p)
/-- An 8-bit mask with bit `m` cleared. -/
def clear8 (x : BitVec 8) (m : Nat) : BitVec 8 := x &&& ~~~BitVec.twoPow 8 m
/-- An 8-bit mask with bit `m` set. -/
def set8 (x : BitVec 8) (m : Nat) : BitVec 8 := x ||| BitVec.twoPow 8 m

/-- A member leaves the attached set: its buffer and its early outcomes are discarded (R227). -/
def Crew.drop (c : Crew) (m : Nat) : Crew :=
  { c with att := clear8 c.att m, bufs := c.bufs.del m, early := c.early.filter fun e => e.1 != m }

/-- The leader's outcome for number `k` is `target`: decode that waited for it goes on there, and attached members
that issued first with another outcome detach (R330). -/
def Crew.lead (c : Crew) (k : Nat) (target : Word) : Crew :=
  let off := (c.early.filter fun e => e.2.1 == k && e.2.2 != target).map (·.1)
  let c := { c with outs := c.outs.set k target, early := c.early.filter fun e => e.2.1 != k }
  let c := if c.await == some k then { c with await := none, dpc := target } else c
  off.foldl Crew.drop c

/-- A new leader that has already issued the instruction that decode waits for gives its outcome at once (R330). -/
def Crew.settle (c : Crew) : Crew :=
  match c.await with
  | none => c
  | some k =>
    match c.early.find? fun e => e.1 == leaderOf c.att && e.2.1 == k with
    | some e => c.lead k e.2.2
    | none => c

/-- Members in a set. -/
def members (x : BitVec 8) : Nat := ((List.range 8).filter fun m => x.getLsbD m).length

/-- A crew changes, and the members that leave its attached set by it are counted (R416). -/
def State.moveCrewBy (s : State) (ck : Nat) (f : Crew → Crew) : State :=
  (s.modCrew ck f).count (crewDie ck) 0x0A (members (s.crew ck).att - members (f (s.crew ck)).att)

/-- `detach` as R227 states; a member that is not attached changes nothing. -/
def State.detach (s : State) (ck m : Nat) : State :=
  if (s.crew ck).att.getLsbD m then s.moveCrewBy ck fun c => (c.drop m).settle else s

/-- The decoded entry that an attached member issues next. -/
def Crew.head (c : Crew) (m : Nat) : Option Decoded := (c.bufs.getD m []).head?

/-- An attached member has issued its next entry with the outcome `target` (R330). -/
def Crew.issue (c : Crew) (m : Nat) (target : Word) : Crew :=
  match c.head m with
  | none => c
  | some e =>
    let c := { c with bufs := c.bufs.upd m [] List.tail }
    match e.branch with
    | none => c
    | some k =>
      match c.outs.get? k with
      | some o => if o == target then c else (c.drop m).settle
      | none => if leaderOf c.att == m then c.lead k target else { c with early := c.early ++ [(m, k, target)] }

/-! ### Sources, destinations and waiting -/

/-- A source operand with its wait bit. -/
inductive Ref where
  | s (r : SReg) (w : Bool)
  | v (r : VReg) (w : Bool)
deriving DecidableEq, Repr

/-- A destination; a deferred fill writes it later (R11). -/
inductive Dst where
  | s (d : SReg)
  | v (d : VReg)
  | fillS (d : SReg)
  | fillV (d : VReg)
deriving DecidableEq, Repr

/-- What an instruction reads and writes, and whether it carries a literal. -/
structure Form where
  srcs : List Ref
  dsts : List Dst
  lit : Bool
deriving DecidableEq, Repr

/-- The part that s60–s63 play in a slot (R24). -/
inductive Role where
  | plain
  | reader (n : Fin 4)
  | writer (n : Fin 4)
deriving DecidableEq, Repr

/-- Role of a scalar register in a slot: s60+n is channel n in its two ends, until that end is released (R24, R224). -/
def State.role (s : State) (p : Nat) (r : SReg) : Role :=
  if 60 ≤ r.val then
    let n : Fin 4 := ⟨r.val % 4, Nat.mod_lt _ (by decide)⟩
    let c := (s.core (coreOf p)).chan[n]
    if c.en && c.rslot.toNat == slotIdx p && !c.rrel then .reader n
    else if c.en && c.wslot.toNat == slotIdx p && !c.wrel then .writer n
    else .plain
  else .plain

/-- A channel of a core. -/
def State.chan (s : State) (k : Nat) (n : Fin 4) : Channel := (s.core k).chan[n]
/-- The state with a channel changed. -/
def State.modChan (s : State) (k : Nat) (n : Fin 4) (f : Channel → Channel) : State :=
  s.modCore k fun c => { c with chan := c.chan.set n.val (f c.chan[n]) n.isLt }

/-- A scalar register of a slot; s0 reads 0 (R14). -/
def Slot.reg (x : Slot) (r : SReg) : Word := if r.val = 0 then 0 else x.s[r]
/-- The full bit of a scalar register; s0 is always full (R14). -/
def Slot.full (x : Slot) (r : SReg) : Bool := r.val == 0 || x.sFull.getLsbD r.val
/-- A mask register; m0 reads 0xFFFF (R16). -/
def Slot.mask (x : Slot) (r : MReg) : Mask := if r.val = 0 then BitVec.allOnes 16 else x.m[r]
/-- A guard; g0 is TRUE (R17). -/
def Slot.guard (x : Slot) (r : GReg) : Guard := if r.val = 0 then .isTrue else x.g[r]

/-- Whether an instruction may go on, waits at issue, or takes a precise trap. -/
inductive Gate where
  | go
  | wait
  | trap (cause : Nat) (tval : Word)
deriving DecidableEq, Repr

/-- Both must go; the first that does not decides. -/
def Gate.and : Gate → Gate → Gate
  | .go, g => g
  | g, _ => g

/-- How often a list of sources names a scalar register. -/
def uses (rs : List Ref) (r : SReg) : Nat := (rs.filter fun x => match x with | .s q _ => q == r | .v _ _ => false).length
/-- Some source that names a scalar register has its wait bit set. -/
def usesWait (rs : List Ref) (r : SReg) : Bool := rs.any fun x => match x with | .s q w => q == r && w | .v _ _ => false

/-- Reading one source (R12), for channels with the counts of R24 and the traps of R25. -/
def State.srcGate (s : State) (p : Nat) (all : List Ref) : Ref → Gate
  | .s r w =>
    match s.role p r with
    | .plain =>
      if (s.slot p).full r then .go else if w then .trap 0x05 (BitVec.ofNat 64 r.val) else .wait
    | .writer n => .trap 0x0A (BitVec.ofNat 64 n.val)
    | .reader n =>
      let c := s.chan (coreOf p) n
      if c.wAway || c.rAway then .wait
      else if uses all r ≤ c.fifo.length then .go
      else if c.wrel && c.fifo.isEmpty then .trap 0x0A (BitVec.ofNat 64 n.val)
      else if usesWait all r then .trap 0x05 (BitVec.ofNat 64 r.val)
      else .wait
  | .v r w =>
    if (s.slot p).vFull.getLsbD r.val then .go
    else if w then .trap 0x05 (BitVec.ofNat 64 (64 + r.val)) else .wait

/-- Waiting for one destination (R13, R24, R25). -/
def State.dstGate (s : State) (p : Nat) : Dst → Gate
  | .s d =>
    match s.role p d with
    | .plain => if (s.slot p).full d then .go else .wait
    | .reader n => .trap 0x0A (BitVec.ofNat 64 n.val)
    | .writer n =>
      let c := s.chan (coreOf p) n
      if c.rrel then .trap 0x0A (BitVec.ofNat 64 n.val)
      else if c.wAway || c.rAway then .wait
      else if (s.slot p).full d && decide (c.fifo.length < 8) then .go else .wait
  | .fillS d =>
    match s.role p d with
    | .plain => if (s.slot p).full d then .go else .wait
    | .reader n => .trap 0x0A (BitVec.ofNat 64 n.val)
    | .writer n =>
      if (s.chan (coreOf p) n).rrel then .trap 0x0A (BitVec.ofNat 64 n.val)
      else if (s.slot p).full d then .go else .wait
  | .v d => if (s.slot p).vFull.getLsbD d.val then .go else .wait
  | .fillV d => if (s.slot p).vFull.getLsbD d.val then .go else .wait

/-- All sources, then all destinations (R68). -/
def State.gateOf (s : State) (p : Nat) (q : Form) : Gate :=
  (q.srcs.foldl (fun g r => g.and (s.srcGate p q.srcs r)) Gate.go).and
    (q.dsts.foldl (fun g d => g.and (s.dstGate p d)) Gate.go)

/-- The value of the `k`-th source, a scalar; in the reader of a channel, the entry that it pops (R24). -/
def State.sval (s : State) (q : Form) (k : Nat) : Word :=
  match q.srcs[k]? with
  | some (.s r _) =>
    match s.role s.cur r with
    | .reader n => (s.chan (coreOf s.cur) n).fifo.getD (uses (q.srcs.take k) r) 0
    | _ => s.me.reg r
  | _ => 0

/-- The value of the `k`-th source, a vector register. -/
def State.vval (s : State) (q : Form) (k : Nat) : Vec :=
  match q.srcs[k]? with
  | some (.v r _) => s.me.v[r]
  | _ => 0

/-- The entries that the sources of an instruction pop leave their channels (R24). -/
def State.pops (s : State) (q : Form) : State :=
  q.srcs.foldl (fun t r =>
    match r with
    | .s r _ =>
      match s.role s.cur r with
      | .reader n => t.modChan (coreOf s.cur) n fun c => { c with fifo := c.fifo.tail }
      | _ => t
    | .v _ _ => t) s

/-- A scalar register of a slot written and full, its dirty bit set; a write to s0 is discarded (R13, R14, R28). -/
def Slot.setReg (x : Slot) (d : SReg) (w : Word) : Slot :=
  if d.val = 0 then x
  else { x with s := x.s.set d.val w d.isLt, sFull := x.sFull ||| BitVec.twoPow 64 d.val, dirtyS := x.dirtyS ||| BitVec.twoPow 64 d.val }

/-- A vector register of a slot written and full, its dirty bit set (R13, R28). -/
def Slot.setVec (x : Slot) (d : VReg) (w : Vec) : Slot :=
  { x with v := x.v.set d.val w d.isLt, vFull := x.vFull ||| BitVec.twoPow 32 d.val, dirtyV := x.dirtyV ||| BitVec.twoPow 32 d.val }

/-- A mask register of a slot written; a write to m0 is discarded (R16). -/
def Slot.setMask (x : Slot) (d : MReg) (w : Mask) : Slot :=
  if d.val = 0 then x else { x with m := x.m.set d.val w d.isLt }

/-- A scalar result is written: a push in the writer of a channel (R24), else the register. -/
def State.writeS (s : State) (p : Nat) (d : SReg) (w : Word) : State :=
  match s.role p d with
  | .writer n => s.modChan (coreOf p) n fun c => { c with fifo := c.fifo ++ [w] }
  | _ => s.modSlot p fun x => x.setReg d w

/-- The issuing slot writes a scalar result. -/
def State.put (s : State) (d : SReg) (w : Word) : State := s.writeS s.cur d w
/-- The issuing slot writes a vector result. -/
def State.putV (s : State) (d : VReg) (w : Vec) : State := s.modMe fun x => x.setVec d w
/-- The issuing slot writes a mask. -/
def State.putM (s : State) (d : MReg) (w : Mask) : State := s.modMe fun x => x.setMask d w

/-- A register becomes empty: a fill is pending (R11). -/
def Slot.empty (x : Slot) (d : SReg) : Slot := if d.val = 0 then x else { x with sFull := x.sFull &&& ~~~BitVec.twoPow 64 d.val }
/-- A vector register becomes empty. -/
def Slot.emptyV (x : Slot) (d : VReg) : Slot := { x with vFull := x.vFull &&& ~~~BitVec.twoPow 32 d.val }

/-! ### Choices, numbers and positions -/

/-- One of the values that the rules allow, by the free value `Config.pick` (entry 4); a single value is taken as it is. -/
def State.choose {α : Type} (s : State) : List α → Option α
  | [] => none
  | [x] => some x
  | x :: y :: t => some ((x :: y :: t).getD (Config.pick s.tick % (t.length + 2)) x)

/-- A lease ends: the next search starts after its core (R258). -/
def Lease.stop (l : Lease) : Lease :=
  match l.holder with | some k => { holder := none, started := 0, idle := none, prev := k } | none => l

/-- The next number for an access, a request or a message. -/
def State.bump (s : State) : State := { s with seq := s.seq + 1 }

/-- `ctl.stat` of a slot (R47). -/
def State.stat (s : State) (p : Nat) : Word :=
  let x := s.slot p
  BitVec.ofNat 64 (x.det.toNat * 2 ^ 21 + (if x.crew then memberOf p else 0) * 2 ^ 18 + x.crew.toNat * 2 ^ 17 +
    (s.attached p).toNat * 2 ^ 16 + dieOf p * 2 ^ 13 + p / 128 % 16 * 2 ^ 9 + p / 16 % 8 * 2 ^ 6 + p % 16 * 4 +
    x.priv.toNat)

/-- The slot index of an engine. -/
def engNum : Engine → Fin 3
  | .m => 0 | .c => 1 | .g => 2

/-- An engine of a slot. -/
def Slot.engine (x : Slot) (e : Engine) : Eng := x.eng[engNum e]
/-- A slot with an engine changed. -/
def Slot.modEng (x : Slot) (e : Engine) (f : Eng → Eng) : Slot :=
  { x with eng := x.eng.set (engNum e).val (f (x.engine e)) (engNum e).isLt }

/-! ### Command words (R73, R246) -/

/-- Word `k` of a command. -/
def Cmd.w (c : Cmd) (k : Nat) : Nat := (c.words.getD k 0).toNat
/-- OPC (R73). -/
def Cmd.opc (c : Cmd) : Nat := c.w 0 % 256
/-- GUARD of a command (R73). -/
def Cmd.guard (c : Cmd) : Nat := fld (c.words.getD 0 0).toNat 8 4
/-- The 64-bit operand of words `k` and `k + 1` (R246). -/
def Cmd.loc (c : Cmd) (k : Nat) : Nat := c.w k + 2 ^ 32 * c.w (k + 1)
/-- SPACE of a locator. -/
def space (l : Nat) : Nat := l / 2 ^ 60
/-- ADDR of a locator. -/
def addrOf (l : Nat) : Nat := l % 2 ^ 56

/-- The destination of a copy-engine command: its locator and the bytes of its range; none where it has none. -/
def Cmd.dest (c : Cmd) : Option (Nat × Nat) :=
  match c.opc with
  | 0x20 => some (c.loc 3, c.w 5)
  | 0x21 => some (c.loc 3, fld (c.w 6) 16 16 * (c.w 7 - 1) + c.w 5)
  | 0x24 => some (c.loc 1, c.w 3)
  | _ => none

/-- A command that makes the scratchpad words of its destination empty as it starts, and full as it ends (R248, R259, R265): not a
version store, nor one that writes a top-k list. -/
def Cmd.empties (c : Cmd) : Bool := !(c.opc == 0x23 && bit (c.w 0) 13) && c.opc != 0x31 && c.opc != 0x32

/-- A counter that stops at its top (R46). -/
def satInc (x : W32) : W32 := if x = BitVec.allOnes 32 then x else x + 1

/-! ### Tasks in and out of slots -/

/-- A slot holds a running task, handler or firmware. -/
def Slot.live (x : Slot) : Bool := match x.use with | .free => false | .held => false | _ => true

/-- A task by the number of its slot, or by the address of its control block once it is out of its slot: block addresses
are multiples of 64 KiB, above every slot number (R335). -/
def State.holder (s : State) (p : Nat) : Slot :=
  if p < 16384 then s.slot p else ((s.saved.get? p).map (·.x)).getD Slot.init
/-- The state with a task changed, in or out of its slot. -/
def State.modHolder (s : State) (p : Nat) (f : Slot → Slot) : State :=
  if p < 16384 then s.modSlot p f
  else match s.saved.get? p with
    | some v => { s with saved := s.saved.set p { v with x := f v.x } }
    | none => s
/-- The slot that a task stands on or has left. -/
def State.seat (s : State) (p : Nat) : Nat := if p < 16384 then p else ((s.saved.get? p).map (·.pos)).getD 0
/-- The crew of a task, in its slot or out of it. -/
def State.crewKeyOf (s : State) (h : Nat) : Nat := (s.holder h).crewNo * 2048 + (s.seat h / 128 * 16 + s.seat h % 16)

/-- Where the task with a number is: its slot, or its control block. -/
def State.findTask (s : State) (tid : Nat) : Option Nat :=
  match s.slots.find? fun e => e.2.live && e.2.tid == tid with
  | some e => some e.1
  | none => (s.saved.find? fun e => e.2.x.tid == tid).map (·.1)

/-- s60+n is an ordinary register again: 0, full, its dirty bit set (R28, R223, R224). -/
def Slot.plainReg (x : Slot) (n : Fin 4) : Slot :=
  { x with s := x.s.set (60 + n.val) 0 (by omega), sFull := x.sFull ||| BitVec.twoPow 64 (60 + n.val),
           dirtyS := x.dirtyS ||| BitVec.twoPow 64 (60 + n.val) }

/-- A slot releases its end of a channel (R25, R224); both ends released, the channel is unconfigured (R52). -/
def State.releaseEnd (s : State) (p : Nat) (n : Fin 4) : State :=
  let c := s.chan (coreOf p) n
  let c' : Channel :=
    if c.wslot.toNat == slotIdx p && !c.wrel then { c with wrel := true, wAway := false }
    else { c with rrel := true, fifo := [], rAway := false }
  (s.modChan (coreOf p) n fun _ => if c'.wrel && c'.rrel then Channel.init else c').modSlot p fun x => x.plainReg n

/-- A slot holds an end of a channel. -/
def Channel.endAt (c : Channel) (i : Nat) : Bool :=
  c.en && ((c.wslot.toNat == i && !c.wrel) || (c.rslot.toNat == i && !c.rrel))

/-- A slot releases every channel end that it holds (R25). -/
def State.releaseEnds (s : State) (p : Nat) : State :=
  (List.range 4).foldl (fun t n =>
    if (t.chan (coreOf p) (Fin.ofNat 4 n)).endAt (slotIdx p) then t.releaseEnd p (Fin.ofNat 4 n) else t) s

/-- The directory entry of a name, after a request has left its lists, with a slot that it held RESERVED freed. -/
def Name.without (n : Name) (id version : Nat) (held : Bool) : Name :=
  { n with waiters := n.waiters.filter (·.2 != id), stores := n.stores.filter (· != id),
           slots := if held then n.slots.filter fun e => !(e.2.version == version && !e.2.full) else n.slots }

/-- The source tile slot that a version store holds locked (R198, R267). -/
def TileKind.locks : TileKind → Option Nat
  | .store t _ => some t
  | .engStore _ _ _ t _ _ _ => t
  | _ => none

/-- The source tile slot of a request is still locked. -/
def TileReq.holds (r : TileReq) : Bool := match r.st with | .sent => true | .queued => true | .copying => true | _ => false

/-- The mark of a `tld` leaves its tile slot (R186). -/
def Cluster.dropTld (c : Cluster) (t id : Nat) : Cluster := { c with tld := c.tld.filter (· != (t, id)) }

/-- A request leaves its home: its lists, a version that it held RESERVED, and its tile slot (R203); a home on another
package is told (R378). -/
def State.withdraw (s : State) (id : Nat) (r : TileReq) : State :=
  let held := r.kind.locks.isSome && r.st == .copying
  let s : State := { s with tiles := s.tiles.del id, unitWalks := s.unitWalks.filter fun u => u.who != .tile id }
  let s := match r.home.pkg, s.names.get? (s.nameKey r) with
    | none, some n => if r.st == .sent then s else s.setName (s.nameKey r) (n.without id (verOf r.h) held)
    | _, _ => s
  let s := match r.home.pkg, r.st with
    | some q, .queued => s.send 0x02 q r.home.natural (dieOf r.slot) r.asid 0 r.h (BitVec.ofNat 64 (id % 2 ^ 32)) []
    | _, _ => s
  match r.kind, r.kind.locks with
  | .load _ t, _ => s.modCluster (clusterOf r.slot) fun c => c.dropTld t id
  | _, some t => if r.holds then s.modCluster (clusterOf r.slot) fun c => { c with locks := c.locks.erase t } else s
  | _, none => s

/-- A `digest.add` of a task with a number below `n` has not reached its sum (R405). -/
def State.digesting (s : State) (tid n : Nat) : Bool :=
  s.tiles.any fun e => decide (e.1 < n) && e.2.tid == tid &&
    match e.2.kind, e.2.st with | .digest _, .bad _ _ => false | .digest _, _ => true | _, _ => false

/-- What a store or atomic of a slot that has ended its handler leaves: writes that are still to be performed. -/
def Slot.leftWrites (x : Slot) : List Access :=
  x.accs.filterMap fun a => match a.kind with | .load _ _ => none | _ => some { a with dst := .none }

/-- Nothing is left in a slot of what stood there. -/
def Slot.vacant (x : Slot) : Bool := x.use == .free && x.accs.isEmpty && x.eng.toList.all fun e => e.queue.isEmpty

/-- A unit that is a part of the holder `p`: its fetch, or a command of its engines. -/
def Who.of (p : Nat) : Who → Bool
  | .slot q => q == p
  | .eng q _ => q == p
  | .tile _ => false
  | .notice _ => false
  | .watch _ => false
  | .pref _ => false

/-- What waits for a walk on behalf of a holder that leaves waits no more; a command asks again under its new name. -/
def State.forgetUnits (s : State) (p : Nat) : State := { s with unitWalks := s.unitWalks.filter fun u => !u.who.of p }

/-- A skim handler leaves its slot: its requests are withdrawn, its channel ends released; writes and commands under way
are still performed (R217, R262, R263). -/
def State.freeSkim (s : State) (p : Nat) : State :=
  let x := s.slot p
  let s := (s.tiles.filter fun e => e.2.tid == x.tid && e.2.slot == p).foldl (fun t e => t.withdraw e.1 e.2) s
  (s.releaseEnds p).setSlot p
    { Slot.init with accs := x.leftWrites, issued := x.issued, asid := x.asid, tid := x.tid,
                     eng := x.eng.map fun e => { e with queue := e.queue.filter (·.started) } }

/-- A skim handler ends before its `skim.end` (R263): zeros and full words for its row are left to the drain, which
fails with SKIM_FAULT and the first cause; the handler's flags join the drain's. -/
def State.skimStop (s : State) (p cause : Nat) : State :=
  let x := s.slot p
  match x.skim with
  | none => s
  | some k =>
    let zeros := k.dest.map fun w => ({ sp := true, dst := 4 * w, n := 4, src := .bytes (List.replicate 4 0) } : Put)
    let cut (c : Cmd) : Cmd :=
      if c.started then { c with out := c.out ++ zeros, fail := c.fail.or (some (0xA4, cause)), flags := c.flags ||| x.flags } else c
    (s.modHolder k.owner fun y => y.modEng .m fun e => { e with queue := e.queue.map cut }).freeSkim p

/-! ### Traps -/

/-- `ctl.estat` at a trap: LIT, PCREW, PATT, PPRIV (R49, R366). -/
def State.estatOf (s : State) (p : Nat) (lit : Bool) : BitVec 5 :=
  BitVec.ofNat 5 (lit.toNat * 16 + (s.slot p).crew.toNat * 8 + (s.attached p).toNat * 4 + (s.slot p).priv.toNat)

/-- The trap frame and the entry of the handler (R366); a single step ends at the handler (R413). -/
def Slot.trapTo (x : Slot) (cause : Nat) (tval : Word) (estat : BitVec 5) (epc tvec : Word) : Slot :=
  { x with estat := estat, epc := epc, cause := BitVec.ofNat 8 cause, tval := tval, priv := 1, pc := tvec,
           halted := x.halted || x.stepOne, stepOne := false }

/-- `take_trap` of R366 in slot `p`: the frame, detachment, PRIV 1 and the handler's address; a skim handler ends
instead (R263). -/
def State.takeTrap (s : State) (p cause : Nat) (tval : Word) (lit : Bool) (epc : Word) : State :=
  if (s.slot p).use == .skim then s.skimStop p cause else
  let es := s.estatOf p lit
  let tv := (s.die (dieOf p)).tvec
  (s.detach (s.crewKey p) (memberOf p)).modSlot p fun x => x.trapTo cause tval es epc tv

/-- A precise trap of the issuing instruction: `ctl.epc` holds its address (R44). -/
def State.trap (s : State) (cause : Nat) (tval : Word) (lit : Bool) : Out :=
  .next (s.takeTrap s.cur cause tval lit s.me.pc)

/-- What `eret` restores from the trap frame besides PC: PRIV and the crew membership; the late outcomes that waited for it are
taken from now on (R49, R138, R177). -/
def Slot.eret (x : Slot) : Slot :=
  { x with priv := x.estat.extractLsb' 0 2, crew := x.estat.getLsbD 3, laterHeld := 0 }

/-! ### Retiring -/

/-- Length of an instruction in bytes (R53). -/
def Form.len (q : Form) : Word := if q.lit then 8 else 4

/-- An armed breakpoint matches the instruction address `a` (R414): whether one matches, and whether it halts. -/
def Die.breakAt (x : Die) (a : Word) : Option Bool :=
  let hits := x.dbgbp.toList.filter fun b => b.getLsbD 63 && b.extractLsb' 2 54 == a.extractLsb' 2 54
  if hits.isEmpty then none else some (hits.any fun b => b.getLsbD 62)

/-- The issuing slot has issued in this cycle (R333, R416). -/
def State.issuedNow (s : State) : State :=
  (s.modCore (coreOf s.cur) fun c => { c with issued := s.now + 1 }).count (dieOf s.cur) 0x01 1

/-- The instruction, with a literal or not, has completed and the slot goes on at `next`: its crew entry is used up with that
outcome, the issue is counted, a single step halts, and an armed address breaks (R49, R330, R333, R413, R414, R416). -/
def State.goToLit (s : State) (lit : Bool) (next : Word) : State :=
  let p := s.cur
  let x := s.me
  let a := s.attached p
  let s := if a then s.moveCrewBy (s.crewKey p) fun c => c.issue (memberOf p) next else s
  let s := s.modSlot p fun y =>
    { y with pc := next, issued := s.now, halted := y.halted || y.stepOne, stepOne := false }
  let s := s.issuedNow
  if x.priv != 0 then s
  else match (s.die (dieOf p)).breakAt x.pc with
    | none => s
    | some true => s.modSlot p fun y => { y with halted := true }
    | some false => s.takeTrap p 0x09 0 lit next

/-- An instruction without a literal has completed and the slot goes on at `next`. -/
def State.goTo (s : State) (next : Word) : State := s.goToLit false next

/-- The instruction completes and PC advances past it (R53). -/
def State.retire (s : State) (q : Form) : State := s.goToLit q.lit (s.me.pc + q.len)

/-- Flags raised are merged; an enabled one traps after the write, otherwise the instruction retires (R19). -/
def State.retireFp (s : State) (q : Form) (fl : BitVec 5) : State :=
  let t := s.modMe fun x => { x with flags := x.flags ||| fl }
  if fl &&& s.me.ten != 0 then t.issuedNow.takeTrap s.cur 0x20 (fl.zeroExtend 64) q.lit s.me.pc else t.retire q

/-- An instruction waits at issue: nothing changes (R12, R13). -/
def State.waits (s : State) : Out := .next s

/-- An instruction whose sources are read and whose destinations are free goes on with `k`; otherwise it waits or traps
(R12, R13, R24, R25, R68). -/
def State.gate (s : State) (q : Form) (k : Out) : Out :=
  match s.gateOf s.cur q with
  | .go => k
  | .wait => s.waits
  | .trap c t => s.trap c t q.lit

end Sys2Proof.Machine
end

