-- ==== Sys2Proof/Machine/Operands.lean ====
section
/-!
DEFINITION. Operand forms: the sources that an operand names, and the value of a literal, immediate or constant-bank
entry by the kind of the operand (R57, R60).
-/

namespace Sys2Proof.Machine

/-- How a literal stands for a 64-bit value (R57). -/
inductive Ext where | sext | zext
deriving DecidableEq, Repr

/-- A literal word extended to 64 bits (R57). -/
def Ext.word : Ext → W32 → Word
  | .sext, l => l.signExtend 64
  | .zext, l => l.zeroExtend 64

/-- A scalar source. -/
def sref (a : SSrc) : Ref := .s a.reg a.wait
/-- A scalar source s0–s31. -/
def lref (a : LSrc) : Ref := .s (a.reg.castLE (by decide)) a.wait
/-- s0–s31 as a scalar register. -/
def lreg (d : LReg) : SReg := d.castLE (by decide)
/-- A vector source. -/
def vref (a : VSrc) : Ref := .v a.reg a.wait
/-- The source that a scalar operand b names, if it is a register. -/
def brefS (b : SOpd) : List Ref := match b with | .reg r => [sref r] | .lit _ => []
/-- The source that an operand b of s0–s31 names. -/
def brefL (b : LOpd) : List Ref := match b with | .reg r => [lref r] | .lit _ => []
/-- The source that a vector operand b names. -/
def brefV (b : VOpd) : List Ref := match b with | .reg r => [vref r] | .lit _ => []
/-- The operand is a literal. -/
def isLit {n : Nat} (b : Opd n) : Bool := match b with | .reg _ => false | .lit _ => true

/-- Value of an operand b that is the `k`-th source of the form, or its literal (R57). -/
def State.bval {n : Nat} (s : State) (q : Form) (k : Nat) (e : Ext) (b : Opd n) : Word :=
  match b with
  | .reg _ => s.sval q k
  | .lit l => e.word l

/-- Value of a vector operand b: the `k`-th source, or the literal in every lane (R57). -/
def State.bvec (s : State) (q : Form) (k : Nat) (b : VOpd) : Vec :=
  match b with
  | .reg _ => s.vval q k
  | .lit l => ofLanes fun _ => l

/-- Value of a mask operand b (R172). -/
def State.bmask (s : State) (b : MOpd) : Mask :=
  match b with
  | .reg r => s.me.mask r
  | .lit l => l.extractLsb' 0 16

/-- Sources a and b, destination d. -/
def formR (d : List Dst) (a : SSrc) (b : SOpd) : Form := { srcs := sref a :: brefS b, dsts := d, lit := isLit b }
/-- Source a and destination d. -/
def formA (d : List Dst) (a : SSrc) : Form := { srcs := [sref a], dsts := d, lit := false }
/-- Source b alone. -/
def formB (d : List Dst) (b : SOpd) : Form := { srcs := brefS b, dsts := d, lit := isLit b }
/-- No source. -/
def form0 (d : List Dst) : Form := { srcs := [], dsts := d, lit := false }

/-- The constant-bank entry `c` (R60). -/
def State.cbEntry (s : State) (c : Fin 256) : W32 := s.me.cb[c]

/-- The instruction word, zero-extended, as `ctl.tval` holds it (R44). -/
def wordOf (i : Instr) : Word := BitVec.ofNat 64 (((encode i).map (·.1)).getD 0)

/-- An instruction of a feature that is not accepted traps with FEATURE_ABSENT (R8; step 4 of R68). -/
def State.needFeature (s : State) (n : Nat) (i : Instr) (k : Out) : Out :=
  if s.feature n then k else s.trap 0x04 (wordOf i) false

/-- A privileged instruction at PRIV 0 traps with PRIVILEGED (step 7 of R68). -/
def State.needPriv (s : State) (i : Instr) (k : Out) : Out :=
  if s.me.priv = 0 then s.trap 0x03 (wordOf i) false else k

/-- A 20-bit float immediate as FP32 bits (R59). -/
def imm20 (i : BitVec 20) : W32 := BitVec.ofNat 32 (i.toNat * 2 ^ 12)

end Sys2Proof.Machine
end

