-- ==== Sys2Proof/Machine/Mem.lean ====
section
/-!
DEFINITION. Memory: pages that packages share (R297), page tables and walks (R344–R348, R350, R353, R354), memory-side TLBs
(R349), and the accesses that units make by themselves (R275, R290, R350, R375).
-/

namespace Sys2Proof.Machine

/-- The attributes of the physical window (R342). -/
def Attr.window : Attr := { r := true, w := true, x := true, u := true, sc := false, d := false, ret := 0 }

/-- The rights that an access needs (R348). -/
structure Need where
  r : Bool := false
  w : Bool := false
  x : Bool := false
  u : Bool := false
deriving DecidableEq, Repr

/-- The attributes allow the access (R348). -/
def Attr.allows (a : Attr) (n : Need) : Bool := (a.r || !n.r) && (a.w || !n.w) && (a.x || !n.x) && (a.u || !n.u)

/-- The line that a translation fills from memory (R293). -/
def State.fillLine (s : State) (frame : Nat) (attr : Attr) : Line :=
  { frame := frame, attr := attr, cur := s.mem.bytes frame 64, poison := s.poisonAt frame, dirty := false,
    present := [], owner := none, stale := [], l1 := [], excl := none, upd := none, empties := [], ret := attr.ret,
    born := s.tick, pass := false }

/-! ### Room in the caches (R271, R273) -/

/-- The base die that R273 names as the L3 home of a line. -/
def l3Natural (va : Nat) : Nat := 8 + (va / 2 ^ 12 + va / 2 ^ 20 + va / 2 ^ 28) % 2
/-- The L3 home of a line: the surviving base die where that of R273 is lost (R273, R400). -/
def State.l3Home (s : State) (va : Nat) : Nat := if s.up.getLsbD (l3Natural va) then l3Natural va else 17 - l3Natural va

/-- The home slice of a line within a compute die (R273). -/
def homeSlice (asid va : Nat) : Nat :=
  (va / 2 ^ 6 ^^^ va / 2 ^ 10 ^^^ va / 2 ^ 14 ^^^ va / 2 ^ 18 ^^^ asid) % 16

/-- Home slice of the line with a key. -/
def sliceOf (key : Nat) : Nat := homeSlice (key / 2 ^ 50) (key % 2 ^ 50 * 64)

/-- A die's L2 holds a line. -/
def Line.inL2 (l : Line) (cd : Nat) : Bool := l.present.contains cd || l.owner == some cd

/-- Lines of a unit of a die that fenced ways no longer hold (R395). -/
def Die.cut (x : Die) (unit : Nat) (f : Nat → Bool) : Nat := (x.fenced.filter fun e => e.1 == unit && f e.2).length

/-- Lines that a slice of an L2 holds: 4 MiB less the tile pool's share, which `ctl.memcfg` gives in eighths, and less a line for
each way that is fenced off (R271, R288, R395). -/
def Die.sliceLines (x : Die) (slice : Nat) : Nat := 65536 - 8192 * fld x.memcfg.toNat 0 3 - x.cut 3 fun a => sliceOf a == slice

/-- Lines that an L3 holds: 512 MiB (R271). -/
def l3Lines : Nat := 8388608

/-- The home slice of a line on a die has room for it (R271). -/
def State.l2Room (s : State) (cd key : Nat) : Bool :=
  decide ((s.lines.filter fun e => e.1 != key && sliceOf e.1 == sliceOf key && e.2.inL2 cd).length < (s.die cd).sliceLines (sliceOf key))

/-- The L3 home of a line has room for it (R271). -/
def State.l3Room (s : State) (va : Nat) : Bool :=
  decide ((s.lines.filter fun e => s.l3Home (e.1 % 2 ^ 50 * 64) == s.l3Home va).length <
    l3Lines - (s.die (s.l3Home va)).cut 4 fun _ => true)

/-! ### Pages that packages share (R297) -/

/-- The base die of its package that holds the directory of a page (entry 16). -/
def pageDie (page : Nat) : Nat := 8 + Config.pageDie (page % 2 ^ 28) % 2

/-- A mode allows a read, or a write where `wr`. -/
def PageMode.covers (m : PageMode) (wr : Bool) : Bool := match m with | .write => true | .read => !wr | .none => false

/-- The page of another package's memory that holds a frame. -/
def State.farPage (s : State) (f : Nat) : Page := s.pages.getD (f / 2 ^ 16) { mode := .none, asked := .none, hand := none }

/-- The mode that this package holds of a page of its own memory: write, unless its directory says otherwise. -/
def State.ownMode (s : State) (f : Nat) : PageMode :=
  match s.pdir.get? (f / 2 ^ 16) with
  | none => .write
  | some d => if d.writer.any (· / 16 == s.pkg) then .write else if d.readers.any (· / 16 == s.pkg) then .read else .none

/-- The package holds the page of a frame in a mode that allows the access. -/
def State.hasMode (s : State) (f : Nat) (wr : Bool) : Bool :=
  match s.phys f with
  | .remote _ => (s.farPage f).mode.covers wr
  | .dram _ => (s.ownMode f).covers wr
  | _ => true

/-- The page of a frame is being handed over: no new access of it starts (step 2 of R297). -/
def State.handing (s : State) (f : Nat) : Bool :=
  match s.phys f with
  | .remote _ => (s.farPage f).hand.isSome
  | .dram _ => ((s.pdir.get? (f / 2 ^ 16)).map fun d => d.acks.contains s.pkg).getD false
  | _ => false

/-- A page of the package's own memory is under migration (R297, R303). -/
def State.migrating (s : State) (page : Nat) : Bool := s.dies.any fun e => e.2.mig.any fun m => m.src / 2 ^ 16 == page

/-- The number of a message that asks something: its TAG. -/
def State.tag (s : State) : Nat := s.seq % 2 ^ 32

/-- The modified contents of a line written back to its frame, with its poison mark (R295, R397); a frame of another
package takes them by LINEWB (R378). -/
def State.writeBack (s : State) (l : Line) : State :=
  match s.phys l.frame with
  | .remote q =>
    if l.dirty then (s.send 0x16 q (pageDie (l.frame / 2 ^ 16)) 8 0 s.tag (BitVec.ofNat 64 (l.frame % 2 ^ 44)) 0 l.cur).bump else s
  | _ =>
  if l.dirty || l.poison then
    { s with mem := s.mem.putBytes l.frame l.cur,
             memPoison := if l.poison then s.memPoison.set (l.frame / 64) true else s.memPoison.del (l.frame / 64) }
  else s

/-- Lines of a page, by its physical page number. -/
def State.linesOf (s : State) (page : Nat) : SMap Line := s.lines.filter fun e => e.2.frame / 2 ^ 16 == page

/-- The lines of a page may be given up: no write or invalidation under way, no empty word (step 4 of R297). -/
def State.pageQuiet (s : State) (page : Nat) : Bool :=
  (s.linesOf page).all fun e => e.2.upd == none && e.2.stale.isEmpty && e.2.empties.isEmpty

/-- Modified lines of a page written back and every copy invalidated (step 3 of R297); another package may write them now, and a
later fetch still find what they held (R71). -/
def State.dropPage (s : State) (page : Nat) : State :=
  (s.linesOf page).foldl (fun (t : State) e =>
    let u := (t.writeBack e.2).keepOld e.2.frame e.2.cur
    { u with lines := u.lines.del e.1 }) s

/-- A page of another package is given up once its lines allow it (steps 3 to 5 of R297), and once a grant of the mode
that is to be given up has arrived, since nothing orders it with the hand-over message (R379). -/
def State.giveUp (s : State) (page : Nat) : State :=
  match s.pages.get? page with
  | none => s
  | some x =>
    match x.hand with
    | none => s
    | some (home, die, tag, wr) =>
      if !s.pageQuiet page || !x.mode.covers wr then s
      else
        let q := page * 2 ^ 16 / 2 ^ 44 % 1024
        let t := s.dropPage page
        let y : Page := { mode := .none, asked := if x.asked == x.mode then .none else x.asked, hand := none }
        { t with pages := t.pages.set page y }.send 0x12 q home die 0 tag
          (BitVec.ofNat 64 (page * 2 ^ 16 % 2 ^ 44)) 0 []

/-- Holders whose mode conflicts with a request (R297). -/
def PageDir.conflicts (d : PageDir) (a : PageAsk) : List Nat :=
  ((if a.write then d.readers else []) ++ d.writer.toList).filter fun h => h / 16 != a.pkg

/-- The directory entry once its first request is granted. -/
def PageDir.granted (d : PageDir) (a : PageAsk) : PageDir :=
  let h := a.pkg * 16 + a.die
  let rest := d.readers.filter fun x => x / 16 != a.pkg
  { d with asks := d.asks.tail, acks := [],
           readers := if a.write then [] else if d.writer.any (· / 16 == a.pkg) then rest else rest ++ [h],
           writer := if a.write then some h else d.writer }

/-- A package that has given up a page leaves its directory entry. -/
def PageDir.leaves (d : PageDir) (q : Nat) : PageDir :=
  { d with acks := d.acks.filter (· != q), readers := d.readers.filter (· / 16 != q), writer := d.writer.filter (· / 16 != q) }

/-- This package gives up a page of its own memory that another one has asked for, once its lines allow it. -/
def State.giveOwn (s : State) (page : Nat) : State :=
  match s.pdir.get? page with
  | none => s
  | some d =>
    if d.acks.contains s.pkg && s.pageQuiet page then
      let t := s.dropPage page
      { t with pdir := t.pdir.set page (d.leaves s.pkg) }
    else s

/-- The directory serves the requests of a page in order: hand-over messages to every package whose mode conflicts, and
the grant once each has acknowledged (R297); a page under migration waits (R303). -/
def State.serveDir (s : State) (page : Nat) : Nat → State
  | 0 => s
  | n + 1 =>
    match s.pdir.get? page with
    | none => s
    | some d =>
      match d.asks.head? with
      | none => s
      | some a =>
        if s.migrating page then s
        else if d.acks != [] then s
        else
          match d.conflicts a with
          | [] =>
            let t := { s with pdir := s.pdir.set page (d.granted a) }
            let q2 := BitVec.ofNat 64 (page * 2 ^ 16)
            let t := if a.pkg == s.pkg then t else
              t.dispatchMsg
                { typ := 0x13, dpkg := a.pkg, spkg := s.pkg, ddie := a.die, sdie := pageDie page, dinc := a.inc, asid := 0,
                  sinc := (s.die (pageDie page)).incarn.toNat, len := 0, tag := a.tag, q2 := q2, q3 := BitVec.ofNat 64 a.write.toNat,
                  body := [] }
            t.serveDir page n
          | hs =>
            let t := { s with pdir := s.pdir.set page { d with acks := (hs.map (· / 16)).eraseDups } }.bump
            let ask (u : State) (h : Nat) : State :=
              if h / 16 == s.pkg then u
              else u.send 0x11 (h / 16) (h % 16) (pageDie page) 0 s.tag (BitVec.ofNat 64 (page * 2 ^ 16))
                (BitVec.ofNat 64 (d.writer == some h).toNat) []
            let t := hs.foldl ask t
            (t.giveOwn page).serveDir page n

/-- Requests that the directory can serve in a row. -/
def State.serveAll (s : State) (page : Nat) : State :=
  s.serveDir page (2 * ((s.pdir.get? page).map (·.asks.length)).getD 0 + 1)

/-- A request enters the directory of a page of this package; without an entry, the package itself holds the page for
write. -/
def State.askOwn (s : State) (page : Nat) (a : PageAsk) : State :=
  let d : PageDir := (s.pdir.get? page).getD { readers := [], writer := some (s.pkg * 16 + 8), asks := [], acks := [] }
  { s with pdir := s.pdir.set page { d with asks := d.asks ++ [a] } }.serveAll page

/-- The package asks for the mode that an access to a frame needs, unless it has done so (R297). -/
def State.askPage (s : State) (f va : Nat) (wr : Bool) : State :=
  let page := f / 2 ^ 16
  match s.phys f with
  | .remote q =>
    let x := s.farPage f
    if x.asked.covers wr then s
    else
      ({ s with pages := s.pages.set page { x with asked := if wr then .write else .read } }.send 0x10 q (pageDie page) (s.l3Home va) 0 s.tag
        (BitVec.ofNat 64 (page * 2 ^ 16 % 2 ^ 44)) (BitVec.ofNat 64 wr.toNat) []).bump
  | .dram _ =>
    if ((s.pdir.get? page).map fun d => d.asks.any fun a => a.pkg == s.pkg && (a.write || !wr)).getD false then s
    else s.askOwn page { pkg := s.pkg, die := s.l3Home va, inc := 0, tag := 0, write := wr }
  | _ => s

/-- A line of another package's memory is asked for, unless it has been (R378); it keeps the retention of the hint that asked for
it (R181, R190). -/
def State.askLine (s : State) (cd asid va f : Nat) (attr : Attr) (h : Hint := .dflt) : State :=
  match s.phys f with
  | .remote q =>
    let key := lineKey asid va
    let a := f / 64 * 64
    if s.lineAsks.any fun e => e.2.key == key then s
    else
      ({ s with lineAsks := s.lineAsks.set s.tag { key := key, addr := a, die := cd, attr := attr, hint := h } }.send 0x14 q (pageDie (f / 2 ^ 16))
        (s.l3Home va) 0 s.tag (BitVec.ofNat 64 (a % 2 ^ 44)) 0 []).bump
  | _ => s

/-- What an access to a frame whose line is not on chip still needs from another package, once asked for; `none` where it
needs nothing more. -/
def State.farNeeds (s : State) (cd asid va f : Nat) (attr : Attr) (wr : Bool) (h : Hint := .dflt) : Option State :=
  if s.handing f then some s
  else if !s.hasMode f wr then some (s.askPage f va wr)
  else match s.phys f with
    | .remote _ => some (s.askLine cd asid va f attr h)
    | _ => none

/-- The page of an address is locked by a migration (R303). -/
def State.locked (s : State) (asid va : Nat) : Bool :=
  s.locks.any fun k => k.1 == asid && decide (k.2.1 ≤ va / 2 ^ 16 ∧ va / 2 ^ 16 < k.2.1 + k.2.2)

/-! ### Page tables and walks -/

/-- The attributes of a leaf (R345). -/
def pteAttr (e : Nat) : Attr :=
  { r := bit e 1, w := bit e 2, x := bit e 3, u := bit e 4, sc := bit e 7, d := bit e 8,
    ret := BitVec.ofNat 2 (e / 2 ^ 9) }

/-- A malformed entry at level 0 (root), 1 or 2 (R346). -/
def pteMalformed (level e : Nat) : Bool :=
  fld e 11 5 != 0 || (bit e 5 && level != 1) ||
  (if level == 2 then false
   else if bit e 5 then fld e 16 13 != 0 || bit e 6
   else fld e 1 4 != 0 || fld e 6 5 != 0)

/-- An entry of the context array (R37, R38). -/
inductive Ctx where
  | ok (root tdt kdt cls : Nat)
  | invalid
  | poisoned
  /-- It lies in another package's memory, at an address whose line is not here (R375). -/
  | far (a : Nat)
deriving DecidableEq, Repr

/-- An address lies in another package's memory, and its line under the window is not here (R375). -/
def State.isFar (s : State) (a : Nat) : Bool :=
  (match s.phys a with | .remote _ => true | _ => false) && (s.line 0 a).isNone

/-- The context entry of an ASID, read through the context array of a die (R37, R38, R344). -/
def State.ctx (s : State) (cd asid : Nat) : Ctx :=
  let base := (s.die cd).asctx.toNat
  let a := base + 64 * asid
  if base == 0 || !s.isMem a then .invalid
  else if s.isFar a then .far a
  else if s.physPoison a then .poisoned
  else
    let root := s.physNum a 8
    if bit root 63 && fld root 56 7 == 0 && fld root 0 17 == 0 && (s.physBytes (a + 32) 32).all (· == 0) then
      .ok (fld root 17 39 * 2 ^ 17) (s.physNum (a + 8) 8) (s.physNum (a + 16) 8) (s.physNum (a + 24) 8)
    else .invalid

/-- The first word, among the context entry and what a check reads of the tables that it names (tensor, kernel and class table),
that lies in another package's memory and is not here yet (R375). -/
def State.farTable (s : State) (cd asid : Nat) (f : Nat → Nat → Nat → List Nat) : Option Nat :=
  match s.ctx cd asid with
  | .far a => some a
  | .ok _ tdt kdt cls => (f tdt kdt cls).find? s.isFar
  | _ => none

/-- A line of another package's memory is asked for by a unit that reads it through the window (R375). -/
def State.askFar (s : State) (cd a : Nat) : State := (s.farNeeds cd 0 a a .window false).getD s

/-- A check goes on once the tables that it reads are here; until then it asks for them and waits (R375). -/
def State.needTables (s : State) (cd asid : Nat) (f : Nat → Nat → Nat → List Nat) (k : Out) : Out :=
  match s.farTable cd asid f with
  | some a => .next (s.askFar cd a)
  | none => k

/-- What an ordinary load of a die finds in a word of the window: the old copy whose invalidation is in flight there, if the die
holds one (R293, R354). -/
def State.physSeen (s : State) (cd a : Nat) : Nat :=
  match (s.line 0 a).bind fun l => l.stale.get? cd with
  | some b => ofBytes (slice b (a % 64) 8)
  | none => s.physNum a 8

/-- One table word of a walk on a die: its value, or how the walk ends (R354). -/
def State.walkLoad (s : State) (cd a : Nat) : Except WalkAnswer Nat :=
  if !s.isMem a then .error .malformed
  else if s.isFar a then .error (.far a)
  else if s.physPoison a then .error .poisoned
  else .ok (s.physSeen cd a)

/-- An entry of a walk that is present and well formed. -/
def pteCheck (level e : Nat) : Except WalkAnswer Nat :=
  if !bit e 0 then .error .notPresent else if pteMalformed level e then .error .malformed else .ok e

/-- The 32 level-2 entries of a run from an address on (R347). -/
def State.runLeaves (s : State) (cd a : Nat) : List (Except WalkAnswer Nat) := (List.range 32).map fun k => s.walkLoad cd (a + 8 * k)
/-- The run meets the conditions of R347: consecutive frames from an aligned one on, and identical bits [15:0]. -/
def runProper (l : List (Except WalkAnswer Nat)) : Bool :=
  l.zipIdx.all fun (r, k) =>
    match r, l.head? with
    | .ok e, some (.ok e0) => fld e 0 16 == fld e0 0 16 && fld e0 16 5 == 0 && fld e 16 40 == fld e0 16 40 + k
    | _, _ => false
/-- A leaf by which a page of a run that breaks the conditions may be translated (R347). -/
def runLeaf (r : Except WalkAnswer Nat) : Option Nat :=
  match r with | .ok e => if bit e 0 && bit e 6 && !pteMalformed 2 e then some e else none | .error _ => none

/-- The walk of R354. -/
def State.walk (s : State) (cd asid page : Nat) : WalkAnswer :=
  match s.ctx cd asid with
  | .invalid => .invalidContext
  | .poisoned => .poisoned
  | .far a => .far a
  | .ok root _ _ _ =>
    let r : Except WalkAnswer WalkAnswer := do
      let e0 ← (s.walkLoad cd (root + 8 * fld page 26 14)).bind (pteCheck 0)
      let e1 ← (s.walkLoad cd (fld e0 16 40 * 2 ^ 16 + 8 * fld page 13 13)).bind (pteCheck 1)
      if bit e1 5 then
        return .leaf (page / 2 ^ 13 * 2 ^ 13) 13 (fld e1 16 40 * 2 ^ 16) (pteAttr e1)
      let e2 ← (s.walkLoad cd (fld e1 16 40 * 2 ^ 16 + 8 * fld page 0 13)).bind (pteCheck 2)
      if bit e2 6 then
        let run := s.runLeaves cd (fld e1 16 40 * 2 ^ 16 + 8 * (fld page 0 13 / 32 * 32))
        let _ ← run.foldl (fun (r : Except WalkAnswer Unit) x => match x with | .error (.far a) => .error (.far a) | _ => r) (.ok ())
        if runProper run then return .leaf (page / 32 * 32) 5 (fld e2 21 35 * 2 ^ 21) (pteAttr e2)
        let e := (s.choose (e2 :: run.filterMap runLeaf)).getD e2
        return .leaf page 0 (fld e 16 40 * 2 ^ 16) (pteAttr e)
      return .leaf page 0 (fld e2 16 40 * 2 ^ 16) (pteAttr e2)
    match r with
    | .ok a => a
    | .error a => a

/-- The words that the walk of a page reads, level by level (R354). -/
def State.walkWords (s : State) (cd asid page : Nat) : List Nat :=
  let a := (s.die cd).asctx.toNat + 64 * asid
  match s.ctx cd asid with
  | .ok root _ _ _ =>
    let a0 := root + 8 * fld page 26 14
    a :: a0 :: match (s.walkLoad cd a0).bind (pteCheck 0) with
      | .error _ => []
      | .ok e0 =>
        let a1 := fld e0 16 40 * 2 ^ 16 + 8 * fld page 13 13
        a1 :: match (s.walkLoad cd a1).bind (pteCheck 1) with
          | .error _ => []
          | .ok e1 => if bit e1 5 then [] else [fld e1 16 40 * 2 ^ 16 + 8 * fld page 0 13]
  | _ => [a]

/-- The memory dies in service, in the order of R349. -/
def State.memDies (s : State) : List Nat := [10, 11, 12, 13, 14, 15].filter fun d => s.up.getLsbD d

/-- The translation die of a page (R349). -/
def State.transDie (s : State) (asid page : Nat) : Nat :=
  let l := s.memDies
  l.getD ((page % 2 ^ 16 ^^^ asid) % l.length) 10

/-- The entry of a page's translation die, if that holds one (R349). -/
def State.tlbFind (s : State) (asid page : Nat) : Option TlbEntry :=
  s.tlb.find? fun e => e.mdie == s.transDie asid page && e.asid == asid && e.page == page / 2 ^ e.log2 * 2 ^ e.log2

/-- Outcome of a translation. -/
inductive Xlate where
  | ok (frame : Nat) (attr : Attr)
  | miss
  | fail (cause : Nat)
deriving DecidableEq, Repr

/-- The physical address of an address that an entry covers. -/
def TlbEntry.frameOf (e : TlbEntry) (va : Nat) : Nat := e.frame + (va - e.page * 2 ^ 16)

/-- Translation by the physical window or the memory-side TLB (R342, R349). -/
def State.xlateTlb (s : State) (asid va : Nat) : Xlate :=
  if asid == 0 then (if s.isMem va then .ok va .window else .fail 0x43)
  else
    match s.tlbFind asid (va / 2 ^ 16) with
    | none => .miss
    | some e => if s.isMem (e.frameOf va) then .ok (e.frameOf va) e.attr else .fail 0x43

/-- The TLB entry that a walk answer installs (R350). -/
def State.install (s : State) (mdie asid page log2 frame : Nat) (attr : Attr) : State :=
  { s with tlb := { mdie := mdie, asid := asid, page := page, log2 := log2, frame := frame, attr := attr } :: s.tlb }

/-- What an address translates to at present: by its line on chip, by the TLB, or by the tables. Cause 0 says that the
page is not present (R348, R350). -/
def State.look (s : State) (cd asid va : Nat) : Xlate :=
  match s.line asid va with
  | some l => .ok (l.frame + va % 64) l.attr
  | none =>
    match s.xlateTlb asid va with
    | .miss =>
      match s.walk cd asid (va / 2 ^ 16) with
      | .leaf pg _ fr at_ => if s.isMem (fr + (va - pg * 2 ^ 16)) then .ok (fr + (va - pg * 2 ^ 16)) at_ else .fail 0x43
      | .notPresent => .fail 0
      | .malformed => .fail 0x43
      | .invalidContext => .fail 0x46
      | .poisoned => .fail 0x45
      | .far _ => .miss
    | r => r

/-- An address lies on an SC page (R301). -/
def State.scPage (s : State) (cd asid va : Nat) : Bool :=
  match s.look cd asid va with | .ok _ a => a.sc | _ => false

/-! ### Walk requests (R350, R353) -/

/-- The walk of a page at a TLB, if one is under way: until its answer has reached the TLB (R350). -/
def State.walkOf (s : State) (mdie asid page : Nat) : Option Nat :=
  (s.walks.find? fun e => e.2.mdie == mdie && e.2.asid == asid && e.2.page == page && e.2.inc == (s.die mdie).incarn).map (·.1)

/-- The core of a die whose mailbox takes a request, searching upward from its target (R353). -/
def State.mailbox (s : State) (cd asid page : Nat) : Option Nat :=
  let t := (page % 128) ^^^ (asid % 128)
  ((List.range 128).map fun k => cd * 128 + (t + k) % 128).find? fun c => (s.mail.getD c []).length < 8

/-- A walk request enters a mailbox, or is held by its TLB behind those it already holds for the die (R353). -/
def State.postWalk (s : State) (n : Nat) (w : Walk) : State :=
  let held := s.walks.any fun e => e.2.mdie == w.mdie && e.2.cd == w.cd && e.2.box == none && e.2.answer == none
  match (if held then none else s.mailbox w.cd w.asid w.page) with
  | some c => { s with walks := s.walks.set n { w with box := some c }, mail := s.mail.set c (s.mail.getD c [] ++ [n]) }
  | none => { s with walks := s.walks.set n { w with box := none } }

/-- The walk of a page, posted unless one is under way: its number (R350, R353). -/
def State.askWalk (s : State) (cd asid page : Nat) : State × Nat :=
  let md := s.transDie asid page
  match s.walkOf md asid page with
  | some n => (s, n)
  | none =>
    ((s.postWalk s.seq { mdie := md, inc := (s.die md).incarn, asid := asid, page := page, cd := cd, box := none, answer := none }).bump,
     s.seq)

/-- A unit takes the answer of the walk that it has waited for, if that has failed. -/
def State.walkFailed (s : State) (who : Who) (asid page : Nat) : Option (State × Nat) :=
  (s.unitWalks.find? fun u => u.who == who && u.asid == asid && u.page == page && u.failed.isSome).bind fun u =>
    u.failed.map fun c => ({ s with unitWalks := s.unitWalks.filter fun v => v != u }, c)

/-- Translation for a unit: lines on chip, then the TLB, then a walk by a rake, for which it waits (R349, R350, R353). A page
that is not present is cause 0 (R350, R362); a miss says that the unit waits. -/
def State.xlate (s : State) (who : Who) (cd asid va : Nat) : State × Xlate :=
  match s.line asid va with
  | some l => (s, .ok (l.frame + va % 64) l.attr)
  | none =>
    match s.xlateTlb asid va with
    | .ok f a => (s, .ok f a)
    | .fail c => (s, .fail c)
    | .miss =>
      let page := va / 2 ^ 16
      match s.walkFailed who asid page with
      | some (t, c) => (t, .fail c)
      | none =>
        let (t, n) := s.askWalk cd asid page
        let u : UnitWalk := { who := who, asid := asid, page := page, walk := n, failed := none }
        (if t.unitWalks.contains u then t else { t with unitWalks := t.unitWalks ++ [u] }, .miss)

/-- The walk of a unit has ended: it goes on by the TLB, or learns the cause by which it fails. -/
def UnitWalk.answer (n : Nat) (c : Option Nat) (u : UnitWalk) : Option UnitWalk :=
  if u.walk == n && u.failed == none then c.map fun k => { u with failed := some k } else some u

/-- The translation of an address that is at hand: its line on chip, or a TLB entry. -/
def State.known (s : State) (asid va : Nat) : Xlate :=
  match s.line asid va with
  | some l => .ok (l.frame + va % 64) l.attr
  | none => s.xlateTlb asid va

/-- The switch behind an address that a barrier instruction or a `copy` names, with the physical address of its object, once
the address has been translated (R350, R382). -/
def State.switchAt (s : State) (asid va : Nat) (user : Bool) : Option (Nat × Nat) :=
  match s.known asid va with
  | .ok f a =>
    match s.phys f with
    | .remote q => if s.switches.has q && a.allows { r := true, w := true, u := user } then some (q, f) else none
    | _ => none
  | _ => none

/-! ### Accesses of engines and other units, performed in one step -/

/-- Reads `n` bytes (within one line) under an ASID with coherence: the committed contents on chip, once the die holds no old copy
of them that a later load could still return (R296), or memory. Cause 0 says that the page is not present, cause 1 that the access
waits: for a walk, for another package, or for an invalidation. -/
def State.cohRead (s : State) (who : Who) (cd asid va n : Nat) (need : Need) : State × Except Nat (List Byte) :=
  match s.xlate who cd asid va with
  | (s, .fail c) => (s, .error c)
  | (s, .miss) => (s, .error 1)
  | (s, .ok f a) =>
    if !a.allows need then (s, .error 0x43)
    else
      match s.line asid va with
      | some l =>
        (s, if s.handing l.frame || l.stale.has cd then .error 1 else if l.poison then .error 0x45 else .ok (slice l.cur (va % 64) n))
      | none =>
        match s.farNeeds cd asid va f a need.w with
        | some t => (t, .error 1)
        | none =>
        match s.phys f with
        | .host _ => (s, .ok ((List.range n).map fun k => Config.hostByte s.tick (f + k)))
        | _ => (s, if s.poisonAt f then .error 0x45 else .ok (s.mem.bytes f n))

/-- What a unit's write does to the full/empty bits of its words: nothing, sets them full, or leaves that to a later step of the
same command (R185, R300). -/
inductive Filling where | keep | now | later
deriving DecidableEq, Repr

/-- The die that owns a line after a unit's write on a die: the one that holds its empty words, else the unit's (R185, R292). -/
def Line.unitOwner (l : Line) (cd : Nat) : Nat := if l.empties.isEmpty then cd else l.owner.getD cd

/-- A unit's write finds the line ready: nothing uncommitted, no old copy whose invalidation is in flight, no word that another
die holds empty, its page neither locked nor being handed over, so that the die obtains write ownership, forwards the new words
to the sharers and commits in the one step, and the L2 that then owns the line holds it or has room for it (R271, R290, R293, R297, R303).
Writes that make words full go on while a page that is being handed over holds empty words, since its hand-over waits for them. -/
def State.unitMayWrite (s : State) (cd asid va : Nat) (l : Line) (fill : Bool) : Bool :=
  l.upd == none && l.stale.isEmpty && (fill || l.empties.isEmpty || l.owner == none || l.owner == some cd) &&
    !s.locked asid va && (!s.handing l.frame || (fill && !l.empties.isEmpty)) &&
    (l.inL2 (l.unitOwner cd) || s.l2Room (l.unitOwner cd) (lineKey asid va))

/-- The line as a unit's write on a die leaves it: owned there, with no copy in other dies, the die's own sharers updated; the
die that holds a line with empty words keeps it (R185, R290, R292, R293). -/
def Line.unitWrite (l : Line) (cd off : Nat) (d : List Byte) (fill : Bool) : Line :=
  let own := l.unitOwner cd
  let ws := (List.range (d.length / 4)).map fun k => off / 4 + k
  { l with cur := patch l.cur off d, dirty := true, owner := some own, present := [own], excl := none,
           l1 := l.l1.filter fun c => c / 128 == own, poison := l.poison && d.length != 64,
           empties := if fill then l.empties.filter (fun w => !ws.contains w) else l.empties }

/-- Writes bytes (within one line) under an ASID, with what `fill` says of their words (R185). The write takes the line's
ownership to its die and commits in one step, once nothing stands against it (R290). A part of a poisoned line leaves it
poisoned (R397). -/
def State.cohWrite (s : State) (who : Who) (cd asid va : Nat) (d : List Byte) (fill : Filling) (need : Need) : State × Except Nat Unit :=
  match s.xlate who cd asid va with
  | (s, .fail c) => (s, .error c)
  | (s, .miss) => (s, .error 1)
  | (s, .ok f a) =>
    if !a.allows need then (s, .error 0x43)
    else
      match s.line asid va with
      | some l =>
        if s.lostMem l.frame then (s, .error 0x45)
        else if !s.hasMode f true then (s.askPage f va true, .error 1)
        else if !s.unitMayWrite cd asid va l (fill != .keep) then (s, .error 1)
        else (((s.keepOld l.frame l.cur).setLine asid va (l.unitWrite cd (va % 64) d (fill == .now))).wrote asid va d.length, .ok ())
      | none =>
        match s.farNeeds cd asid va f a true with
        | some t => (t, .error 1)
        | none =>
        match s.phys f with
        | .host _ => ({ s with hostOut := s.hostOut ++ [HostOut.store f d] }.wrote asid va d.length, .ok ())
        | _ =>
          if s.lostMem f then (s, .error 0x45)
          else if s.locked asid va then (s, .error 1)
          else
            ({ s.keepOld f (s.mem.bytes (f / 64 * 64) 64) with
                      mem := s.mem.putBytes f d,
                      memPoison := if d.length == 64 then s.memPoison.del (f / 64) else s.memPoison }.wrote asid va d.length, .ok ())

end Sys2Proof.Machine
end

