-- ==== Sys2Proof/Machine/Coherence.lean ====
section
/-!
DEFINITION. A slot's outstanding accesses: the orders they keep (R178, R189, R294, R298, R301), and how each part is
bound, written at its home slice, committed and acknowledged (R290–R296). Every outcome that the rules leave open is a
choice of which part proceeds next (entry 4).
-/

namespace Sys2Proof.Machine

/-- The part has its value, is committed, or has failed. -/
def Part.performed (x : Part) : Bool :=
  match x.st with | .done _ => true | .bad _ => true | _ => false
/-- The part is performed with respect to every die: no acknowledgement is outstanding (R293). -/
def Part.complete (x : Part) : Bool := x.performed && x.acks.isEmpty
/-- The part is performed with respect to the dies of a mask (R144). -/
def Part.performedFor (x : Part) (mask : Nat) : Bool := x.performed && x.acks.all fun d => !mask.testBit d
/-- Every part is bound or committed. -/
def Access.bound (a : Access) : Bool := a.parts.all Part.performed
/-- Every part is performed with respect to every die. -/
def Access.complete (a : Access) : Bool := a.parts.all Part.complete
/-- With a part, a `vst` has written all 64 bytes of its line (R397); the lanes of a scatter, numbered from 16, are stores of
their own (R187). -/
def Access.fillsLine (a : Access) (k : Nat) : Bool :=
  a.parts.length == 16 && a.parts.zipIdx.all fun (y, j) =>
    decide (y.lane < 16) && (j == k || match y.st with | .done _ => true | .updating => true | _ => false)
/-- The access reads only. -/
def Access.isLoad (a : Access) : Bool := match a.kind with | .load _ _ => true | _ => false
/-- The access sets its words full (R184). -/
def Access.fills (a : Access) : Bool := match a.kind with | .store _ f => f | _ => false
/-- An acquire load (R189). -/
def Access.isAcq (a : Access) : Bool := match a.kind with | .load q _ => q | _ => false
/-- A release store (R189). -/
def Access.isRel (a : Access) : Bool := match a.kind with | .store r _ => r | _ => false
/-- The first failing cause of an access, once every part has its outcome (R177). -/
def Access.failed (a : Access) : Option Nat :=
  if a.bound then a.parts.findSome? fun x => match x.st with | .bad c => some c | _ => none else none

/-- Two parts share a byte. -/
def Part.overlaps (x y : Part) : Bool := decide (x.va < y.va + y.size ∧ y.va < x.va + x.size)

/-- Two accesses go to one space: the scratchpad, or memory under one ASID. -/
def Access.sameSpace (b a : Access) : Bool := b.sp == a.sp && (b.sp || b.asid == a.asid)

/-- A `vst`: it writes all 64 bytes of its line, and so the poison mark of the line (R397). -/
def Access.wholeLine (a : Access) : Bool :=
  !a.isLoad && !a.sp && a.parts.length == 16 && a.parts.all fun y => decide (y.lane < 16)

/-- Part `x` of a later access meets part `y` of access `b`: at a byte, or at the mark of a line that `b` writes whole. -/
def Access.meets (b : Access) (x y : Part) : Bool := x.overlaps y || (b.wholeLine && x.va / 64 == y.va / 64)

/-- An earlier access `b` lets part `x` of access `a` be performed; scratchpad accesses are ordered like those of memory
(R178, R182, R189). -/
def Access.lets (b a : Access) (x : Part) : Bool :=
  (!b.isAcq || b.bound) && (!a.isRel || b.complete) &&
    (!b.sameSpace a || b.parts.all fun y => y.performed || !b.meets x y)

/-- A part lies on an SC page (R301). -/
def State.onSc (s : State) (p : Nat) (a : Access) (x : Part) : Bool := !a.sp && s.scPage (dieOf p) a.asid x.va

/-- Every earlier SC-page access of the core is complete (R301). -/
def State.scOrder (s : State) (p : Nat) (a : Access) : Bool :=
  (List.range 16).all fun k => (s.slot (coreOf p * 16 + k)).accs.all fun b =>
    b.id ≥ a.id || b.complete || b.parts.all fun y => y.complete || !s.onSc p b y

/-- A load of a version by `copy.v` has still to deliver words of a tile slot of a cluster (R267). -/
def State.copyDelivers (s : State) (cl t : Nat) : Bool :=
  let mine (x : Slot) : Bool := (x.engine .c).queue.any fun c =>
    c.started && c.opc == 0x23 && !bit (c.w 0) 13 && clusterOf c.pos == cl && (c.out ++ c.wrote).any fun p => p.sp && p.dst / 4096 == t
  (s.slots.any fun e => mine e.2) || s.saved.any fun e => mine e.2.x

/-- A synchronising load of the scratchpad that waits for a word of a tile slot with an outstanding `tld` or load by `copy.v`: it
observes the version as FULL once it reads the delivered word (R199; entry 60). -/
def State.observes (s : State) (p : Nat) (b : Access) : Bool :=
  (match b.kind with | .load _ y => y && b.sp | _ => false) && !b.bound &&
    b.parts.any fun y => (s.cluster (clusterOf p)).tld.has (y.va / 4096) || s.copyDelivers (clusterOf p) (y.va / 4096)

/-- Part `x` of access `a` of slot `p` may be performed now (R178, R182, R187, R189, R199, R294, R301, R405). -/
def State.ordered (s : State) (p : Nat) (a : Access) (x : Part) : Bool :=
  ((s.slot p).accs.all fun b => b.id ≥ a.id || (b.lets a x && !s.observes p b)) &&
    (!a.isRel || ((s.slot p).borrowed.isEmpty && !s.digesting (s.slot p).tid a.id)) &&
    (a.parts.all fun y => x.lane ≤ y.lane || y.performed || !x.overlaps y) &&
    (!s.onSc p a x || (s.scOrder p a && (s.slot p).borrowed.isEmpty))

/-- The rights that an access needs (R348). -/
def Access.need (a : Access) : Need :=
  let rd := match a.kind with | .load _ _ => true | .atomic _ _ => true | .barrier => true | _ => false
  let wr := match a.kind with | .load _ _ => false | _ => true
  { r := rd, w := wr, u := a.user }

/-- The access of a slot with a number. -/
def State.acc (s : State) (p id : Nat) : Option Access := (s.slot p).accs.find? (·.id == id)
/-- The state with an access of a slot changed. -/
def State.modAcc (s : State) (p id : Nat) (f : Access → Access) : State :=
  s.modSlot p fun x => { x with accs := x.accs.map fun a => if a.id == id then f a else a }
/-- The state with one part of an access changed. -/
def State.modPart (s : State) (p id k : Nat) (f : Part → Part) : State :=
  s.modAcc p id fun a => { a with parts := (a.parts.zipIdx).map fun (x, j) => if j == k then f x else x }
/-- A part is given an outcome. -/
def State.setPart (s : State) (p id k : Nat) (st : PartState) : State := s.modPart p id k fun x => { x with st := st }

/-- An access with that hint bypasses the caches of a line with these attributes: by the hint, or by the page's default retention
(R181, R274). -/
def Attr.bypassed (at_ : Attr) (h : Hint) : Bool := h == .by || (h == .dflt && at_.ret == 3)

/-- An access that hits a line records its retention; one that bypasses records streaming, and leaves a line that passes through as
it is (R181, R274). -/
def Line.retain (l : Line) (h : Hint) : Line :=
  { l with ret := if l.attr.bypassed h then 1 else match h with | .dflt => l.attr.ret | .st => 1 | .sk => 2 | .by => 1,
           pass := l.pass && l.attr.bypassed h }

/-- The contents that a die's caches return, if they hold the line: the committed contents, or old ones whose
invalidation is in flight (R290, R293). -/
def Line.seenBy (l : Line) (cd : Nat) : Option (List Byte) :=
  match l.stale.get? cd with
  | some b => some b
  | none => if l.present.contains cd || l.owner == some cd then some l.cur else none

/-- The 32-bit words of a line that a part touches. -/
def Part.words (x : Part) : List Nat := (List.range ((x.size + 3) / 4)).map fun k => x.va % 64 / 4 + k

/-- A pending update of the line holds the load back: its word is in it, and the core's L1 holds the line (R290). -/
def Line.holds (l : Line) (core : Nat) (x : Part) : Bool :=
  match l.upd with
  | none => false
  | some u => l.l1.contains core && decide (u.off < x.va % 64 + x.size ∧ x.va % 64 < u.off + u.data.length)

/-- The dies whose acknowledgement the writer of a pending reply still awaits (R294): none for the owner's die. -/
def Line.pendingFor (l : Line) (cd : Nat) : List Nat :=
  if l.owner == some cd then [] else l.stale.map (·.1)

/-- An SC-page access takes a ticket from the global sequencer where its die is in sequencer mode (R302). -/
def State.sequence (s : State) (cd : Nat) (sc : Bool) : State :=
  if sc && (s.die cd).memcfg.getLsbD 8 then { s with tickets := s.tickets + 1 } else s

/-- The access bypasses the caches, by its hint or by the page's default retention (R181, R274). -/
def Access.bypass (a : Access) (at_ : Attr) : Bool := at_.bypassed a.hint && a.kind != .clear

/-- In sequencer mode an SC-page read sees every write whose ticket precedes its own: it reads no copy whose invalidation is in
flight (R302). -/
def State.inTickets (s : State) (cd : Nat) (l : Line) : Bool :=
  !(l.attr.sc && (s.die cd).memcfg.getLsbD 8) || !l.stale.has cd

/-- The cores whose L1 holds a line, once a core's does; its L1 gives up another line where it is full (R271, R290). -/
def Line.cached (l : Line) (core : Nat) : Line :=
  { l with l1 := if l.l1.contains core then l.l1 else core :: l.l1, excl := if l.excl == some core then l.excl else none }

/-- Lines that a core's L1 holds: 64 KiB of 64 bytes (R271). -/
def l1Lines : Nat := 1024
/-- The order in which a line is given up: streaming lines first, then default ones, then sticky ones (R274). -/
def Line.rank (l : Line) : Nat := if l.ret == 1 then 0 else if l.ret == 2 then 2 else 1

/-- The rank of a line among the lines of a cache of a size: sticky lines keep theirs while they fill no more than a quarter of the
cache; beyond that the oldest count as default ones (R274). -/
def rankIn (held : SMap Line) (size : Nat) (l : Line) : Nat :=
  let sticky := held.filter fun e => e.2.ret == 2
  let older := (sticky.filter fun e => e.2.born < l.born).length
  if l.ret == 2 && decide (older < sticky.length - size / 4) then 1 else l.rank

/-- A full L1 gives up a line of the lowest rank that has no pending update (R271, R274, R395). -/
def State.l1Room (s : State) (core key : Nat) : State :=
  let held := s.lines.filter fun e => e.1 != key && e.2.l1.contains core
  let size := l1Lines - (s.die (core / 128)).cut 2 fun a => a / 2 ^ 62 == core % 128
  if held.length < size then s
  else
    let free := held.filter fun e => e.2.upd == none && e.2.excl != some core
    let low := free.filter fun e => free.all fun f => rankIn held size e.2 ≤ rankIn held size f.2
    match s.choose low with
    | some e => { s with lines := s.lines.set e.1 { e.2 with l1 := e.2.l1.filter (· != core) } }
    | none => s

/-- The last part of a bypassing access to a line that only passes through has been performed: the line leaves, modified contents to
memory (R274). -/
def State.passed (s : State) (a : Access) (k : Nat) (x : Part) : State :=
  match s.line a.asid x.va with
  | some l =>
    if l.pass && a.bypass l.attr && l.upd == none && l.empties.isEmpty &&
        a.parts.zipIdx.all (fun (y, j) => j == k || y.performed || y.va / 64 != x.va / 64) then
      (s.writeBack l).delLine a.asid x.va
    else s
  | none => s

/-- Binds a load part that hits in its die, or gives it its outcome; `none` while it must wait. A load that bypasses the caches
enters no L1 (R181, R274). -/
def State.bindHit (s : State) (p : Nat) (a : Access) (k : Nat) (x : Part) : Option State :=
  let cd := dieOf p
  match s.line a.asid x.va with
  | none => none
  | some l =>
    let sync := match a.kind with | .load _ y => y | _ => false
    if !s.ordered p a x || s.handing l.frame then none
    else if !l.attr.allows a.need then some (s.setPart p a.id k (.bad 0x43))
    else
      match l.seenBy cd with
      | none => none
      | some b =>
        if l.holds (coreOf p) x || (sync && x.words.any l.empties.contains) || !s.inTickets cd l then none
        else if l.poison then some (s.setPart p a.id k (.bad 0x45))
        else
          let by_ := a.bypass l.attr
          let l' := if by_ then l.retain a.hint else (l.retain a.hint).cached (coreOf p)
          let s := if by_ then s else s.l1Room (coreOf p) (lineKey a.asid x.va)
          let s := ((s.sequence cd l.attr.sc).setLine a.asid x.va l').setPart p a.id k (.done (ofBytes (slice b (x.va % 64) x.size)))
          let ds := l.pendingFor cd
          some ((if ds.isEmpty then s else
            s.modSlot p fun y => { y with borrowed := y.borrowed ++ [(lineKey a.asid x.va, ds)] }).passed a k x)

/-- The value that a register receives from a fill: lanes or an extended number; a failed access fills 0 (R177). -/
def Access.fill (a : Access) (old : Vec) : Word × Vec :=
  let ok := a.failed == none
  let val (x : Part) : Nat := match x.st with | .done v => if ok then v else 0 | _ => 0
  match a.dst with
  | .none => (0, old)
  | .s _ signed size =>
    let n := a.parts.foldr (fun x acc => val x + 2 ^ (8 * x.size) * acc) 0
    (if signed then (BitVec.ofNat (8 * size) n).signExtend 64 else BitVec.ofNat 64 n, old)
  | .v _ _ =>
    let lane' (i : Nat) : W32 :=
      match a.parts.find? (·.lane == i) with
      | some x => BitVec.ofNat 32 (val x)
      | none => lane old i
    (0, ofLanes lane')

/-- The deferred fill of an access lands in the slot: a push where the register is a channel of its writer (R15, R24). -/
def State.land (s : State) (p : Nat) (a : Access) : State :=
  match a.dst with
  | .none => s
  | .s d _ _ =>
    if d.val = 0 then s else
    let w := (a.fill 0).1
    let t := s.writeS p d w
    t.modSlot p fun y => { y with sFull := y.sFull ||| BitVec.twoPow 64 d.val, dirtyS := y.dirtyS ||| BitVec.twoPow 64 d.val }
  | .v d _ => s.modSlot p fun y => y.setVec d (a.fill y.v[d]).2

/-- A push into a channel may take place: it has room, and both ends are in their slots (R24, R26). -/
def Channel.takes (c : Channel) : Bool := decide (c.fifo.length < 8) && !c.wAway && !c.rAway

/-- A fill may land: a push waits for its channel (R24, R26). -/
def State.canLand (s : State) (p : Nat) (a : Access) : Bool :=
  match a.dst with
  | .s d _ _ =>
    match s.role p d with
    | .writer n => (s.chan (coreOf p) n).takes
    | _ => true
  | _ => true

/-- New value of the word of an atomic of `w` bytes (R192, R195), and the flags of a floating-point sum. -/
def amoNew (op : AmoOp) (w : Nat) (old v c : Nat) : Nat × Fp.Flags :=
  let m := 2 ^ (8 * w)
  let sg (x : Nat) : Int := (BitVec.ofNat (8 * w) x).toInt
  match op with
  | .add => ((old + v) % m, 0)
  | .minI => (if sg old ≤ sg v then old else v % m, 0)
  | .minN => (if old ≤ v % m then old else v % m, 0)
  | .maxI => (if sg v ≤ sg old then old else v % m, 0)
  | .maxN => (if v % m ≤ old then old else v % m, 0)
  | .and => (old &&& (v % m), 0)
  | .or => (old ||| (v % m), 0)
  | .xor => (old ^^^ (v % m), 0)
  | .swap => (v % m, 0)
  | .cas => (if old == c % m then v % m else old, 0)
  | .fadd rm =>
    let r := Fp.add Fp.f32 (Fp.RM.ofField rm.toNat) (Fp.f32.val old) (Fp.f32.val (v % 2 ^ 32))
    (r.1, r.2)

/-- A commit: the update becomes the committed contents, its part is performed on the die, and the acknowledgements of
the dies with old copies are outstanding (R290, R293); an SC-page store takes its ticket here (R302). -/
def State.commit (s : State) (asid va : Nat) (l : Line) (u : Update) : State :=
  let ws := (List.range ((u.data.length + 3) / 4)).map fun k => u.off / 4 + k
  let l' := { l with cur := patch l.cur u.off u.data, dirty := true, upd := none,
                     empties := if u.fill then l.empties.filter (fun w => !ws.contains w) else l.empties }
  ((((s.sequence (dieOf u.slot) l.attr.sc).keepOld l.frame l.cur).setLine asid va l').wrote asid (va / 64 * 64 + u.off) u.data.length).modPart
    u.slot u.id u.part fun x =>
    { x with st := .done 0, acks := l.stale.map (·.1) }

/-- Write ownership of the line is at the die, with nothing uncommitted and no old copy of the die's own (R290, R293). -/
def Line.writable (l : Line) (cd : Nat) : Bool :=
  l.owner == some cd && l.upd == none && !l.stale.has cd
/-- A `stfill` of another die is forwarded to the slice that holds a line with an empty word, and performed there; that
slice's die keeps the ownership (R185, R292). -/
def Line.takesFill (l : Line) (cd : Nat) : Bool :=
  l.owner.isSome && !l.empties.isEmpty && l.upd == none && !l.stale.has cd

/-- SLICE_WRITE: a store, `clrfe` or atomic part reaches the line's home slice (R290–R292, R193). -/
def State.sliceWrite (s₀ : State) (p : Nat) (a : Access) (k : Nat) (x : Part) : Option State :=
  let cd := dieOf p
  match s₀.line a.asid x.va with
  | none => none
  | some l =>
    if !s₀.ordered p a x || (s₀.handing l.frame && !(a.fills && !l.empties.isEmpty)) || s₀.locked a.asid x.va then none
    else if !l.attr.allows a.need then some (s₀.setPart p a.id k (.bad 0x43))
    else if s₀.lostMem l.frame then some (s₀.setPart p a.id k (.bad 0x45))
    else if !(l.writable cd || (a.fills && l.takesFill cd)) then none
    else
      let s := match a.kind with | .store _ _ => s₀ | _ => s₀.sequence cd l.attr.sc
      let l := { l.retain a.hint with excl := if l.excl == some (coreOf p) then l.excl else none }
      match a.kind with
      | .load _ _ => none
      | .barrier => none
      | .store _ fill =>
        let u : Update := { off := x.va % 64, data := toBytes x.size x.data, slot := p, id := a.id, part := k, fill := fill,
                            wait := l.l1.filter fun c => c != coreOf p && c / 128 == l.owner.getD cd }
        let l := { l with poison := l.poison && !a.fillsLine k }
        if u.wait.isEmpty then some ((s.commit a.asid x.va l u).passed a k x)
        else some ((s.setLine a.asid x.va { l with upd := some u }).setPart p a.id k .updating)
      | .clear =>
        let ws := x.words
        some ((s.setLine a.asid x.va { l with empties := l.empties.filter (fun w => !ws.contains w) ++ ws }).modPart
          p a.id k fun y => { y with st := .done 0, acks := l.stale.map (·.1) })
      | .atomic op c =>
        if l.poison then some (s.setPart p a.id k (.bad 0x45))
        else
          match op, l.attr.d with
          | .fadd _, true => some (s.setPart p a.id k (.bad 0x22))
          | _, _ =>
            let old := ofBytes (slice l.cur (x.va % 64) x.size)
            let r := amoNew op x.size old x.data c.toNat
            let l' := { l with cur := patch l.cur (x.va % 64) (toBytes x.size r.1), dirty := true,
                               excl := if a.bypass l.attr then none else some (coreOf p),
                               l1 := if a.bypass l.attr then [] else [coreOf p] }
            some ((((((s.keepOld l.frame l.cur).setLine a.asid x.va l').wrote a.asid x.va x.size).modPart p a.id k fun y =>
              { y with st := .done old, acks := l.stale.map (·.1) }).modSlot p fun y => { y with flags := y.flags ||| r.2 }).passed a k x)

/-- DIRECTORY_REQUEST: the die obtains a copy to read, or write ownership, of a line that is on chip (R292, R293). -/
def State.directory (s : State) (cd asid va : Nat) (wr : Bool) : Option State :=
  match s.line asid va with
  | none => none
  | some l =>
    if l.upd != none || l.stale.has cd || (wr && s.locked asid va) || s.handing l.frame then none
    else if wr && !s.hasMode l.frame true then some (s.askPage l.frame va true)
    else if wr then
      if l.owner == some cd || (!l.empties.isEmpty && l.owner != none) then none
      else
        let others := (l.present ++ l.owner.toList).filter (· != cd)
        let st := others.foldl (fun t d => t.set d l.cur) l.stale
        some (s.setLine asid va { l with owner := some cd, present := [cd], stale := st, excl := none })
    else
      if l.present.contains cd || l.owner == some cd then none
      else
        let keep := if l.empties.isEmpty then none else l.owner
        let ps := cd :: (l.present ++ l.owner.toList).eraseDups
        some (s.setLine asid va { l with owner := keep, present := ps, excl := none })

/-- A part of the line no longer awaits the acknowledgement of a die. -/
def Part.ack (asid cd key : Nat) (y : Part) : Part :=
  if lineKey asid y.va == key then { y with acks := y.acks.filter (· != cd) } else y
/-- An access no longer awaits the acknowledgement of a die for a line. -/
def Access.ack (cd key : Nat) (a : Access) : Access := { a with parts := a.parts.map (Part.ack a.asid cd key) }
/-- A slot no longer awaits the acknowledgement of a die for a line. -/
def Slot.ack (x : Slot) (cd key : Nat) : Slot :=
  let cut := x.borrowed.map fun b => if b.1 == key then (b.1, b.2.filter (· != cd)) else b
  { x with accs := x.accs.map (Access.ack cd key), borrowed := cut.filter fun b => !b.2.isEmpty }

/-- INVALIDATE_ACK: a die's old copy is gone, and its acknowledgement reaches every writer that awaits it (R293). -/
def State.invalidateAck (s : State) (cd key : Nat) : Option State :=
  match s.lines.get? key with
  | none => none
  | some l =>
    if !l.stale.has cd then none
    else
      let l' := { l with stale := l.stale.del cd, l1 := l.l1.filter fun c => c / 128 != cd }
      let s := { s with lines := s.lines.set key l' }
      some { s with slots := s.slots.map fun e => (e.1, e.2.ack cd key) }

/-- Finished accesses leave the slot: those whose fill has landed and whose parts are complete without a failure. -/
def Slot.sweep (x : Slot) : Slot :=
  { x with accs := x.accs.filter fun a => !(a.complete && a.dst == .none && a.failed == none) }

end Sys2Proof.Machine
end

