-- ==== Sys2Proof/Machine/Flags.lean ====
section
/-!
DEFINITION. The slot's rounding mode and flags: `ctl.fpcsr` as a whole (R19–R21, R48), the rounding mode in effect,
and the union of the flags of several results (R149).
-/

namespace Sys2Proof.Machine

/-- `ctl.fpcsr` (R48). -/
def Slot.fpcsr (x : Slot) : Word := BitVec.ofNat 64 (x.ten.toNat * 256 + x.flags.toNat * 8 + x.rm.toNat)

/-- A write of `ctl.fpcsr`: a reserved RM leaves the register unchanged (R21); the reserved bits are ignored (R3). -/
def Slot.setFpcsr (x : Slot) (w : Word) : Option Slot :=
  if 5 ≤ w.toNat % 8 then none
  else some { x with rm := w.extractLsb' 0 3, flags := w.extractLsb' 3 5, ten := w.extractLsb' 8 5 }

/-- The rounding mode in effect at issue (R19, R149). -/
def State.rm (s : State) : Fp.RM := Fp.RM.ofField s.me.rm.toNat

/-- The union of flags (R149). -/
def unionFlags (l : List Fp.Flags) : Fp.Flags := l.foldl (· ||| ·) 0

/-- Flags of the active lanes of a lane-wise result (R148, R149). -/
def laneFlags (m : Mask) (f : Nat → Fp.Flags) : Fp.Flags :=
  unionFlags ((List.range 16).map fun i => if m.getLsbD i then f i else 0)

end Sys2Proof.Machine
end

