-- ==== Sys2Proof/Machine/Image.lean ====
section
/-!
DEFINITION. Control block images (R336), fault-queue entries and reports (R359, R360, R370), and the way a task leaves
its slot: by parking (R361), pre-emption (R339), `yield` (R218) or `twait.y` (R200).
-/

namespace Sys2Proof.Machine

/-! ### Fault-queue entries (R359, R360) -/

/-- Entries that the fault queue of a die holds (R360). -/
def Die.fqSize (x : Die) : Nat := 2 ^ (x.fq.toNat % 16)
/-- The fault queue is full (R360). -/
def Die.fqFull (x : Die) : Bool := (x.fqTail - x.fqHead).toNat % 2 ^ 16 == x.fqSize
/-- Address of the next entry. -/
def Die.fqNext (x : Die) : Nat := fld x.fq.toNat 12 44 * 2 ^ 12 + 64 * (x.fqTail.toNat % x.fqSize)
/-- The cycle counter of a die (R45). -/
def State.cycle (s : State) (d : Nat) : Nat := (s.now - (s.die d).epoch) % 2 ^ 64

/-- An entry is written: w0 to w6, then w7 with both its words full (R360). -/
def State.fqWrite (s : State) (d : Nat) (e : FqEntry) : State :=
  let x := s.die d
  let a := x.fqNext
  let ws : List Nat :=
    [e.page * 2 ^ 16 + e.kind * 2 ^ 12 + e.asid,
     x.incarn.toNat * 2 ^ 16 + e.eng.toNat * 2 ^ 10 + e.acc * 2 ^ 8 + e.cause,
     e.cb, e.live * 2 ^ 24 + e.pos, e.addr, s.cycle d, e.key, 2 ^ 63 + x.fqSeq % 2 ^ 32]
  let s := s.putPhys a (ws.flatMap (toBytes 8))
  (s.fillPhys (a + 56) 8).modDie d fun y => { y with fqTail := y.fqTail + 1, fqSeq := y.fqSeq + 1 }

/-- WOKEN, with REFD for a refused page, is stored into the entry at an address (R360). -/
def State.fqWoken (s : State) (a : Nat) (ref : Bool) : State :=
  let w := s.physNum (a + 56) 8
  s.putPhys64 (a + 56) (w ||| 2 ^ 62 ||| (if ref then 2 ^ 61 else 0))

/-- POS and LIVE of a task, in or out of its slot, as its entries hold them (R360). -/
def State.posOf (s : State) (h : Nat) : Nat × Nat :=
  (if h < 16384 then (s.stat h).toNat % 2 ^ 22 else fld (s.physNum (h + 0x30) 8) 0 22,
   if (s.holder h).crew then (s.crew (s.crewKeyOf h)).live.toNat else 0)

/-- A report (KIND 3) is made: while the queue is full it waits behind those that wait already (R360, R370). -/
def State.report (s : State) (d : Nat) (e : FqEntry) : State :=
  if (s.die d).fqFull || !(s.die d).reports.isEmpty then s.modDie d fun y => { y with reports := y.reports ++ [e] } else s.fqWrite d e

/-- Reports that waited are made while the queue has space (R360). -/
def State.flushReports (s : State) (d : Nat) : State :=
  (s.die d).reports.foldl (fun t e =>
    if (t.die d).fqFull then t else (t.modDie d fun y => { y with reports := y.reports.tail }).fqWrite d e) s

/-- A report about a task, in its slot or out of it, with the ACC of what it waits for (R360). -/
def State.reportTask (s : State) (h cause : Nat) (eng : Bool) (acc addr : Nat) : State :=
  let x := s.holder h
  s.report (dieOf (s.seat h))
    { kind := 3, asid := x.asid.toNat, eng := eng, acc := acc, cause := cause, cb := x.block, live := (s.posOf h).2, pos := (s.posOf h).1,
      addr := addr, key := x.key.toNat }

/-- A report of an event of a die. -/
def State.reportDie (s : State) (d cause addr : Nat) : State := s.report d { kind := 3, cause := cause, addr := addr }

/-! ### Images (R336) -/

/-- Guards in the `ctl.guards` layout (R45). -/
def Slot.guardsWord (x : Slot) : Nat :=
  (List.range 16).foldr (fun n acc =>
    acc * 4 + (match (if h : n < 16 then x.guard ⟨n, h⟩ else .unresolved) with
      | .unresolved => 0 | .isTrue => 1 | .isFalse => 2)) 0

/-- A channel in the `ctl.chan` layout (R52). -/
def Channel.word (c : Channel) : Nat :=
  if c.en then c.rrel.toNat * 2 ^ 14 + c.wrel.toNat * 2 ^ 13 + c.fifo.length * 2 ^ 9 + c.rslot.toNat * 2 ^ 5 +
    c.wslot.toNat * 2 + 1
  else 0

/-- Engines in the order matrix, copy, gather. -/
def engines : List Engine := [.m, .c, .g]

/-- S, LCAUSE, SUB and LSEQ in the `cseq` layout (R241). -/
def Eng.cseqWord (e : Eng) : Nat :=
  e.lseq.toNat % 2 ^ 16 * 2 ^ 48 + e.sub.toNat * 2 ^ 40 + e.lcause.toNat * 2 ^ 32 + e.sq.toNat

/-- The engine fields of an image: P and S, last failures, and posted causes (R336). -/
def Slot.imageEng (x : Slot) : List (Nat × Nat × Nat) :=
  engines.flatMap (fun e =>
    [(0x0F58 + 8 * (engNum e).val, 4, (x.engine e).p.toNat), (0x0F5C + 8 * (engNum e).val, 4, (x.engine e).sq.toNat),
     (0x0F70 + 8 * (engNum e).val, 8, (x.engine e).cseqWord)]) ++
  (List.range 7).map fun k =>
    (0x0F88 + 8 * k, 8, match x.posted[k]? with
      | some c => (engNum c.eng).val * 2 ^ 40 + c.ticket.toNat * 2 ^ 8 + c.cause.toNat
      | none => 0)

/-- Discarded commands at the head of a queue end (R17, R240). -/
def Eng.passDiscarded (e : Eng) : Eng :=
  let gone := e.queue.takeWhile fun c => c.fate == some false
  { e with queue := e.queue.drop gone.length, sq := e.sq + BitVec.ofNat 32 gone.length }

/-- Commands of a slot that have not started, in ticket order per engine (R245). -/
def Slot.unstarted (x : Slot) : List (Engine × Cmd) :=
  engines.flatMap fun e => ((x.engine e).queue.filter fun c => !c.started).map fun c => (e, c)

/-- What has been decided about them (R17, R217). -/
def Slot.fates (x : Slot) : List (Engine × W32 × Bool) := x.unstarted.filterMap fun (e, c) => c.fate.map fun f => (e, c.ticket, f)

/-- The entries of saved accesses and tile requests in an image, in program order: 32 bytes each, of which R336 gives no coding
(entry 28). -/
def imageAccs (ids : List Nat) : List (Nat × Nat × Nat) :=
  ids.zipIdx.flatMap fun (n, k) => (List.range 32).map fun j => (0x1400 + 32 * k + j, 1, (Config.savedEntry n j).toNat)

/-- The parts of an image that are always written (R339), as offset, size and value; the `state` of R336, and the numbers of the
saved accesses and tile requests. -/
def State.imageHead (s : State) (p state gen tiles : Nat) (ids : List Nat) (bank : Option Nat) : List (Nat × Nat × Nat) :=
  let x := s.slot p
  let cs := x.unstarted
  [(0x0000, 8, x.key.toNat), (0x0008, 8, x.path.toNat), (0x0010, 8, x.hdr.toNat), (0x0018, 8, x.pc.toNat),
   (0x0020, 8, x.asid.toNat * 2 ^ 16 + state), (0x0028, 8, x.idx.toNat),
   (0x0030, 8, (s.stat p).toNat + (match bank with | some b => 2 ^ 26 + b * 2 ^ 24 | none => 0)),
   (0x0038, 8, x.lnch), (0x0040, 8, x.token.toNat),
   (0x0048, 8, x.kdesc.toNat + cs.length * 2 ^ 16 + ids.length * 2 ^ 32 + tiles * 2 ^ 40), (0x0050, 8, gen),
   (0x0F00, 8, x.sFull.toNat), (0x0F08, 8, x.vFull.toNat), (0x0F20, 8, x.guardsWord), (0x0F28, 8, x.fpcsr.toNat),
   (0x0F30, 8, x.epc.toNat), (0x0F38, 8, x.cause.toNat), (0x0F40, 8, x.tval.toNat), (0x0F48, 8, x.estat.toNat),
   (0x0F50, 8, x.escratch.toNat)] ++
  (x.m.toList.zipIdx.map fun (m, k) => (0x0F10 + 2 * k, 2, if k == 0 then 0xFFFF else m.toNat)) ++
  (x.cb.toList.zipIdx.map fun (w, k) => (0x0B00 + 4 * k, 4, w.toNat)) ++ x.imageEng ++
  (cs.zipIdx.flatMap fun ((e, c), k) =>
    (c.words.zipIdx.map fun (w, j) => (0x1000 + 40 * k + 4 * j, 4, w.toNat)) ++
      [(0x1020 + 40 * k, 4, c.ticket.toNat), (0x1024 + 40 * k, 4, (engNum e).val)]) ++ imageAccs ids

/-- The dirty registers (R337). -/
def Slot.imageRegs (x : Slot) : List (Nat × Nat × Nat) :=
  (x.s.toList.zipIdx.filterMap fun (w, k) =>
    if x.dirtyS.getLsbD k then some (0x0100 + 8 * k, 8, if k == 0 then 0 else w.toNat) else none) ++
  (x.v.toList.zipIdx.filterMap fun (w, k) => if x.dirtyV.getLsbD k then some (0x0300 + 64 * k, 64, w.toNat) else none)

/-- Fields written into a block. -/
def State.putFields (s : State) (cb : Nat) (l : List (Nat × Nat × Nat)) : State :=
  l.foldl (fun t f => t.putPhys (cb + f.1) (toBytes f.2.1 f.2.2)) s

/-- A channel as the image of its reader holds it (R336). -/
def Channel.image (ch : Channel) (n : Nat) : List (Nat × Nat × Nat) :=
  (0x1800 + 128 * n, 8, ch.word) :: ch.fifo.zipIdx.map fun (w, j) => (0x1808 + 128 * n + 8 * j, 8, w.toNat)

/-- The channels whose reader is a slot, as the image of that reader holds them (R26, R336). -/
def State.imageChans (s : State) (p : Nat) : List (Nat × Nat × Nat) :=
  (s.core (coreOf p)).chan.toList.zipIdx.flatMap fun (ch, n) =>
    if ch.en && ch.rslot.toNat == slotIdx p && !ch.rrel then ch.image n else [(0x1800 + 128 * n, 8, 0)]

/-- The control block of the task that reads a channel of a core, in its slot or out of it. -/
def State.readerBlock (s : State) (k : Nat) (ch : Channel) : Option Nat :=
  let r := k * 16 + ch.rslot.toNat
  if ch.rrel then none
  else if ch.rAway then (s.saved.find? fun e => e.2.pos == r).map (·.1)
  else if (s.slot r).live && (s.slot r).block != 0 then some (s.slot r).block else none

/-- The channels that a slot writes are saved into the images of their readers as it leaves (R26). -/
def State.saveWritten (s : State) (p : Nat) : State :=
  (s.core (coreOf p)).chan.toList.zipIdx.foldl (fun t (ch, n) =>
    if ch.en && ch.wslot.toNat == slotIdx p && !ch.wrel then
      match s.readerBlock (coreOf p) ch with | some cb => t.putFields cb (ch.image n) | none => t
    else t) s

/-- A change of the engine fields and the flags of a task out of its slot reaches its image (R22, R245). -/
def State.mirrorEng (s : State) (p : Nat) : State :=
  if p < 16384 then s
  else s.putFields p ((s.holder p).imageEng ++ [(0x0F28, 8, (s.holder p).fpcsr.toNat)])

/-! ### Scratchpad tile slots -/

/-- A word of a cluster's scratchpad. -/
def Cluster.spWord (c : Cluster) (i : Nat) : W32 := c.sp.getD i 0
/-- The 4096 bytes of a tile slot. -/
def Cluster.tileBytes (c : Cluster) (t : Nat) : List Byte :=
  (List.range 1024).flatMap fun k => toBytes 4 (c.spWord (1024 * t + k)).toNat
/-- A word written; a word 0 is not listed (entry 3). -/
def Cluster.putWord (c : Cluster) (i : Nat) (w : W32) : Cluster :=
  { c with sp := if w == 0 then c.sp.del i else c.sp.set i w, spPoison := c.spPoison.del i }
/-- A word becomes full. -/
def Cluster.fillWord (c : Cluster) (i : Nat) : Cluster := { c with spEmpty := c.spEmpty.del i }
/-- A word becomes empty. -/
def Cluster.emptyWord (c : Cluster) (i : Nat) : Cluster := { c with spEmpty := c.spEmpty.set i true }
/-- Every word of a tile slot becomes 0 and full: what a load that failed leaves (R177, R186). -/
def Cluster.zeroTile (c : Cluster) (t : Nat) : Cluster :=
  (List.range 1024).foldl (fun k j => (k.putWord (1024 * t + j) 0).fillWord (1024 * t + j)) c
/-- A word is full (R30). -/
def Cluster.full (c : Cluster) (i : Nat) : Bool := !c.spEmpty.has i
/-- A tile slot is locked by a `tst` (R198). -/
def Cluster.locked (c : Cluster) (t : Nat) : Bool := c.locks.contains t
/-- Every word of a tile slot becomes empty. -/
def Cluster.emptyTile (c : Cluster) (t : Nat) : Cluster := (List.range 1024).foldl (fun c k => c.emptyWord (1024 * t + k)) c

/-- A tile slot counts as written by a task (R28, R337). -/
def Slot.dirtyTile (x : Slot) (t : Nat) : Slot := { x with dirtyT := if x.dirtyT.contains t then x.dirtyT else t :: x.dirtyT }

/-! ### Leaving a slot -/

/-- Fills whose values are bound land before the image is written, since they may land at any time (R15). -/
def State.settleFills (s : State) (p : Nat) : State :=
  (s.slot p).accs.foldl (fun t a =>
    if a.bound && a.failed == none && t.canLand p a then
      (t.land p a).modAcc p a.id fun b => { b with dst := .none }
    else t) s |>.modSlot p Slot.sweep

/-- No part of the slot's accesses stands between a home slice and its acknowledgements: its accesses can be saved. -/
def Slot.settled (x : Slot) : Bool :=
  x.borrowed.isEmpty && x.accs.all fun a => a.parts.all fun y => y.acks.isEmpty && y.st != .updating

/-- A part whose page was not present. -/
def Part.pageFault (y : Part) : Bool := match y.st with | .bad 0x40 => true | .bad 0x41 => true | _ => false

/-- An access as it is saved: what is not performed starts again, and a load with a page-faulted lane as a whole (R177, R187,
R339). -/
def Access.rewind (a : Access) : Access :=
  let whole := a.isLoad && a.parts.any Part.pageFault
  { a with parts := a.parts.map fun y =>
      match y.st with
      | .walking _ => { y with st := .todo }
      | _ => if whole || y.pageFault then { y with st := .todo } else y }

/-- A request that waits for its version, or a store that has not read its source, is withdrawn when its task leaves
(R203); a store that holds a RESERVED version as well. -/
def TileReq.withdrawn (r : TileReq) : Bool :=
  match r.kind, r.st with
  | .drop, _ => false
  | .engLoad .., _ => false
  | .engStore .., _ => false
  | .digest _, _ => false
  | .watch _, _ => false
  | .remote .., _ => false
  | .remoteStore .., _ => false
  | _, .sent => true
  | _, .queued => true
  | .store .., .copying => true
  | .wait, .answered _ _ _ => true
  | .waitY, .answered _ _ _ => true
  | _, .bad 0x40 _ => true
  | _, _ => false

/-- A `twait` runs again, so that nothing of it is saved (R203, R339). -/
def TileReq.transient (r : TileReq) : Bool := match r.kind with | .wait => true | .waitY => true | _ => false

/-- The requests of a task that are withdrawn when it leaves its slot. -/
def State.withdrawals (s : State) (tid : Nat) : List (Nat × TileReq) :=
  s.tiles.filter fun e => e.2.tid == tid && e.2.withdrawn

/-- The bank of a core that a slot holds (R253): cluster banks are numbered as R253 gives. -/
def State.bankOf (s : State) (p : Nat) : Option Nat :=
  (((s.cluster (clusterOf p)).banks.find? fun e => e.2.owner == some p).map (·.1))

/-- The channels of a core with an end at a slot index marked away, or back (R26). -/
def State.chanAway (s : State) (p : Nat) (away : Bool) : State :=
  s.modCore (coreOf p) fun c => { c with chan := c.chan.map fun h =>
    if h.en then { h with wAway := if h.wslot.toNat == slotIdx p && !h.wrel then away else h.wAway,
                          rAway := if h.rslot.toNat == slotIdx p && !h.rrel then away else h.rAway }
    else h }

/-- Where a live member of a crew waits at `rejoin`, with its mask; one that a debug halt holds does not count as waiting (R229,
R413). -/
def State.rejoinAt (s : State) (ck m : Nat) : Option (Word × BitVec 8) :=
  let x := s.slot (crewSlot ck m)
  if (s.crew ck).live.getLsbD m && !x.halted then (match x.wait with | .rejoin t k _ => some (t, k) | _ => none) else none

/-- Waits at `rejoin` targets of a crew at which no member waits any longer end (R229). -/
def State.pruneRejoin (s : State) (ck : Nat) : State :=
  s.modCrew ck fun c => { c with rejoins := c.rejoins.filter fun r => (List.range 8).any fun m => (s.rejoinAt ck m).any (·.1 == r.1) }

/-- A wait at a `rejoin` target begins, unless a member waits there already (R229). -/
def Crew.awaitAt (c : Crew) (t : Word) (now : Nat) : Crew :=
  if c.rejoins.any (·.1 == t) then c else { c with rejoins := c.rejoins ++ [(t, now, false)] }

/-- A debug halt ends the wait of a slot at `rejoin`, and its resumption begins it again (R229, R413). -/
def State.rewait (s : State) (p : Nat) : State :=
  match (s.slot p).wait with
  | .rejoin t _ _ =>
    let u := s.pruneRejoin (s.crewKey p)
    if (s.slot p).halted then u else u.modCrew (s.crewKey p) fun c => c.awaitAt t s.now
  | _ => s

/-- A bank with another name for its binder. -/
def Bank.rename (old new : Nat) (b : Bank) : Bank := { b with owner := if b.owner == some old then some new else b.owner }
/-- A slot with another name for the binder that its handler serves. -/
def Slot.rename (old new : Nat) (x : Slot) : Slot :=
  { x with skim := x.skim.map fun k => { k with owner := if k.owner == old then new else k.owner } }
/-- A task that leaves its slot, or comes back, is named by its control block, or by its slot, wherever a bank or a skim
handler names it (R253, R339). -/
def State.rename (s : State) (old new : Nat) : State :=
  let cl (c : Cluster) : Cluster := { c with banks := c.banks.map fun e => (e.1, e.2.rename old new) }
  { s with slots := s.slots.map fun e => (e.1, e.2.rename old new), clusters := s.clusters.map fun e => (e.1, cl e.2) }

/-- Numbers in rising order. -/
def sortIds (l : List Nat) : List Nat :=
  l.foldl (fun t n => t.takeWhile (· < n) ++ n :: t.dropWhile (· < n)) []

/-- A task may leave its slot now: its accesses are settled and the fault queue can take an entry. -/
def State.canLeave (s : State) (p : Nat) : Bool := (s.settleFills p).slot p |>.settled

/-- A task leaves its slot with the STATE of R336: its image is written, its waits are withdrawn, its slot is freed or
held for a crew member that is parked or pre-empted (R332), and what has no layout is kept beside the image (R339, R361).
`tiles` are the tile slots saved with it. -/
def State.leave (s : State) (p state : Nat) (fault : Option Fault0) (waits : Option Nat) (tiles : List Nat) : State :=
  let s := (s.settleFills p).modSlot p fun x => { x with eng := x.eng.map Eng.passDiscarded }
  let x := s.slot p
  let cb := x.block
  let ck := s.crewKey p
  let held := x.crew && decide (state ≤ 2)
  let ws := s.withdrawals x.tid
  let ws := ws.filter fun e => some e.1 != waits
  let bank := s.bankOf p
  let gen := (s.physNum (cb + 0x50) 8 + 1) % 2 ^ 64
  let cl := s.cluster (clusterOf p)
  let ids := sortIds (x.accs.map (·.id) ++ (x.redo.map (·.id)).toList ++ (ws.filter fun e => !e.2.transient).map (·.1))
  let s := (s.putFields cb (s.imageHead p state gen tiles.length ids bank ++ x.imageRegs ++ s.imageChans p)).saveWritten p
  let s := tiles.zipIdx.foldl (fun t (e, k) =>
    (t.putPhys (cb + x.tileBase + 4096 * k) (cl.tileBytes e)).putPhys (cb + 0x80 + 2 * k) (toBytes 2 e)) s
  let s := ws.foldl (fun t e => t.withdraw e.1 e.2) s
  let s := s.chanAway p true
  let kept : Slot :=
    { x with accs := x.accs.map Access.rewind, dirtyS := 0, dirtyV := 0, dirtyT := x.dirtyT.filter fun e => !tiles.contains e,
             wait := .none, eng := x.eng.map fun e => { e with queue := e.queue.filter (·.started) } }
  let v : Saved := { x := kept, pos := p, tiles := ws.filter fun e => !e.2.transient, held := held, mates := [],
                     bank := bank.isSome, fault := fault, waits := waits, fates := x.fates }
  let s := s.detach ck (memberOf p)
  let s := s.setSlot p { Slot.init with use := if held then .held else .free }
  { ((s.pruneRejoin ck).rename p cb).forgetUnits p with saved := s.saved.set cb v }

/-- Cause of a page fault: LOAD_PAGE, STORE_PAGE, FETCH_PAGE; ACC of its entry (R360). -/
def accOf (cause : Nat) : Nat := if cause == 0x41 then 1 else if cause == 0x42 then 2 else 0

/-- A task parks on a page fault: image, KIND 0 entry, slot freed or held, fault message (R361). It waits while its
accesses are under way or the fault queue is full (R360). -/
def State.park (s : State) (p : Nat) (f : Fault0) (acc : Nat) : Option State :=
  let d := dieOf p
  let x := s.slot p
  let y := s.die d
  if x.use == .skim then some (s.skimStop p f.cause)
  else if !s.canLeave p || y.fqFull then none
  else
    let entry := y.fqNext
    let seq := y.fqSeq
    let e : FqEntry :=
      { kind := 0, page := f.addr / 2 ^ 16, asid := x.asid.toNat, acc := acc, cause := f.cause, cb := x.block,
        live := (s.posOf p).2, pos := (s.posOf p).1, addr := f.addr, key := x.key.toNat }
    let s := (s.leave p 1 (some f) none []).fqWrite d e
    let m : FaultMsg :=
      { router := clusterOf p, port := p / 16 % 8, asid := x.asid.toNat, page := f.addr / 2 ^ 16,
        cause := f.cause, addr := f.addr, die := d, inc := y.incarn, acc := acc, eng := false,
        who := some (.task x.block, entry, seq) }
    some { s with faultMsgs := s.faultMsgs.set s.seq m }.bump

/-! ### Values that reach a task's register from outside (R15, R133) -/

/-- The register of a task out of its slot is the writer's end of a channel (R24). -/
def State.awayWriter (s : State) (h : Nat) (d : SReg) : Bool :=
  (s.saved.get? h).any fun v => match s.role v.pos d with | .writer _ => true | _ => false

/-- A register of a task receives a value: on its slot, or in its image (R15, R133); `none` where a push waits, into a channel that
holds eight entries or that has an end out of its slot (R24, R26). -/
def State.fillTask (s : State) (h : Nat) (d : SReg) (w : Word) : Option State :=
  if d.val = 0 then some s
  else if h < 16384 then
    match s.role h d with
    | .writer n =>
      if (s.chan (coreOf h) n).takes then
        some ((s.writeS h d w).modSlot h fun y => { y with sFull := y.sFull ||| BitVec.twoPow 64 d.val })
      else none
    | _ => some (s.writeS h d w)
  else if s.awayWriter h d then none
  else
    let full := s.physNum (h + 0x0F00) 8
    some ((s.putPhys64 (h + 0x0100 + 8 * d.val) w.toNat).putPhys64 (h + 0x0F00) (full ||| 2 ^ d.val))

end Sys2Proof.Machine
end

