-- ==== Sys2Proof/Machine/Fetch.lean ====
section
/-!
DEFINITION. Instruction fetch (R58, R70, R71, R343) and the decoding of what was fetched (R68, steps 1 to 6).
-/

namespace Sys2Proof.Machine

/-- How the fetch of one code word ends. -/
inductive Fetched where
  | word (w : W32)
  /-- The fetch waits: for a walk (R350), or for a line or page that another package holds (R297). -/
  | far
  /-- The page is not present: the task parks (R361). -/
  | page (addr : Nat)
  /-- A precise trap (R70). -/
  | trap (cause : Nat) (addr : Nat)
  /-- A fetch at PRIV 1 from an address that names no memory (R343). -/
  | stop (addr : Nat)
deriving DecidableEq, Repr

/-- The current bytes of the line of an address, at the frame of that line; none while another package's memory has to be asked for
them. -/
def State.codeLine (s : State) (asid va frame : Nat) : Option (List Byte) :=
  match s.line asid va with
  | some l => some l.cur
  | none =>
    match s.phys frame with
    | .host _ => some ((List.range 64).map fun k => Config.hostByte s.tick (frame + k))
    | .dram _ => some (s.mem.bytes frame 64)
    | _ => none

/-- Lines of 64 bytes in the cluster instruction cache and in a core's private instruction buffer (R28, R30). -/
def clusterCodeLines : Nat := 1024
/-- Lines of the private instruction buffer. -/
def coreCodeLines : Nat := 128

/-- The fetched lines with one more: where all places are taken, the line listed first goes. -/
def keepCode (t : SMap CodeLine) (places key : Nat) (b : CodeLine) : SMap CodeLine :=
  (if t.has key || decide (t.length < places) then t else t.tail).set key b

/-- The lines that a slot's fetches find nearby: its cluster's for an attached member of a crew, its core's own for a
detached slot (R28, R30). -/
def State.codeNear (s : State) (p : Nat) : SMap CodeLine :=
  if s.attached p then (s.cluster (clusterOf p)).code else (s.core (coreOf p)).code

/-- A fetched line is kept where the slot's fetches look for it. -/
def State.keepLine (s : State) (p key : Nat) (b : CodeLine) : State :=
  if s.attached p then s.modCluster (clusterOf p) fun c => { c with code := keepCode c.code clusterCodeLines key b }
  else s.modCore (coreOf p) fun c => { c with code := keepCode c.code coreCodeLines key b }

/-- What tells the code of a task's launch apart: its control block, or the address space of a task without one. -/
def Slot.codeTeam (x : Slot) : Nat := if x.lnch == 0 then x.asid.toNat else x.lnch

/-- The contents of a line that a fetch may return: the current ones, those fetched before, and those replaced since the launch of
the slot's task began (R71). -/
def State.codeLines (s : State) (p key frame : Nat) (cur : Option (List Byte)) : List (List Byte) :=
  cur.toList ++ (((s.codeNear p).get? key).map (·.bytes)).toList ++
    (s.olds.filter fun o => o.frame == frame && decide (s.codeAt.getD (s.slot p).codeTeam 0 ≤ o.at_)).map (·.bytes)

/-- The word at an address of a line whose frame and attributes are known, one of those that R71 allows, chosen for each fetch. -/
def State.codeWord (s : State) (p asid va frame : Nat) (at_ : Attr) : State × W32 :=
  let base := frame / 64 * 64
  let cur := s.codeLine asid va base
  let key := lineKey asid va
  let ls := s.codeLines p key base cur
  let pick (b : List Byte) : W32 := BitVec.ofNat 32 (ofBytes (slice b (va % 64) 4))
  let first := ls.headD []
  (s.keepLine p key (((s.codeNear p).get? key).getD { frame := base, attr := at_, bytes := first }),
   if ls.tail.all (pick · == pick first) then pick first else pick (ls.getD (Config.codePick s.tick va % ls.length) first))

/-- A cluster without the code that it has fetched. -/
def Cluster.clearCode (c : Cluster) : Cluster := { c with code := [] }
/-- A core without the code that it has fetched. -/
def Core.clearCode (c : Core) : Core := { c with code := [] }
/-- A launch begins: its tasks see all code written before it, so nothing fetched earlier is kept, and what was replaced earlier
is not theirs to find (R71). -/
def State.launchCode (s : State) (team : Nat) : State :=
  { s with clusters := s.clusters.map fun e => (e.1, e.2.clearCode), cores := s.cores.map fun e => (e.1, e.2.clearCode),
           codeAt := s.codeAt.set team s.tick }

/-- The 32-bit word at an address, read by the instruction-fetch path of a slot (R128, R343). A line that the slot's cluster or core
holds is not translated again: its recorded attributes say whether the fetch may read it (R348). -/
def State.fetchWord (s : State) (p : Nat) (a : Word) : State × Fetched :=
  let x := s.slot p
  let va := a.toNat
  let asid := if x.priv != 0 then 0 else x.asid.toNat
  let near := (s.codeNear p).get? (lineKey asid va)
  let read (t : State) (f : Nat) (at_ : Attr) : State × Fetched :=
    let r := t.codeWord p asid va f at_
    (r.1, .word r.2)
  if x.priv != 0 then
    if s.phys va == .none then (s, .stop va)
    else if near.isSome then read s va .window
    else if s.physPoison va then (s, .trap 0x45 va)
    else match (if s.line 0 va == none then s.farNeeds (dieOf p) 0 va va .window false else none) with
      | some t => (t, .far)
      | none => read s va .window
  else if 2 ^ 56 ≤ va then (s, .trap 0x43 va)
  else if let some c := near then
    if c.attr.allows { x := true, u := true } then read s (c.frame + va % 64) c.attr else (s, .trap 0x43 va)
  else
    match s.xlate (.slot p) (dieOf p) asid va with
    | (s, .fail c) => (s, if c == 0 then .page va else .trap c va)
    | (s, .miss) => (s, .far)
    | (s, .ok f at_) =>
      if !at_.allows { x := true, u := true } then (s, .trap 0x43 va)
      else match (if s.line asid va == none then s.farNeeds (dieOf p) asid va f at_ false else none) with
        | some t => (t, .far)
        | none =>
          if (match s.line asid va with | some l => l.poison | none => s.poisonAt f) then (s, .trap 0x45 va)
          else read s f at_

/-- What stands at an instruction address: an instruction with its words, a word that decodes to none, or a failed
fetch (R68). -/
inductive Got where
  | instr (i : Instr)
  | bad (w : W32) (r : Reject)
  | fault (f : Fetched)
deriving DecidableEq, Repr

/-- The feature of an instruction that may carry a literal; it is checked before the literal is fetched (step 4 of R68). -/
def literalFeature (i : Instr) : Option Nat :=
  match i with
  | .vdottT2 .. => some 2
  | .digestAdd .. => some 9
  | .digestEnd .. => some 9
  | _ => none

/-- Fetch and decode at an address: steps 1 to 6 of R68. -/
def State.fetchInstr (s : State) (p : Nat) (a : Word) : State × Got × W32 × Option W32 :=
  match s.fetchWord p a with
  | (s, .word w) =>
    match decode w.toNat 0 with
    | .error r => (s, .bad w r, w, none)
    | .ok i =>
      if i.literal.isSome && (literalFeature i).all s.feature then
        match s.fetchWord p (a + 4) with
        | (s, .word l) =>
          match decode w.toNat l with
          | .ok j => (s, .instr j, w, some l)
          | .error r => (s, .bad w r, w, some l)
        | (s, f) => (s, .fault f, w, none)
      else (s, .instr i, w, none)
  | (s, f) => (s, .fault f, 0, none)

/-- A failed fetch of the issuing slot: it parks, traps, or stops with a MACHINE_CHECK report (R70, R343, R361). -/
def State.fetchFault (s : State) (f : Fetched) : Out :=
  let p := s.cur
  match f with
  | .word _ => .next s
  | .far => .next s
  | .page a => .next ((s.park p { cause := 0x42, addr := a, id := none, refused := false } 2).getD s)
  | .trap c a => s.trap c (BitVec.ofNat 64 a) false
  | .stop a =>
    .next ((s.reportTask p 0xC0 false 2 a).modSlot p fun x => { x with halted := true, stepOne := false })

end Sys2Proof.Machine
end

