-- ==== Sys2Proof/Machine/Control.lean ====
section
/-!
DEFINITION. Control transfers (R122–R128), `nop`, `trap`, `eret`, `halt` (R136–R139), `fence` (R143–R145), and the trap
of a word that decodes to no instruction (R67, R68).
-/

namespace Sys2Proof.Machine

/-- Target of a relative transfer (R123, R126). -/
def target {n : Nat} (pc : Word) (off : BitVec n) : Word := pc + 4 * off.signExtend 64

/-- A register-compare branch (R123). -/
def branch (f : Word → Word → Bool) (a b : SSrc) (off : BitVec 11) (s : State) : Out :=
  let q : Form := { srcs := [sref a, sref b], dsts := [], lit := false }
  s.gate q (.next ((s.pops q).goTo (if f (s.sval q 0) (s.sval q 1) then target s.me.pc off else s.me.pc + 4)))

/-- `br.eq` (R123). -/
def execBrEq (a b : SSrc) (off : BitVec 11) (s : State) : Out := branch (fun x y => x == y) a b off s
/-- `br.ne` (R123). -/
def execBrNe (a b : SSrc) (off : BitVec 11) (s : State) : Out := branch (fun x y => x != y) a b off s
/-- `br.lt`, signed (R123). -/
def execBrLt (a b : SSrc) (off : BitVec 11) (s : State) : Out := branch BitVec.slt a b off s
/-- `br.ge`, signed (R123). -/
def execBrGe (a b : SSrc) (off : BitVec 11) (s : State) : Out := branch (fun x y => !x.slt y) a b off s
/-- `br.ltn`, unsigned (R123). -/
def execBrLtn (a b : SSrc) (off : BitVec 11) (s : State) : Out := branch BitVec.ult a b off s
/-- `br.gen`, unsigned (R123). -/
def execBrGen (a b : SSrc) (off : BitVec 11) (s : State) : Out := branch (fun x y => !x.ult y) a b off s

/-- A mask branch (R124). -/
def maskBranch (f : Mask → Bool) (m : MReg) (off : BitVec 11) (s : State) : Out :=
  .next (s.goTo (if f (s.me.mask m) then target s.me.pc off else s.me.pc + 4))

/-- `br.any` (R124). -/
def execBrAny (a : MReg) (off : BitVec 11) (s : State) : Out := maskBranch (· != 0) a off s
/-- `br.all` (R124). -/
def execBrAll (a : MReg) (off : BitVec 11) (s : State) : Out := maskBranch (· == 0xFFFF) a off s
/-- `br.none` (R124). -/
def execBrNone (a : MReg) (off : BitVec 11) (s : State) : Out := maskBranch (· == 0) a off s
/-- `br.nall` (R124). -/
def execBrNall (a : MReg) (off : BitVec 11) (s : State) : Out := maskBranch (· != 0xFFFF) a off s

/-- `bra` (R126). -/
def execBra (off : BitVec 25) (s : State) : Out := .next (s.goTo (target s.me.pc off))

/-- `call` with an offset: s1 takes the address after it (R126). -/
def execCall (off : BitVec 25) (s : State) : Out :=
  let q := form0 [.s 1]
  s.gate q (.next ((s.put 1 (s.me.pc + 4)).goTo (target s.me.pc off)))

/-- An address has its two low bits 0 (R70). -/
def aligned4 (a : Word) : Bool := a.extractLsb' 0 2 == 0

/-- `jr` (R127). -/
def execJr (a : SSrc) (s : State) : Out :=
  let q := formA [] a
  let t := s.sval q 0
  s.gate q (if aligned4 t then .next ((s.pops q).goTo t) else s.trap 0x07 (wordOf (.jr a)) false)

/-- `call` with a register: the register is read before s1 is written (R127). -/
def execCallReg (a : SSrc) (s : State) : Out :=
  let q := formA [.s 1] a
  let t := s.sval q 0
  s.gate q (if aligned4 t then .next (((s.pops q).put 1 (s.me.pc + 4)).goTo t) else s.trap 0x07 (wordOf (.callReg a)) false)

/-- `jtab` (R128). -/
def execJtab (a : SSrc) (len : BitVec 12) (s : State) : Out :=
  let q := formA [] a
  let i := s.sval q 0
  s.gate q
    (if len.toNat ≤ i.toNat then s.trap 0x06 i false
     else
       match s.fetchWord s.cur (s.me.pc + 4 + 4 * i) with
       | (t, .word e) =>
         if e.extractLsb' 0 2 != 0 then t.trap 0x07 (wordOf (.jtab a len)) false
         else .next ((t.pops q).goTo (s.me.pc + 4 + e.signExtend 64))
       | (t, f) => t.fetchFault f)

/-- `nop` (R136). -/
def execNop (s : State) : Out := .next (s.retire (form0 []))

/-- `trap`: `ctl.epc` holds the address of the next instruction (R137). -/
def execTrap (_ : BitVec 8) (s : State) : Out := .next (s.issuedNow.takeTrap s.cur 0x08 0 false (s.me.pc + 4))

/-- `eret` (R138, R49): PC goes to `ctl.epc`, and a member that was attached resumes detached, since it returns to the attached set
only through `rejoin`. -/
def execEret (s : State) : Out :=
  s.needPriv .eret
    (let x := s.me
     if 2 ≤ (x.estat.extractLsb' 0 2).toNat then s.trap 0x02 (wordOf .eret) false
     else if !aligned4 x.epc then s.trap 0x07 (wordOf .eret) false
     else .next (((s.detach (s.crewKey s.cur) (memberOf s.cur)).goTo x.epc).modMe Slot.eret))

/-- `halt`: the slot stops; a resume continues after it (R139). -/
def execHalt (s : State) : Out :=
  s.needPriv .halt (.next ((s.retire (form0 [])).modMe fun x => { x with halted := true }))

/-- Compute dies in service. -/
def State.upMask (s : State) : Nat := s.up.toNat % 256

/-- An earlier access lets a fence pass: a load is bound, a write is performed with respect to the dies of the mask
(R144). -/
def Access.fenced (mask : Nat) (a : Access) : Bool :=
  if a.isLoad then a.bound else a.parts.all fun x => x.performedFor mask

/-- Every earlier access is fenced with respect to a die mask, and so is every write read from a pending reply (R144,
R294, R405). -/
def State.fenced (s : State) (p mask : Nat) : Bool :=
  let x := s.slot p
  (x.accs.all fun a => a.fenced mask) && (x.borrowed.all fun b => b.2.all fun d => !mask.testBit d) && !s.digesting x.tid s.seq

/-- The dies whose observers a scope names; those out of service are skipped (R143). -/
def State.scopeMask (s : State) (p : Nat) (scope a : Nat) : Nat :=
  if scope < 3 then 2 ^ dieOf p else (a % 256 ||| 2 ^ dieOf p) &&& s.upMask

/-- `fence` (R144). -/
def execFence (a : SSrc) (scope : Fin 6) (s : State) : Out :=
  let q := formA [] a
  s.gate q
    (if s.fenced s.cur (s.scopeMask s.cur scope.val (s.sval q 0).toNat) then .next ((s.pops q).retire q) else s.waits)

/-- ILLEGAL_OPCODE: a word of a reserved row (R67, step 2 of R68). -/
def execIllegalOpcode (w : W32) (s : State) : Out := s.trap 0x01 (w.zeroExtend 64) false

/-- A word of an allocated row that is no instruction: FEATURE_ABSENT where its feature is not accepted, else
ILLEGAL_FIELD (steps 3 to 5 of R68). -/
def State.illegalField (s : State) (w : W32) (feature : Option Nat) : Out :=
  match feature with
  | some n => s.trap (if s.feature n then 0x02 else 0x04) (w.zeroExtend 64) false
  | none => s.trap 0x02 (w.zeroExtend 64) false

end Sys2Proof.Machine
end

