-- ==== Sys2Proof/Machine/MemInstr.lean ====
section
/-!
DEFINITION. Memory and scratchpad instructions (R174–R190, R192–R195): the checks at issue, and the access that each
instruction starts.
-/

namespace Sys2Proof.Machine

/-! ### Checks at issue (R174–R176) -/

/-- The address-space entry of the issuing slot is usable (check 2 of R176, R38). -/
def State.ctxCheck (s : State) (tval : Word) (lit : Bool) (k : Out) : Out :=
  if s.me.asid = 0 then k
  else match s.ctx (dieOf s.cur) s.me.asid.toNat with
    | .ok _ _ _ _ => k
    | .invalid => s.trap 0x46 tval lit
    | .poisoned => s.trap 0x45 tval lit
    | .far a => .next (s.askFar (dieOf s.cur) a)

/-- Range and alignment of a virtual address (checks 5 and 6 of R176). -/
def State.vaCheck (s : State) (a : Word) (size : Nat) (lit : Bool) (k : Out) : Out :=
  if 2 ^ 56 ≤ a.toNat then s.trap 0x43 a lit
  else if a.toNat % size != 0 then s.trap 0x44 a lit
  else k

/-- Range, alignment and tile slot of a scratchpad offset (checks 5 to 7 of R176). -/
def State.spCheck (s : State) (a : Word) (size : Nat) (lit : Bool) (k : Out) : Out :=
  if 2 ^ 23 ≤ a.toNat then s.trap 0x43 a lit
  else if a.toNat % size != 0 then s.trap 0x44 a lit
  else if (s.cluster (clusterOf s.cur)).retired.contains (a.toNat / 4096) then s.trap 0x45 a lit
  else k

/-- A request that an engine makes for a slot. -/
def TileReq.ofEngine (r : TileReq) : Bool := match r.kind with | .engLoad .. => true | .engStore .. => true | _ => false

/-- Outstanding accesses and tile requests of a slot's task, those of its engines apart (R337). -/
def State.outstanding (s : State) (p : Nat) : Nat :=
  (s.slot p).accs.length +
    (s.tiles.filter fun e => e.2.tid == (s.slot p).tid && !e.2.ofEngine).length

/-- A further access waits at issue while 32 are outstanding (R337). -/
def State.roomForAccess (s : State) (k : Out) : Out := if s.outstanding s.cur < 32 then k else s.waits

/-- Effective address of the M format (R62, R174). -/
def effective (base : Word) (off : BitVec 10) (size : Nat) : Word := base + off.signExtend 64 * BitVec.ofNat 64 size

/-! ### Starting an access -/

/-- One part of an access. -/
def mkPart (va size lane data : Nat) : Part := { va := va, size := size, lane := lane, data := data, st := .todo, acks := [] }

/-- The issuing slot starts an access; its destination becomes empty (R11, R298). -/
def State.start (s : State) (kind : AccKind) (h : Hint) (sp : Bool) (parts : List Part) (dst : FillDst) : State :=
  let x := s.me
  let a : Access :=
    { id := s.seq, kind := kind, asid := x.asid.toNat, user := x.priv == 0, hint := h, sp := sp, parts := parts, dst := dst,
      since := s.now, reported := false }
  let y : Slot := match dst with
    | .s d _ _ => x.empty d
    | .v d _ => x.emptyV d
    | .none => x
  (s.modMe fun _ => { y with accs := y.accs ++ [a] }).bump

/-- Sixteen parts of a vector access (R178, R180). -/
def laneParts (va : Nat) (m : Mask) (data : Vec) (at_ : Nat → Nat) : List Part :=
  (List.range 16).filterMap fun i => if m.getLsbD i then some (mkPart (va + at_ i) 4 i (lane data i).toNat) else none

/-- A load of the M format (R180). -/
def load (size : Nat) (signed : Bool) (d : SReg) (b : SSrc) (h : Hint) (off : BitVec 10) (s : State) : Out :=
  let q := formA [.fillS d] b
  let a := effective (s.sval q 0) off size
  s.gate q <| s.ctxCheck a false <| s.vaCheck a size false <| s.roomForAccess <|
    .next (((s.pops q).start (.load false false) h false [mkPart a.toNat size 0 0] (.s d signed size)).retire q)

/-- `ld.i8` (R180). -/
def execLdI8 (d : SReg) (b : SSrc) (h : Hint) (off : BitVec 10) (s : State) : Out := load 1 true d b h off s
/-- `ld.n8` (R180). -/
def execLdN8 (d : SReg) (b : SSrc) (h : Hint) (off : BitVec 10) (s : State) : Out := load 1 false d b h off s
/-- `ld.i16` (R180). -/
def execLdI16 (d : SReg) (b : SSrc) (h : Hint) (off : BitVec 10) (s : State) : Out := load 2 true d b h off s
/-- `ld.n16` (R180). -/
def execLdN16 (d : SReg) (b : SSrc) (h : Hint) (off : BitVec 10) (s : State) : Out := load 2 false d b h off s
/-- `ld.i32` (R180). -/
def execLdI32 (d : SReg) (b : SSrc) (h : Hint) (off : BitVec 10) (s : State) : Out := load 4 true d b h off s
/-- `ld.n32` (R180). -/
def execLdN32 (d : SReg) (b : SSrc) (h : Hint) (off : BitVec 10) (s : State) : Out := load 4 false d b h off s
/-- `ld.i64` (R180). -/
def execLdI64 (d : SReg) (b : SSrc) (h : Hint) (off : BitVec 10) (s : State) : Out := load 8 true d b h off s

/-- A store of the M format: base b, then the data register, read with wait bit 0 (R180). -/
def store (size : Nat) (d : SReg) (b : SSrc) (h : Hint) (off : BitVec 10) (s : State) : Out :=
  let q : Form := { srcs := [sref b, .s d false], dsts := [], lit := false }
  let a := effective (s.sval q 0) off size
  s.gate q <| s.ctxCheck a false <| s.vaCheck a size false <| s.roomForAccess <|
    .next (((s.pops q).start (.store false false) h false
      [mkPart a.toNat size 0 ((s.sval q 1).toNat % 2 ^ (8 * size))] .none).retire q)

/-- `st.i8` (R180). -/
def execStI8 (d : SReg) (b : SSrc) (h : Hint) (off : BitVec 10) (s : State) : Out := store 1 d b h off s
/-- `st.i16` (R180). -/
def execStI16 (d : SReg) (b : SSrc) (h : Hint) (off : BitVec 10) (s : State) : Out := store 2 d b h off s
/-- `st.i32` (R180). -/
def execStI32 (d : SReg) (b : SSrc) (h : Hint) (off : BitVec 10) (s : State) : Out := store 4 d b h off s
/-- `st.i64` (R180). -/
def execStI64 (d : SReg) (b : SSrc) (h : Hint) (off : BitVec 10) (s : State) : Out := store 8 d b h off s

/-- `vld` (R180). -/
def execVld (d : VReg) (b : SSrc) (h : Hint) (off : BitVec 10) (s : State) : Out :=
  let q := formA [.fillV d] b
  let a := effective (s.sval q 0) off 64
  s.gate q <| s.ctxCheck a false <| s.vaCheck a 64 false <| s.roomForAccess <|
    .next (((s.pops q).start (.load false false) h false (laneParts a.toNat (BitVec.allOnes 16) 0 (4 * ·))
      (.v d (BitVec.allOnes 16))).retire q)

/-- `vst` (R180). -/
def execVst (d : VReg) (b : SSrc) (h : Hint) (off : BitVec 10) (s : State) : Out :=
  let q : Form := { srcs := [sref b, .v d false], dsts := [], lit := false }
  let a := effective (s.sval q 0) off 64
  s.gate q <| s.ctxCheck a false <| s.vaCheck a 64 false <| s.roomForAccess <|
    .next (((s.pops q).start (.store false false) h false
      (laneParts a.toNat (BitVec.allOnes 16) (s.vval q 1) (4 * ·)) .none).retire q)

/-! ### Scratchpad (R182–R184) -/

/-- Bytes of a cluster's scratchpad from an offset. -/
def Cluster.spBytes (c : Cluster) (off n : Nat) : List Byte :=
  (List.range n).map fun k => BitVec.ofNat 8 ((c.spWord ((off + k) / 4)).toNat / 2 ^ (8 * ((off + k) % 4)))
/-- One byte written; the poison mark of a word written in part stays (R397). -/
def Cluster.putSpByte (c : Cluster) (off : Nat) (b : Byte) : Cluster :=
  let w := (c.spWord (off / 4)).toNat
  let sh := 2 ^ (8 * (off % 4))
  let w' : W32 := BitVec.ofNat 32 (w - w / sh % 256 * sh + b.toNat * sh)
  { c with sp := if w' == 0 then c.sp.del (off / 4) else c.sp.set (off / 4) w' }
/-- Bytes written; whole words lose their poison mark (R397). -/
def Cluster.putSp (c : Cluster) (off : Nat) (d : List Byte) : Cluster :=
  let c' := d.zipIdx.foldl (fun t (b, k) => t.putSpByte (off + k) b) c
  if off % 4 == 0 then (List.range (d.length / 4)).foldl (fun t k => { t with spPoison := t.spPoison.del (off / 4 + k) }) c' else c'
/-- Some word of a range is poisoned. -/
def Cluster.spBad (c : Cluster) (off n : Nat) : Bool :=
  (List.range ((off % 4 + n + 3) / 4)).any fun k => c.spPoison.has (off / 4 + k)

/-- Some tile slot of a range is retired (R395). -/
def Cluster.spGone (c : Cluster) (off n : Nat) : Bool :=
  (List.range ((off % 4096 + n + 4095) / 4096)).any fun k => c.retired.contains (off / 4096 + k)

/-- The issuing slot's cluster. -/
def State.myCl (s : State) : Cluster := s.cluster (clusterOf s.cur)

/-- The tile slots of a list of offsets get their dirty bits (R28). -/
def Slot.touchTiles (x : Slot) (offs : List Nat) : Slot :=
  { x with dirtyT := offs.foldl (fun l o => if l.contains (o / 4096) then l else (o / 4096) :: l) x.dirtyT }

/-- A tile slot is locked for a write of a slot: a `tst` holds it that is not a later one of the slot's own (R198, R199). -/
def State.lockedFor (s : State) (p id t : Nat) : Bool :=
  let own := s.tiles.filter fun e =>
    e.2.slot == p && e.2.tid == (s.slot p).tid && decide (id < e.1) && e.2.holds && e.2.kind.locks == some t
  decide (own.length < (((s.cluster (clusterOf p)).locks.filter (· == t)).length))

/-- A part of a scratchpad access is performed, if the slot's earlier accesses let it and, for a synchronising load, its words are
full (R178, R182–R184, R189): a load binds its value or takes POISON (R397), a store writes its bytes, a `clrfe` empties
its words. -/
def State.spPerform (s : State) (p : Nat) (a : Access) (k : Nat) (x : Part) : Option State :=
  let c := s.cluster (clusterOf p)
  let ws := (List.range ((x.size + 3) / 4)).map (x.va / 4 + ·)
  if !s.ordered p a x then none
  else
    match a.kind with
    | .load _ sync =>
      if sync && !ws.all c.full then none
      else some (s.setPart p a.id k (if c.spBad x.va x.size then .bad 0x45 else .done (ofBytes (c.spBytes x.va x.size))))
    | .store _ fill =>
      if s.lockedFor p a.id (x.va / 4096) then none
      else
        let put (c : Cluster) : Cluster :=
          let c := c.putSp x.va (toBytes x.size x.data)
          if fill then ws.foldl Cluster.fillWord c else c
        some ((s.modCluster (clusterOf p) put).setPart p a.id k (.done 0))
    | .clear => some ((s.modCluster (clusterOf p) fun c => ws.foldl Cluster.emptyWord c).setPart p a.id k (.done 0))
    | _ => none

/-- Every part of a scratchpad access that may be performed at its issue is; the others follow when the accesses before them
allow it (R182). -/
def State.spNow (s : State) (p id n : Nat) : State :=
  (List.range n).foldl (fun t k =>
    match t.acc p id with
    | some a => ((a.parts[k]?).bind fun x => if x.st == .todo then t.spPerform p a k x else none).getD t
    | none => t) s

/-- The issuing slot starts a scratchpad access (R182). -/
def State.startSp (s : State) (kind : AccKind) (parts : List Part) (dst : FillDst) : State :=
  let t := s.start kind .dflt true parts dst
  let t := match kind with | .store _ _ => t.modMe fun x => x.touchTiles (parts.map Part.va) | _ => t
  (t.spNow s.cur s.seq parts.length).modSlot s.cur Slot.sweep

/-- A scratchpad load (R182). -/
def loadSp (signed : Bool) (d : SReg) (b : SSrc) (z : Size) (off : BitVec 10) (s : State) : Out :=
  let q := formA [.fillS d] b
  let a := effective (s.sval q 0) off z.bytes
  s.gate q <| s.spCheck a z.bytes false <| s.roomForAccess <|
    .next (((s.pops q).startSp (.load false false) [mkPart a.toNat z.bytes 0 0] (.s d signed z.bytes)).retire q)

/-- `ld.sp.i` (R182). -/
def execLdSp (d : SReg) (b : SSrc) (z : Size) (off : BitVec 10) (s : State) : Out := loadSp true d b z off s
/-- `ld.sp.n` (R182). -/
def execLdSpN (d : SReg) (b : SSrc) (z : Size) (off : BitVec 10) (s : State) : Out := loadSp false d b z off s

/-- A store into a tile slot that a `tst` has locked waits (R198). -/
def State.unlocked (s : State) (off : Nat) (k : Out) : Out := if s.myCl.locked (off / 4096) then s.waits else k

/-- `st.sp` (R182). -/
def execStSp (d : SReg) (b : SSrc) (z : Size) (off : BitVec 10) (s : State) : Out :=
  let q : Form := { srcs := [sref b, .s d false], dsts := [], lit := false }
  let a := effective (s.sval q 0) off z.bytes
  s.gate q <| s.spCheck a z.bytes false <| s.unlocked a.toNat <| s.roomForAccess <|
    .next (((s.pops q).startSp (.store false false)
      [mkPart a.toNat z.bytes 0 ((s.sval q 1).toNat % 2 ^ (8 * z.bytes))] .none).retire q)

/-- `vld.sp` (R182). -/
def execVldSp (d : VReg) (b : SSrc) (off : BitVec 10) (s : State) : Out :=
  let q := formA [.fillV d] b
  let a := effective (s.sval q 0) off 64
  s.gate q <| s.spCheck a 64 false <| s.roomForAccess <|
    .next (((s.pops q).startSp (.load false false) (laneParts a.toNat (BitVec.allOnes 16) 0 (4 * ·))
      (.v d (BitVec.allOnes 16))).retire q)

/-- `vst.sp` (R182). -/
def execVstSp (d : VReg) (b : SSrc) (off : BitVec 10) (s : State) : Out :=
  let q : Form := { srcs := [sref b, .v d false], dsts := [], lit := false }
  let a := effective (s.sval q 0) off 64
  s.gate q <| s.spCheck a 64 false <| s.unlocked a.toNat <| s.roomForAccess <|
    .next (((s.pops q).startSp (.store false false) (laneParts a.toNat (BitVec.allOnes 16) (s.vval q 1) (4 * ·)) .none).retire q)

/-- `ldsync`: the wait takes place at the word (R183). -/
def execLdsync (d : SReg) (b : SSrc) (mem wide : Bool) (off : BitVec 10) (s : State) : Out :=
  let q := formA [.fillS d] b
  let size := if wide then 8 else 4
  let a := effective (s.sval q 0) off size
  let parts := [mkPart a.toNat size 0 0]
  s.gate q <|
    if mem then s.ctxCheck a false <| s.vaCheck a size false <| s.roomForAccess <|
      .next (((s.pops q).start (.load false true) .dflt false parts (.s d false size)).retire q)
    else s.spCheck a size false <| s.roomForAccess <|
      .next (((s.pops q).startSp (.load false true) parts (.s d false size)).retire q)

/-- `stfill` (R184). -/
def execStfill (a : SSrc) (b : SOpd) (mem wide : Bool) (s : State) : Out :=
  let q := formR [] a b
  let size := if wide then 8 else 4
  let addr := s.sval q 0
  let v := (s.bval q 1 .zext b).toNat % 2 ^ (8 * size)
  s.gate q <|
    if mem then
      s.ctxCheck addr q.lit <| s.vaCheck addr size q.lit <| s.roomForAccess <|
        .next (((s.pops q).start (.store false true) .dflt false [mkPart addr.toNat size 0 v] .none).retire q)
    else
      s.spCheck addr size q.lit <| s.unlocked addr.toNat <| s.roomForAccess <|
        .next (((s.pops q).startSp (.store false true) [mkPart addr.toNat size 0 v] .none).retire q)

/-- The pieces of a range that lie in one line each. -/
def linePieces (a n : Nat) : List (Nat × Nat) :=
  (List.range ((a % 64 + n + 63) / 64)).map fun k =>
    let lo := Nat.max a ((a / 64 + k) * 64)
    (lo, Nat.min (a + n) ((a / 64 + k + 1) * 64) - lo)

/-- `clrfe` (R184): the operand checks, then the words of the range become empty. -/
def execClrfe (a : SSrc) (b : SOpd) (mem : Bool) (s : State) : Out :=
  let q := formR [] a b
  let addr := s.sval q 0
  let n := (s.bval q 1 .zext b).toNat
  let breach : Bool := addr.toNat % 4 != 0 || n % 4 != 0 || decide (4096 < n) || decide (4096 < addr.toNat % 4096 + n)
  let sp (k : Out) : Out := if breach then s.trap 0x44 addr q.lit else k
  s.gate q <|
    if mem then
      s.ctxCheck addr q.lit <| sp <| s.vaCheck addr 4 q.lit <|
        if n == 0 then .next ((s.pops q).retire q)
        else s.roomForAccess <|
          .next (((s.pops q).start .clear .dflt false
            ((linePieces addr.toNat n).map fun c => mkPart c.1 c.2 0 0) .none).retire q)
    else
      sp <| s.spCheck addr 4 q.lit <|
        if n == 0 then .next ((s.pops q).retire q)
        else s.roomForAccess <| .next (((s.pops q).startSp .clear [mkPart addr.toNat n 0 0] .none).retire q)

/-! ### Gathers and scatters (R187) -/

/-- The address of lane i (R187). -/
def laneAddr (a : Word) (b : Vec) (i : Nat) : Word := a + 4 * (lane b i).zeroExtend 64

/-- The checks of a gather or scatter, each over every active lane before the next: the range of the lanes' addresses, the
alignment of the base, and the tile slots of the lanes (checks 5 to 7 of R176). -/
def State.laneChecks (s : State) (a : Word) (b : Vec) (m : Mask) (sp lit : Bool) (k : Out) : Out :=
  let ls := ((List.range 16).filter fun i => m.getLsbD i).map (laneAddr a b)
  match ls.find? fun x => decide ((if sp then 2 ^ 23 else 2 ^ 56) ≤ x.toNat) with
  | some x => s.trap 0x43 x lit
  | none =>
    if a.toNat % 4 != 0 then s.trap 0x44 a lit
    else
      match ls.find? fun x => sp && (s.cluster (clusterOf s.cur)).retired.contains (x.toNat / 4096) with
      | some x => s.trap 0x45 x lit
      | none => k

/-- `vgather`, `vgather.sp`: with no active lane, nothing is awaited (R187). Where the context cannot be used, `ctl.tval` holds the base
address, as it does for `vscatter` (entry 68). -/
def execVgather (d : VReg) (a : LSrc) (b : VOpd) (m : MReg) (sp : Bool) (s : State) : Out :=
  let q : Form := { srcs := lref a :: brefV b, dsts := [.fillV d], lit := isLit b }
  let base := s.sval q 0
  let ix := s.bvec q 1 b
  let mk := s.me.mask m
  let ls := (List.range 16).filter fun i => mk.getLsbD i
  let parts := ls.map fun i => mkPart (laneAddr base ix i).toNat 4 i 0
  let go : Out :=
    if ls.isEmpty then .next ((s.pops q).retire q)
    else s.roomForAccess <| .next
      ((if sp then (s.pops q).startSp (.load false false) parts (.v d mk)
        else (s.pops q).start (.load false false) .dflt false parts (.v d mk)).retire q)
  s.gate q <|
    if sp then s.laneChecks base ix mk true q.lit go
    else s.ctxCheck base q.lit <| s.laneChecks base ix mk false q.lit go

/-- `vscatter`, `vscatter.sp` (R187). -/
def execVscatter (d : VReg) (a : LSrc) (b : VOpd) (m : MReg) (sp : Bool) (s : State) : Out :=
  let q : Form := { srcs := lref a :: brefV b ++ [.v d false], dsts := [], lit := isLit b }
  let base := s.sval q 0
  let ix := s.bvec q 1 b
  let v := s.vval q (if isLit b then 1 else 2)
  let mk := s.me.mask m
  let ls := (List.range 16).filter fun i => mk.getLsbD i
  let parts := ls.map fun i => mkPart (laneAddr base ix i).toNat 4 (16 + i) (lane v i).toNat
  s.gate q <|
    if sp then
      s.laneChecks base ix mk true q.lit <|
        if ls.isEmpty then .next ((s.pops q).retire q)
        else if parts.any fun x => s.myCl.locked (x.va / 4096) then s.waits
        else s.roomForAccess <| .next (((s.pops q).startSp (.store false false) parts .none).retire q)
    else
      s.ctxCheck base q.lit <| s.laneChecks base ix mk false q.lit <|
        if ls.isEmpty then .next ((s.pops q).retire q)
        else s.roomForAccess <| .next (((s.pops q).start (.store false false) .dflt false parts .none).retire q)

/-! ### Acquire, release, prefetch (R188–R190) -/

/-- `lda`, `lda.n32` (R189). -/
def execLda (d : SReg) (a : SSrc) (narrow : Bool) (s : State) : Out :=
  let q := formA [.fillS d] a
  let size := if narrow then 4 else 8
  let addr := s.sval q 0
  s.gate q <| s.ctxCheck addr false <| s.vaCheck addr size false <| s.roomForAccess <|
    .next (((s.pops q).start (.load true false) .dflt false [mkPart addr.toNat size 0 0] (.s d false size)).retire q)

/-- `stl`, `stl.n32` (R189). -/
def execStl (a : SSrc) (b : SOpd) (narrow : Bool) (s : State) : Out :=
  let q := formR [] a b
  let size := if narrow then 4 else 8
  let addr := s.sval q 0
  s.gate q <| s.ctxCheck addr q.lit <| s.vaCheck addr size q.lit <| s.roomForAccess <|
    .next (((s.pops q).start (.store true false) .dflt false
      [mkPart addr.toNat size 0 ((s.bval q 1 .sext b).toNat % 2 ^ (8 * size))] .none).retire q)

/-- A prefetch goes on: the line is brought into the caches of the slot's die with a retention, from another die, from memory, or
from another package; whether it is over. It waits for its translation, for the page, and for room (R271, R297, R350). What would
fault, and host memory, is dropped, and so is a `pref` without a retention on a page whose default is bypass (R190, R274, R275). -/
def State.fetchAhead (s : State) (who : Who) (r : Pref) : State × Bool :=
  let cd := dieOf r.slot
  match s.xlate who cd r.asid r.va with
  | (t, .miss) => (t, false)
  | (t, .fail _) => (t, true)
  | (t, .ok f at_) =>
    if !at_.allows { r := true, u := r.user } || at_.bypassed r.hint then (t, true)
    else match t.line r.asid r.va with
      | some l =>
        if t.handing l.frame then (t, true)
        else if (l.seenBy cd).isSome then (t.setLine r.asid r.va (l.retain r.hint), true)
        else if !t.l2Room cd (lineKey r.asid r.va) then (t, false)
        else match t.directory cd r.asid r.va false with
          | some u => (match u.line r.asid r.va with | some m => u.setLine r.asid r.va (m.retain r.hint) | none => u, true)
          | none => (t, true)
      | none =>
        match t.farNeeds cd r.asid r.va f at_ false r.hint with
        | some u => (u, t.hasMode f false || t.handing f)
        | none =>
          match t.phys f with
          | .dram _ =>
            if t.l2Room cd (lineKey r.asid r.va) && t.l3Room r.va then
              (t.setLine r.asid r.va ({ t.fillLine (f / 64 * 64) at_ with present := [cd] }.retain r.hint), true)
            else (t, false)
          | _ => (t, true)

/-- A prefetch that waits goes on. -/
def State.goPref (s : State) (n : Nat) (r : Pref) : State :=
  let t := s.fetchAhead (.pref n) r
  if t.2 then { t.1 with prefs := t.1.prefs.del n } else t.1

/-- A prefetch begins (R190). -/
def State.prefetch (s : State) (p : Nat) (a : Word) (h : Hint) : State :=
  let r : Pref := { slot := p, asid := (s.slot p).asid.toNat, user := (s.slot p).priv == 0, va := a.toNat, hint := h }
  if 2 ^ 56 ≤ r.va then s
  else
    let t := s.fetchAhead (.pref s.seq) r
    if t.2 then t.1 else { t.1 with prefs := t.1.prefs.set s.seq r }.bump

/-- `pref` and its retention forms (R190). -/
def prefetchInstr (h : Hint) (a : SSrc) (s : State) : Out :=
  let q := formA [] a
  s.gate q (.next (((s.pops q).prefetch s.cur (s.sval q 0) h).retire q))

/-- `pref` (R190). -/
def execPref (a : SSrc) (s : State) : Out := prefetchInstr .dflt a s
/-- `pref.st` (R190). -/
def execPrefSt (a : SSrc) (s : State) : Out := prefetchInstr .st a s
/-- `pref.sk` (R190). -/
def execPrefSk (a : SSrc) (s : State) : Out := prefetchInstr .sk a s

/-! ### Atomics (R192–R195) -/

/-- Literal operands of an atomic are zero-extended in the unsigned forms only (R192). -/
def AmoOp.ext : AmoOp → Ext
  | .minN => .zext | .maxN => .zext | _ => .sext

/-- An atomic: determinism, context, range and alignment are checked, then the access starts (R176, R193–R195). The
compare value of a cas is the third source. -/
def amo (op : AmoOp) (ret : Option SReg) (cmp : Option SReg) (a : SSrc) (b : SOpd) (wide : Bool) (det : Option Nat)
    (s : State) : Out :=
  let q : Form :=
    { srcs := sref a :: brefS b ++ (match cmp with | some c => [.s c false] | none => []),
      dsts := match ret with | some d => [.fillS d] | none => [], lit := isLit b }
  let size := if wide then 8 else 4
  let addr := s.sval q 0
  let v := (s.bval q 1 op.ext b).toNat % 2 ^ (8 * size)
  let c := match cmp with | some _ => s.sval q (if isLit b then 1 else 2) | none => 0
  let signed := match op with | .minN => false | .maxN => false | .fadd _ => false | _ => true
  let dst := match ret with | some d => FillDst.s d signed size | none => .none
  s.gate q <|
    (fun k => match det with | some n => if s.me.det then s.trap n 0 q.lit else k | none => k) <|
    s.ctxCheck addr q.lit <| s.vaCheck addr size q.lit <| s.roomForAccess <|
      .next (((s.pops q).start (.atomic op c) .dflt false [mkPart addr.toNat size 0 v] dst).retire q)

/-- `amo.add` (R193). -/
def execAmoAdd (d : SReg) (a : SSrc) (b : SOpd) (wide : Bool) (s : State) : Out := amo .add (some d) none a b wide (some 0x21) s
/-- `amo.min.i` (R193). -/
def execAmoMinI (d : SReg) (a : SSrc) (b : SOpd) (wide : Bool) (s : State) : Out := amo .minI (some d) none a b wide (some 0x21) s
/-- `amo.min.n` (R193). -/
def execAmoMinN (d : SReg) (a : SSrc) (b : SOpd) (wide : Bool) (s : State) : Out := amo .minN (some d) none a b wide (some 0x21) s
/-- `amo.max.i` (R193). -/
def execAmoMaxI (d : SReg) (a : SSrc) (b : SOpd) (wide : Bool) (s : State) : Out := amo .maxI (some d) none a b wide (some 0x21) s
/-- `amo.max.n` (R193). -/
def execAmoMaxN (d : SReg) (a : SSrc) (b : SOpd) (wide : Bool) (s : State) : Out := amo .maxN (some d) none a b wide (some 0x21) s
/-- `amo.and` (R193). -/
def execAmoAnd (d : SReg) (a : SSrc) (b : SOpd) (wide : Bool) (s : State) : Out := amo .and (some d) none a b wide (some 0x21) s
/-- `amo.or` (R193). -/
def execAmoOr (d : SReg) (a : SSrc) (b : SOpd) (wide : Bool) (s : State) : Out := amo .or (some d) none a b wide (some 0x21) s
/-- `amo.xor` (R193). -/
def execAmoXor (d : SReg) (a : SSrc) (b : SOpd) (wide : Bool) (s : State) : Out := amo .xor (some d) none a b wide (some 0x21) s
/-- `amo.swap` (R193). -/
def execAmoSwap (d : SReg) (a : SSrc) (b : SOpd) (wide : Bool) (s : State) : Out := amo .swap (some d) none a b wide (some 0x21) s
/-- `amo.cas` (R193). -/
def execAmoCas (d : SReg) (a : SSrc) (b : SOpd) (wide : Bool) (s : State) : Out := amo .cas (some d) (some d) a b wide (some 0x21) s
/-- `amo.stadd` (R193). -/
def execAmoStadd (a : SSrc) (b : SOpd) (wide : Bool) (s : State) : Out := amo .add none none a b wide none s
/-- `amo.stmin.i` (R193). -/
def execAmoStminI (a : SSrc) (b : SOpd) (wide : Bool) (s : State) : Out := amo .minI none none a b wide none s
/-- `amo.stmin.n` (R193). -/
def execAmoStminN (a : SSrc) (b : SOpd) (wide : Bool) (s : State) : Out := amo .minN none none a b wide none s
/-- `amo.stmax.i` (R193). -/
def execAmoStmaxI (a : SSrc) (b : SOpd) (wide : Bool) (s : State) : Out := amo .maxI none none a b wide none s
/-- `amo.stmax.n` (R193). -/
def execAmoStmaxN (a : SSrc) (b : SOpd) (wide : Bool) (s : State) : Out := amo .maxN none none a b wide none s
/-- `amo.stand` (R193). -/
def execAmoStand (a : SSrc) (b : SOpd) (wide : Bool) (s : State) : Out := amo .and none none a b wide none s
/-- `amo.stor` (R193). -/
def execAmoStor (a : SSrc) (b : SOpd) (wide : Bool) (s : State) : Out := amo .or none none a b wide none s
/-- `amo.stxor` (R193). -/
def execAmoStxor (a : SSrc) (b : SOpd) (wide : Bool) (s : State) : Out := amo .xor none none a b wide none s
/-- `amo.stswap` (R193, R194). -/
def execAmoStswap (a : SSrc) (b : SOpd) (wide : Bool) (s : State) : Out := amo .swap none none a b wide (some 0x21) s
/-- `amo.stcas`: d is the compare register (R192). -/
def execAmoStcas (d : SReg) (a : SSrc) (b : SOpd) (wide : Bool) (s : State) : Out := amo .cas none (some d) a b wide (some 0x21) s
/-- `famo.add.f32` (R195). -/
def execFamoAdd (d : SReg) (a : SSrc) (b : SOpd) (s : State) : Out := amo (.fadd s.me.rm) (some d) none a b false (some 0x22) s
/-- `famo.stadd.f32` (R195). -/
def execFamoStadd (a : SSrc) (b : SOpd) (s : State) : Out := amo (.fadd s.me.rm) none none a b false (some 0x22) s

end Sys2Proof.Machine
end

