-- ==== Sys2Proof/Machine/MemEvents.lean ====
section
/-!
DEFINITION. The memory system's own steps: misses, walks (R349–R354), line requests, commits, acknowledgements,
evictions (R290–R295), and the landing of fills (R15, R24). A step that has nothing to do leaves the state as it is.
-/

namespace Sys2Proof.Machine

/-- A step of a unit: its effect, or nothing where it cannot act. -/
def State.act (s : State) (o : Option State) : Out := .next (o.getD s)

/-- The access and the part that a step names. -/
def State.part (s : State) (p id k : Nat) : Option (Access × Part) :=
  (s.acc p id).bind fun a => (a.parts[k]?).map fun x => (a, x)

/-- Cause of a page fault of an access (R177). -/
def Access.pageCause (a : Access) : Nat := match a.kind with | .load _ _ => 0x40 | _ => 0x41

/-- A part performed at memory: an access that allocates nowhere on chip (R274, R275). Words of host memory have no full/empty bits:
`clrfe` changes nothing there, and an `ldsync` does not wait (entry 79). -/
def State.atMemory (s₀ : State) (p : Nat) (a : Access) (k : Nat) (x : Part) (f : Nat) (at_ : Attr) : Option State :=
  if !s₀.ordered p a x then none
  else
    let s := s₀.sequence (dieOf p) at_.sc
    match s.phys f with
    | .host _ =>
      match a.kind with
      | .load _ _ => some (s.setPart p a.id k (.done (ofBytes ((List.range x.size).map fun j => Config.hostByte s.tick (f + j)))))
      | .atomic _ _ => some (s.setPart p a.id k (.bad 0x43))
      | .store _ _ => 
        some (({ s with hostOut := s.hostOut ++ [HostOut.store f (toBytes x.size x.data)] }.wrote a.asid x.va x.size).setPart
          p a.id k (.done 0))
      | _ => some (s.setPart p a.id k (.done 0))
    | _ =>
      let poison := s.poisonAt f
      match a.kind with
      | .load _ _ =>
        some (s.setPart p a.id k (if poison then .bad 0x45 else .done (ofBytes (s.mem.bytes f x.size))))
      | .store _ _ =>
        if s.locked a.asid x.va then none
        else if s.lostMem f then some (s.setPart p a.id k (.bad 0x45))
        else
          some (({ s.keepOld f (s.mem.bytes (f / 64 * 64) 64) with
                          mem := s.mem.putBytes f (toBytes x.size x.data),
                          memPoison := if a.fillsLine k then s.memPoison.del (f / 64) else s.memPoison }.wrote a.asid x.va x.size).setPart
            p a.id k (.done 0))
      | .atomic op c =>
        if s.locked a.asid x.va then none
        else if poison then some (s.setPart p a.id k (.bad 0x45))
        else match op, at_.d with
          | .fadd _, true => some (s.setPart p a.id k (.bad 0x22))
          | _, _ =>
            let old := ofBytes (s.mem.bytes f x.size)
            let r := amoNew op x.size old x.data c.toNat
            some ((({ s.keepOld f (s.mem.bytes (f / 64 * 64) 64) with
                        mem := s.mem.putBytes f (toBytes x.size r.1) }.wrote a.asid x.va x.size).setPart p a.id k (.done old)).modSlot p fun y =>
              { y with flags := y.flags ||| r.2 })
      | _ => some s

/-- A translated part goes on: it asks another package for the page or the line, or goes to memory, or its line comes on
chip from its frame for the die, once its L2 and L3 have room (R271, R274, R293, R297). -/
def State.missServe (s : State) (p : Nat) (a : Access) (k : Nat) (x : Part) (f : Nat) (at_ : Attr) : Option State :=
  if !at_.allows a.need then some (s.setPart p a.id k (.bad 0x43))
  else
    match s.farNeeds (dieOf p) a.asid x.va f at_ (!a.isLoad) (if a.bypass at_ then .by else a.hint) with
    | some t => some t
    | none =>
    match s.phys f with
    | .host _ => s.atMemory p a k x f at_
    | _ =>
      if a.bypass at_ then s.atMemory p a k x f at_
      else if !s.l2Room (dieOf p) (lineKey a.asid x.va) || !s.l3Room x.va then none
      else some ((s.setLine a.asid x.va { s.fillLine (f / 64 * 64) at_ with present := [dieOf p] }).count (dieOf p) 0x06 1)

/-- A bypassing part whose line its own die's L2 does not hold: every on-chip copy is recalled and written back first (R274);
copies with an update, an invalidation or an empty word under way are waited for. While a migration holds the page, a load recalls
copies that agree with memory (R303). -/
def State.recall (s : State) (p : Nat) (a : Access) (x : Part) (l : Line) : Option State :=
  if a.bypass l.attr && l.seenBy (dieOf p) == none && l.upd == none && l.stale.isEmpty && l.empties.isEmpty &&
      (!s.locked a.asid x.va || (a.isLoad && !l.dirty)) then
    some ((s.writeBack l).delLine a.asid x.va)
  else none

/-- `L3_MISS_TRANSLATE`: a part whose line is on no chip is translated at its translation die; it goes on, fails, or
waits for a walk, which is posted unless one is under way (R349, R350, R353). A bypassing part has the line recalled
from other dies first (R274). A prefetch that waits goes on likewise (R190). -/
def execL3MissTranslate (p id part : Nat) (s : State) : Out :=
  s.act
    (match s.part p id part with
     | none => (s.prefs.get? id).bind fun r => if r.slot == p then some (s.goPref id r) else none
     | some (a, x) =>
       if a.sp || x.st != .todo then none
       else if let some l := s.line a.asid x.va then s.recall p a x l
       else
         match s.xlateTlb a.asid x.va with
         | .fail c => some (s.setPart p id part (.bad c))
         | .ok f at_ => (s.missServe p a part x f at_).map fun t => t.modSlot p Slot.sweep
         | .miss =>
           let (t, n) := s.askWalk (dieOf p) a.asid (x.va / 2 ^ 16)
           some (t.setPart p id part (.walking n)))

/-- `MAILBOX_SPACE_POST`: the oldest request that a TLB holds for a die enters a mailbox (R353). -/
def execMailboxSpacePost (n : Nat) (s : State) : Out :=
  s.act do
    let w ← s.walks.get? n
    let older := s.walks.any fun e => e.1 < n && e.2.mdie == w.mdie && e.2.cd == w.cd && e.2.box == none && e.2.answer == none
    if w.box != none || w.answer != none || older then none
    else
      let c ← s.mailbox w.cd w.asid w.page
      some { s with walks := s.walks.set n { w with box := some c }, mail := s.mail.set c (s.mail.getD c [] ++ [n]) }

/-- A word that a load of a die reads through the window stands in its caches, where they have room (R271, R293, R354). -/
def State.cacheWord (s : State) (cd a : Nat) : State :=
  match s.line 0 a with
  | some l => if (l.seenBy cd).isSome || !s.l2Room cd (lineKey 0 a) then s else (s.directory cd 0 a false).getD s
  | none =>
    match s.phys a with
    | .dram _ =>
      if s.l2Room cd (lineKey 0 a) && s.l3Room a && s.farNeeds cd 0 a a .window false == none then
        s.setLine 0 a { s.fillLine (a / 64 * 64) .window with present := [cd] }
      else s
    | _ => s

/-- `RAKE_WALK`: the rake of a core runs the walk routine for the oldest request of its mailbox, whose loads go through the
caches of its die (R352–R354); a table word in another package's memory is asked for first (R375). -/
def execRakeWalk (p : Nat) (s : State) : Out :=
  s.act do
    let n ← (s.mail.getD p []).head?
    let w ← s.walks.get? n
    if (s.slot (p * 16 + 15)).use != .rake then none
    else
      match s.walk w.cd w.asid w.page with
      | .far a => some (s.askFar (p / 128) a)
      | r =>
        let t := (s.walkWords w.cd w.asid w.page).foldl (fun (t : State) a => t.cacheWord w.cd a) s
        some { t with mail := s.mail.set p (s.mail.getD p []).tail, walks := s.walks.set n { w with answer := some r } }

/-- A walk ends for the parts that wait for it (R350). -/
def Part.answer (n : Nat) (st : PartState) (y : Part) : Part := if y.st == .walking n then { y with st := st } else y

/-- Every part of an access that waits for a walk, by the page-fault cause of the access. -/
def Access.answer (n : Nat) (f : Nat → PartState) (a : Access) : Access :=
  { a with parts := a.parts.map (Part.answer n (f a.pageCause)) }

/-- Every access that waits for a walk, and every unit that does: its own accesses go on or fail by `f`, a unit by the cause `c`,
or by translating again (R350). -/
def State.answerWalk (s : State) (n : Nat) (c : Option Nat) (f : Nat → PartState) : State :=
  { s with slots := s.slots.map fun e => (e.1, { e.2 with accs := e.2.accs.map (Access.answer n f) }),
           unitWalks := s.unitWalks.filterMap (UnitWalk.answer n c) }

/-- `WALK_ANSWER`: the answer reaches its TLB, which installs a leaf; the waiting accesses go on or fail (R350). An
answer to an earlier incarnation of the die is dropped and counted, and its accesses start again (R354, R398). -/
def execWalkAnswer (n : Nat) (s : State) : Out :=
  s.act do
    let w ← s.walks.get? n
    let r ← w.answer
    let s := { s with walks := s.walks.del n }
    if w.inc != (s.die w.mdie).incarn then
      some ((s.modDie w.mdie fun d => { d with stale := satInc d.stale }).answerWalk n none fun _ => .todo)
    else
      some (match r with
        | .leaf pg l2 fr at_ => (s.install w.mdie w.asid pg l2 fr at_).answerWalk n none fun _ => .todo
        | .notPresent => s.answerWalk n (some 0) fun c => .bad c
        | .malformed => s.answerWalk n (some 0x43) fun _ => .bad 0x43
        | .invalidContext => s.answerWalk n (some 0x46) fun _ => .bad 0x46
        | .poisoned => s.answerWalk n (some 0x45) fun _ => .bad 0x45
        | .far _ => s.answerWalk n none fun _ => .todo)

/-- Some access of a die awaits the line, for write where `wr`; one that bypasses the caches asks for no copy (R274). -/
def State.wanted (s : State) (cd key : Nat) (wr : Bool) : Bool :=
  s.slots.any fun e => dieOf e.1 == cd && e.2.accs.any fun a => !a.sp && a.isLoad != wr &&
    a.parts.any fun y => y.st == .todo && lineKey a.asid y.va == key &&
      !(s.lines.get? key).any fun l => a.bypass l.attr && l.seenBy cd == none

/-- A write of a byte through the window goes on: its page and its line are asked for, and once they are here it is performed
(R297, R375, R383). -/
def State.putFar (s : State) (die a : Nat) (b : Byte) : State :=
  match s.cohWrite (.slot 0) die 0 a [b] .keep { w := true } with
  | (t, .error 1) => t
  | (t, _) => { t with farPuts := t.farPuts.del a }

/-- A write of a byte of a range through the window still waits. -/
def State.farWrites (s : State) (a n : Nat) : Bool := (List.range n).any fun k => s.farPuts.has (a + k)

/-- A read of the host through the window goes on, and is answered once nothing stands against it, no earlier write of its bytes among
it (R297, R383); one that cannot be read is answered with no data. -/
def State.getFar (s : State) (die : Nat) (g : Nat × Nat) : State :=
  if s.farWrites g.1 g.2 then s else
  match s.cohRead (.slot 0) die 0 g.1 g.2 { r := true } with
  | (t, .error 1) => t
  | (t, .error _) => { t with farGets := t.farGets.erase g, hostOut := t.hostOut ++ [HostOut.data g.1 []] }
  | (t, .ok b) => { t with farGets := t.farGets.erase g, hostOut := t.hostOut ++ [HostOut.data g.1 b] }

/-- `DIRECTORY_REQUEST`: the line directory gives a die a copy or write ownership (R292, R293); where units or the host wait to
read or write the line through the window, they are served first (R375, R383). -/
def execDirectoryRequest (die key : Nat) (wr : Bool) (s : State) : Out :=
  let puts := s.farPuts.filter fun e => lineKey 0 e.1 == key
  let gets := s.farGets.filter fun g => lineKey 0 g.1 == key
  s.act (if wr && !puts.isEmpty then some (puts.foldl (fun (t : State) e => t.putFar die e.1 e.2) s)
    else if !wr && !gets.isEmpty then some (gets.foldl (fun (t : State) g => t.getFar die g) s)
    else if s.wanted die key wr && s.l2Room die key then
      (s.directory die (key / 2 ^ 50) (key % 2 ^ 50 * 64) wr).map fun t => t.count die 0x06 1
    else none)

/-- `INVALIDATE_ACK` (R293). -/
def execInvalidateAck (die key : Nat) (s : State) : Out := s.act (s.invalidateAck die key)

/-- `SLICE_WRITE`: a write reaches its home slice (R290); a write to the scratchpad that the slot's earlier accesses held back is
performed there (R182). -/
def execSliceWrite (p id part : Nat) (s : State) : Out :=
  s.act do
    let (a, x) ← s.part p id part
    if x.st != .todo || a.isLoad then none else
    let t ← if a.sp then s.spPerform p a part x else s.sliceWrite p a part x
    some (t.modSlot p Slot.sweep)

/-- `SHARER_UPDATE_ACK`: a core's L1 acknowledges a pending update; the last acknowledgement commits it (R290). -/
def execSharerUpdateAck (key core : Nat) (s : State) : Out :=
  s.act do
    let l ← s.lines.get? key
    let u ← l.upd
    if !u.wait.contains core then none
    else
      let u' := { u with wait := u.wait.filter (· != core) }
      let asid := key / 2 ^ 50
      let va := key % 2 ^ 50 * 64
      some (if u'.wait.isEmpty then (s.commit asid va l u').modSlot u.slot Slot.sweep
            else s.setLine asid va { l with upd := some u' })

/-- Lines among which a cache replaces: those of one set of an L2 slice of a die, or of a base die's L3; which lines share a set
is free (entry 62). -/
def State.rivals (s : State) (die key : Nat) : SMap Line :=
  s.lines.filter fun e => e.1 == key || Config.cacheSet die e.1 == Config.cacheSet die key &&
    (if die < 8 then sliceOf e.1 == sliceOf key && e.2.inL2 die else s.l3Home (e.1 % 2 ^ 50 * 64) == die)

/-- The lines of a compute die's L2, or of a base die's L3, and how many it holds. -/
def State.cacheOf (s : State) (die : Nat) : SMap Line × Nat :=
  (s.lines.filter fun e => if die < 8 then e.2.inL2 die else s.l3Home (e.1 % 2 ^ 50 * 64) == die,
   if die < 8 then ((List.range 16).map (s.die die).sliceLines).sum else l3Lines)

/-- Replacement may choose the line: no rival goes before it by its retention (R274). -/
def State.replaceable (s : State) (die key : Nat) (l : Line) : Bool :=
  let held := s.cacheOf die
  (s.rivals die key).all fun e => rankIn held.1 held.2 l ≤ rankIn held.1 held.2 e.2

/-- `L2_EVICTION`: a compute die's L2 gives up a line, or a base die's L3 writes it back to memory and drops it (R274,
R295); a page that another package waits for is given up once all its lines allow it (R297). A line with an empty word stays in its
home slice (R185). -/
def execL2Eviction (die key : Nat) (s : State) : Out :=
  s.act do
    let l ← s.lines.get? key
    if l.upd != none || !l.empties.isEmpty || s.locked (key / 2 ^ 50) (key % 2 ^ 50 * 64) then none
    else if die < 8 then
      if l.inL2 die && !l.stale.has die && s.replaceable die key l then
        let l' := { l with present := l.present.filter (· != die), owner := if l.owner == some die then none else l.owner,
                           l1 := l.l1.filter fun c => c / 128 != die, excl := l.excl.filter fun c => c / 128 != die }
        some { s with lines := s.lines.set key l' }
      else none
    else
      let t :=
        if l.present.isEmpty && l.owner == none && l.stale.isEmpty && s.replaceable die key l then
          let t := s.writeBack l
          { t with lines := t.lines.del key }
        else s
      some ((t.giveUp (l.frame / 2 ^ 16)).giveOwn (l.frame / 2 ^ 16) |>.serveAll (l.frame / 2 ^ 16))

/-- The answer of a `tpeek` or `tq` lands in its register, wherever its task is (R15, R202). -/
def State.landTile (s : State) (id : Nat) : Option State := do
  let r ← s.tiles.get? id
  let h ← s.findTask r.tid
  let t : State := { s with tiles := s.tiles.del id }
  match r.kind, r.st with
  | .peek d _, .answered v _ _ => t.fillTask h d v
  | .query d, .answered v _ _ => t.fillTask h d v
  | _, _ => none

/-- A part of a load binds its value where its line is on chip, and once every part is bound the fill lands (R11, R15, R24, R178, R183). -/
def State.landPart (s : State) (p id part : Nat) : Option State := do
  let (a, x) ← s.part p id part
  let t := if x.st == .todo && a.isLoad then (if a.sp then s.spPerform p a part x else s.bindHit p a part x).getD s else s
  let b ← t.acc p id
  if b.bound && b.failed == none && t.canLand p b then
    some (((t.land p b).modAcc p id fun y => { y with dst := .none }).modSlot p Slot.sweep)
  else some t

/-- `SYNC_TIMEOUT`: a synchronising load that has waited TIMEOUT cycles is reported once (R183, R370). -/
def execSyncTimeout (p id : Nat) (s : State) : Out :=
  s.act do
    let a ← s.acc p id
    let x ← a.parts.head?
    let limit := (s.die (dieOf p)).wdog.toNat
    match a.kind with
    | .load _ true =>
      if x.st != .todo || limit == 0 || s.now < a.since + limit || a.reported then none
      else
        some ((s.reportTask p 0x47 false 0 x.va).modAcc p id fun y => { y with reported := true })
    | _ => none

end Sys2Proof.Machine
end

