-- ==== Sys2Proof/Machine/Late.lean ====
section
/-!
DEFINITION. Late outcomes (R177) and posted causes (R242) taken at an instruction boundary (R365).
-/

namespace Sys2Proof.Machine

/-- A late outcome that is ready: of an access, of a tile request, of a refused record, or of a page refused to a
restored task (R177, R364). -/
inductive Ready where
  | acc (a : Access) (cause addr : Nat)
  | tile (id : Nat) (r : TileReq) (cause addr : Nat)
  | refused (l : Late)
  | owed (cause : Nat) (tval : Word)
deriving DecidableEq, Repr

/-- Its place among the accesses: the refused page of a restored task comes first (R364). -/
def Ready.id : Ready → Nat
  | .acc a _ _ => a.id + 1
  | .tile n _ _ _ => n + 1
  | .refused l => l.id + 1
  | .owed _ _ => 0

/-- Address of the part whose outcome an access has. -/
def Access.failAddr (a : Access) : Nat :=
  (a.parts.findSome? fun x => match x.st with | .bad _ => some x.va | _ => none).getD 0

/-- A request that an instruction of a task has made: not one of an engine's commands, of a host watch or of another package. -/
def TileReq.ofTask (r : TileReq) : Bool :=
  match r.kind with
  | .engLoad .. => false
  | .engStore .. => false
  | .watch _ => false
  | .remote .. => false
  | .remoteStore .. => false
  | _ => true

/-- The late outcomes of a slot that have come, of tile requests wherever its task stood when it made them (R203). -/
def State.outcomes (s : State) (p : Nat) : List Ready :=
  let x := s.slot p
  (match x.owed with | some o => [Ready.owed o.1 o.2] | none => []) ++
  (x.accs.filterMap fun a => a.failed.map fun c => Ready.acc a c a.failAddr) ++
  (s.tiles.filterMap fun e =>
    if e.2.tid == x.tid && e.2.ofTask then
      (match e.2.st with | .bad c addr => some (Ready.tile e.1 e.2 c addr) | _ => none)
    else none) ++
  x.late.map Ready.refused

/-- It waits for `eret`, since the handler of an earlier one runs (R177). -/
def Ready.held (x : Slot) (r : Ready) : Bool := decide (r.id < x.laterHeld)

/-- The late outcomes of a slot that are ready: that have come and do not wait for `eret`. -/
def State.readyOutcomes (s : State) (p : Nat) : List Ready := (s.outcomes p).filter fun r => !r.held (s.slot p)

/-- The oldest of several. -/
def oldest (l : List Ready) : Option Ready :=
  l.foldl (fun b r => match b with | some y => if r.id < y.id then some r else some y | none => some r) none

/-- A slot that a trap or a park meets while it waits no longer waits: its instruction runs again (R177). -/
def State.unwait (s : State) (p : Nat) : State :=
  match (s.slot p).wait with
  | .none => s
  | .tile id =>
    let t := match s.tiles.get? id with | some r => s.withdraw id r | none => s
    t.modSlot p fun x => { x with wait := .none }
  | _ => (s.modSlot p fun x => { x with wait := .none }).pruneRejoin (s.crewKey p)

/-- A trap at the boundary of a slot for something that came earlier (R177, R242). -/
def State.boundaryTrap (s : State) (p cause : Nat) (tval : Word) : State :=
  let s := s.unwait p
  s.takeTrap p cause tval false (s.slot p).pc

/-- The trap of a late outcome: those of the accesses made so far that have still to come wait for `eret` (R177). -/
def State.lateTrap (s : State) (p cause : Nat) (tval : Word) : State :=
  (s.boundaryTrap p cause tval).modSlot p fun x => { x with laterHeld := s.seq + 1 }

/-- `ctl.tval` of a late outcome of an access (R44). -/
def lateTval (cause addr : Nat) (h : Word) : Word :=
  if 0x40 ≤ cause ∧ cause ≤ 0x47 then BitVec.ofNat 64 addr else if 0x60 ≤ cause ∧ cause ≤ 0x66 then h else 0

/-- The oldest ready late outcome of a slot is taken: a page fault parks the task, and every other outcome fills its
destination and traps (R177, R365); `none` where it must wait. -/
def State.takeLate (s : State) (p : Nat) (r : Ready) : Option State :=
  let x := s.slot p
  match r with
  | .owed c v => some ((s.modSlot p fun y => { y with owed := none }).lateTrap p c v)
  | .acc a c addr =>
    if c == 0x40 || c == 0x41 then
      let code := match a.kind with | .atomic _ _ => 3 | .barrier => 3 | .load _ _ => 0 | _ => 1
      (s.unwait p).park p { cause := c, addr := addr, id := some a.id, refused := false } code
    else if s.canLand p a then
      let t := (s.land p a).modSlot p fun y => { y with accs := y.accs.filter (·.id != a.id) }
      some (t.lateTrap p c (lateTval c addr 0))
    else none
  | .tile n q c addr =>
    if c == 0x40 then (s.unwait p).park p { cause := c, addr := addr, id := some n, refused := false } 0
    else
      let filled := match q.kind with | .peek d _ => s.fillTask p d 0 | _ => some s
      filled.map fun t => { t with tiles := t.tiles.del n }.lateTrap p c (lateTval c addr q.h)
  | .refused l =>
    let filled := match l.fill with | some (d, w) => s.fillTask p d w | none => some s
    filled.map fun t =>
      (t.modSlot p fun _ => { t.slot p with late := x.late.filter (·.id != l.id) }).lateTrap p l.cause l.tval

/-- A slot at an instruction boundary: it runs something and is not halted. -/
def State.atBoundary (s : State) (p : Nat) : Bool := (s.slot p).live && !(s.slot p).halted

/-- The destination of an outcome that waits for `eret` is filled as its access goes on to completion, so that a handler can read
it; one on a page that is not present stays empty (R177). -/
def State.fillHeld (s : State) (p : Nat) (r : Ready) : State :=
  match r with
  | .owed _ _ => s
  | .acc a c _ =>
    if c == 0x40 || c == 0x41 || !s.canLand p a then s
    else (s.land p a).modAcc p a.id fun b => { b with dst := .none }
  | .tile n q c _ =>
    match q.kind with
    | .peek d k =>
      if c == 0x40 then s
      else match s.fillTask p d 0 with | some t => { t with tiles := t.tiles.set n { q with kind := .peek 0 k } } | none => s
    | _ => s
  | .refused l =>
    match l.fill with
    | some (d, w) =>
      match s.fillTask p d w with
      | some t => t.modSlot p fun x => { x with late := x.late.map fun y => if y.id == l.id then { y with fill := none } else y }
      | none => s
    | none => s

/-- `LATE_OUTCOME_TAKEN` (R177, R365). -/
def execLateOutcomeTaken (p : Nat) (s : State) : Out :=
  s.act (if !s.atBoundary p then none
    else match oldest (s.readyOutcomes p) with
      | some r => s.takeLate p r
      | none => some (((s.outcomes p).filter (Ready.held (s.slot p))).foldl (fun t r => t.fillHeld p r) s))

/-- `POSTED_CAUSE_TAKEN`: the oldest posted cause, after every ready late outcome (R242, R365). -/
def execPostedCauseTaken (p : Nat) (s : State) : Out :=
  s.act (match (s.slot p).posted with
    | [] => none
    | c :: t =>
      if s.atBoundary p && (s.readyOutcomes p).isEmpty then
        some ((s.modSlot p fun x => { x with posted := t }).boundaryTrap p c.cause.toNat (c.ticket.zeroExtend 64))
      else none)

end Sys2Proof.Machine
end

