-- ==== Sys2Proof/Machine/Pan.lean ====
section
/-!
DEFINITION. Records and the pan (R205–R209, R214, R307–R315, R328): paths, classes, folds, routing, arrival, the
overflow table, and replies (R133).
-/

namespace Sys2Proof.Machine

/-! ### Classes (R205–R208) -/

/-- A class table entry. -/
structure Cls where
  gate : Nat
  trapPol : Bool
  ops : List Nat
deriving DecidableEq, Repr

/-- First word of the APPEND.w32 run, or 8 where there is none (R208). -/
def Cls.run (c : Cls) : Nat := (c.ops.findIdx? (· == 13)).getD 8
/-- Entries of the append area (R208). -/
def Cls.area (c : Cls) : Nat := 2 * (8 - c.run)
/-- Every operator is independent of the order of arrival (R207). -/
def Cls.independent (c : Cls) : Bool := c.ops.all fun o => [0, 1, 4, 5, 6, 7, 8, 9, 10, 14].contains o

/-- The class that two words of a table entry declare, if it is valid (R206). -/
def clsOf (w0 w1 : Nat) : Option Cls :=
  let ops := (List.range 8).map fun k => fld w1 (4 * k) 4
  let c : Cls := { gate := w0, trapPol := bit w1 62, ops := ops }
  let j := c.run
  if bit w1 63 && fld w1 32 30 == 0 && ops.all (· != 15) && (ops.drop j).all (· == 13) && j != 0 &&
      (c.trapPol || w0 == 0 || j == 8) then some c else none

/-- A class of an address space as a die reads it; `none` where it is invalid or its entry names no memory. -/
def State.cls (s : State) (cd asid c : Nat) : Option Cls :=
  match s.ctx cd asid with
  | .ok _ _ _ cls => if s.isMem (cls + 16 * c) then clsOf (s.physNum (cls + 16 * c) 8) (s.physNum (cls + 16 * c + 8) 8) else none
  | _ => none

/-- The GATE of a record's class (R315); a class that is no longer valid counts as one without a gate. -/
def State.gateOfRec (s : State) (cd : Nat) (r : Rec) : Nat := ((s.cls cd r.asid r.cls).map (·.gate)).getD 0

/-- A payload word on creation (R207). -/
def createWord (op : Nat) (x : Word) : Word :=
  match op with
  | 0 => 0
  | 2 => (x.extractLsb' 0 32).zeroExtend 64
  | 6 => (x.extractLsb' 0 32).zeroExtend 64
  | 7 => (x.extractLsb' 0 32).zeroExtend 64
  | 14 => 1
  | _ => x

/-- A payload word after a fold (R207). -/
def foldWord (op : Nat) (w x : Word) : Word :=
  let lo (y : Word) : Nat := y.toNat % 2 ^ 32
  match op with
  | 0 => w
  | 1 => w + x
  | 2 => BitVec.ofNat 64 (Fp.add Fp.f32 .rne (Fp.f32.val (lo w)) (Fp.f32.val (lo x))).1
  | 3 => BitVec.ofNat 64 (Fp.add Fp.f64 .rne (Fp.f64.val w.toNat) (Fp.f64.val x.toNat)).1
  | 4 => if x.slt w then x else w
  | 5 => if w.slt x then x else w
  | 6 => BitVec.ofNat 64 (Fp.minMax Fp.f32 true (lo w) (lo x)).1
  | 7 => BitVec.ofNat 64 (Fp.minMax Fp.f32 false (lo w) (lo x)).1
  | 8 => w ||| x
  | 9 => w &&& x
  | 10 => w ^^^ x
  | 11 => w
  | 12 => x
  | 14 => w + 1
  | _ => w

/-- The 32-bit entries of the append area of a payload (R208). -/
def appendArea (j : Nat) (p : Vector Word 8) : List W32 :=
  (p.toList.drop j).flatMap fun w => [w.extractLsb' 0 32, w.extractLsb' 32 32]

/-- Words of an append area from its entries. -/
def areaWords : List W32 → List Word
  | a :: b :: t => (b.zeroExtend 64 <<< 32 ||| a.zeroExtend 64) :: areaWords t
  | [a] => [a.zeroExtend 64]
  | [] => []

/-- A payload from a list of words. -/
def payloadOf (l : List Word) : Vector Word 8 := Vector.ofFn fun i => l.getD i.val 0

/-- A payload with its append area replaced by entries, the rest of the area 0. -/
def withArea (j : Nat) (ops : List Word) (es : List W32) : Vector Word 8 :=
  payloadOf (ops.take j ++ areaWords (es ++ List.replicate (2 * (8 - j) - es.length) 0))

/-- The record that an incoming record creates (R207, R208). -/
def Cls.create (c : Cls) (r : Rec) : Rec :=
  let ws := r.payload.toList.zipIdx.map fun (x, k) => createWord (c.ops.getD k 0) x
  let es := (appendArea c.run r.payload).take r.acnt
  { r with payload := if c.run == 8 then payloadOf ws else withArea c.run ws es }

/-- A fold of an incoming record into a WAITING one (R207–R209). -/
def Cls.fold (c : Cls) (w x : Rec) : Rec :=
  let ws := w.payload.toList.zipIdx.map fun (y, k) => foldWord (c.ops.getD k 0) y (x.payload.toList.getD k 0)
  let es := (appendArea c.run w.payload).take w.acnt ++ (appendArea c.run x.payload).take x.acnt
  { w with payload := if c.run == 8 then payloadOf ws else withArea c.run ws es,
           acnt := w.acnt + x.acnt, folds := Nat.min (w.folds + 1) 0xFFFF,
           path := if x.path.ult w.path then x.path else w.path,
           dom := if x.path.ult w.path then x.dom else w.dom }

/-! ### Routing (R309, R310) -/

/-- Compute dies in service, in order. -/
def State.upDies (s : State) : List Nat := (List.range 8).filter fun d => s.up.getLsbD d
/-- The lowest compute die in service, whose registers check what the host asks (R319). -/
def State.hostDie (s : State) : Nat := s.upDies.headD 0
/-- The key-hash die (R309). -/
def State.keyDie (s : State) (key : Word) : Nat :=
  let l := s.upDies
  l.getD ((childpath key 0).toNat / 2 ^ 32 % l.length) 0
/-- The die of an affinity, for a record created on die `d` (R309). -/
def State.affDie (s : State) (aff d : Nat) (key : Word) : Nat :=
  if aff < 8 then (if s.up.getLsbD aff then aff else s.keyDie key)
  else if aff == 0xF then d else s.keyDie key

/-- The hash that names a record's bank and its overflow group (R310, R313). -/
def Rec.hash (r : Rec) : Nat := (childpath r.key (BitVec.ofNat 64 (r.asid * 64 + r.cls))).toNat
/-- Queue bank. -/
def Rec.bank (r : Rec) : Nat := r.hash % 16
/-- Two records match (R308). -/
def Rec.matches' (r w : Rec) : Bool := r.key == w.key && r.cls == w.cls && r.asid == w.asid && !r.nf && !w.nf

/-! ### Domains (R318, R322) -/

/-- Slots of one domain of a kind; the package for the two outermost kinds. -/
def domainSize (k : Nat) : Nat := ([1, 16, 128, 1024, 2048, 8192, 16384, 16384] : List Nat).getD k 16384

/-- Numbers of the packages of the link group, its switches apart (R376, R382). -/
def State.group (s : State) : List Nat :=
  (List.range 1024).filter fun q => q == s.pkg || (s.route.getD q 0 != 0 && !s.switches.has q)
/-- A package of the group as a domain names it. -/
def State.pkgName (s : State) (q : Nat) : Option Nat := if q == s.pkg then none else some q

/-- Compute dies of a package in service; another package shows this one no `ctl.dies` (entry 18). -/
def State.diesOf (s : State) (pkg : Option Nat) : List Nat := match pkg with | none => s.upDies | some _ => List.range 8

/-- Dies of a domain that are in service, each with its package. -/
def State.domDies (s : State) (m : Domain) : List (Option Nat × Nat) :=
  if m.kind == 7 then s.group.flatMap fun q => (s.diesOf (s.pkgName q)).map fun d => (s.pkgName q, d)
  else ((s.diesOf m.pkg).filter fun d =>
    decide (d * 2048 < (m.idx + 1) * domainSize m.kind ∧ m.idx * domainSize m.kind < (d + 1) * 2048)).map fun d => (m.pkg, d)

/-! ### The overflow table (R313, R314) -/

/-- Physical address of place `k` of group `g`. -/
def Die.ovfAddr (x : Die) (g k : Nat) : Nat := fld x.panovf.toNat 12 44 * 2 ^ 12 + 128 * (16 * g + k)

/-- The header of a record in the positions of R220, fold count apart. -/
def Rec.header (r : Rec) : Nat := r.acnt * 2 ^ 32 + r.aff * 2 ^ 24 + r.prio * 2 ^ 22 + r.cls * 2 ^ 16 + r.entry

/-- The record image (R307). -/
def Rec.image (r : Rec) : List Byte :=
  let ws : List Nat := [r.key.toNat, r.path.toNat,
    r.folds * 2 ^ 48 + (if r.sealed then 2 else 1) * 2 ^ 42 + r.nf.toNat * 2 ^ 41 + r.lr.toNat * 2 ^ 40 + r.header,
    r.stamp, r.token.toNat, r.asid, r.lnch, 0] ++ r.payload.toList.map (·.toNat)
  ws.flatMap (toBytes 8)

/-- A reserved field of a record image is not 0, by its words w2, w5 and w7 (R307). -/
def imageReserved (w2 w5 w7 : Nat) : Bool := fld w2 44 4 != 0 || fld w2 37 3 != 0 || w5 / 2 ^ 12 != 0 || w7 != 0

/-- The pan of a die replaced, its overflow table in memory brought up to date (R313). -/
def State.setPan (s : State) (d : Nat) (l : List Rec) : State :=
  let x := s.die d
  let freed := x.pan.filterMap fun r => r.spill.bind fun g => if l.any (·.spill == some g) then none else some g
  let s := freed.foldl (fun t g => t.putPhys64 (x.ovfAddr g.1 g.2 + 16) 0) s
  let s := l.foldl (fun t r => match r.spill with
    | some g => if x.pan.contains r then t else t.putPhys (x.ovfAddr g.1 g.2) r.image
    | none => t) s
  s.modDie d fun y => { y with pan := l }

/-- Resident records of a bank. -/
def Die.resident (x : Die) (b : Nat) : Nat := (x.pan.filter fun r => r.spill == none && r.bank == b).length
/-- Records that a bank holds, 512 (R310). -/
def bankSize : Nat := 512

/-- Where a new record goes: resident, a place of its overflow group, or nowhere (R313). -/
def Die.place (x : Die) (r : Rec) : Option (Option (Nat × Nat)) :=
  let b := r.bank
  if x.resident b < bankSize && !(x.pan.any fun q => q.spill != none && q.bank == b) then some none
  else if fld x.panovf.toNat 12 44 == 0 then none
  else
    let n := x.panovf.toNat % 32
    let g := if n == 0 then 0 else r.hash / 2 ^ (64 - n)
    ((List.range 16).find? fun k => !x.pan.any fun q => q.spill == some (g, k)).map fun k => some (g, k)

/-- How an arrival ends. -/
inductive Arrival where
  | ok (s : State)
  | refused (cause : Nat)
deriving DecidableEq, Repr

/-- A new record, with the die's next STAMP (R311): WAITING, or sealed where it was sealed elsewhere (R312, R326, R439). -/
def State.newRec (s : State) (d : Nat) (r : Rec) : Arrival :=
  let x := s.die d
  match x.place r with
  | none => .refused 0x80
  | some pl =>
    let r' := { r with stamp := x.enq, spill := pl }
    .ok ((s.setPan d (x.pan ++ [r'])).modDie d fun y => { y with enq := (y.enq + 1) % 2 ^ 64 })

/-- A record arrives at the pan of a die: it folds into a matching WAITING record, or creates one (R207–R209, R311). A
record whose class is no longer valid is created as it stands, and so is one that was sealed elsewhere. Where two WAITING records
match, both with LR = 1, the earlier one takes the fold (entry 65). -/
def State.arrive (s : State) (d : Nat) (r : Rec) : Arrival :=
  let x := s.die d
  match s.cls d r.asid r.cls with
  | none => s.newRec d r
  | some c =>
    if r.nf || r.sealed then s.newRec d r
    else
      match x.pan.find? fun w => !w.sealed && r.matches' w && !(r.lr && w.lr) with
      | none => s.newRec d (c.create r)
      | some w =>
        if c.run < 8 && decide (c.area < w.acnt + r.acnt) then
          if c.trapPol then .refused 0x81
          else (s.setPan d (x.pan.map fun y => if y.stamp == w.stamp then { y with sealed := true } else y)).newRec d (c.create r)
        else
          let f := c.fold w r
          let f := if r.lr then { f with lr := true, entry := r.entry, lnch := r.lnch } else f
          .ok ((s.setPan d (x.pan.map fun y => if y.stamp == w.stamp then f else y)).count d 0x03 1)

/-- A record leaves the pan of a die. -/
def State.takeRec (s : State) (d : Nat) (r : Rec) : State := s.setPan d ((s.die d).pan.filter fun y => y.stamp != r.stamp)

/-! ### Replies (R131–R133) -/

/-- A reply token: the caller's task, its die and incarnation, and its register (R131). -/
def tokenOf (d : SReg) (die : Nat) (inc : BitVec 16) (tid : Nat) : Word :=
  BitVec.ofNat 64 (2 ^ 63 + inc.toNat * 2 ^ 47 + d.val * 2 ^ 41 + die * 2 ^ 38 + tid % 2 ^ 38)

/-- A reply starts on its way, if there is a token. -/
def State.sendReply (s : State) (token v : Word) : State :=
  if token = 0 then s
  else { s with replies := s.replies.set s.seq { token := token, val := v } }.bump

/-- `REPLY_DELIVERY`: the caller's register is filled wherever it stands, or the reply is dropped and counted (R133). -/
def execReplyDelivery (n : Nat) (s : State) : Out :=
  s.act do
    let r ← s.replies.get? n
    let t := r.token.toNat
    let d := fld t 38 3
    let s' := { s with replies := s.replies.del n }
    if fld t 47 16 != (s.die d).incarn.toNat then some (s'.modDie d fun x => { x with stale := satInc x.stale })
    else
      match s.slots.find? fun e => e.2.live && dieOf e.1 == d && e.2.tid % 2 ^ 38 == t % 2 ^ 38 with
      | some e => s'.fillTask e.1 (Fin.ofNat 64 (fld t 41 6)) r.val
      | none =>
        match s.saved.find? fun e => dieOf e.2.pos == d && e.2.x.tid % 2 ^ 38 == t % 2 ^ 38 with
        | some e => s'.fillTask e.1 (Fin.ofNat 64 (fld t 41 6)) r.val
        | none => some (s'.modDie d fun x => { x with undeliv := satInc x.undeliv })

/-! ### Arrival (R311, R215) -/

/-- Every access of a task with a number below `n` is performed with respect to every observer (R199, R215, R405). -/
def State.performedBefore (s : State) (tid n : Nat) : Bool :=
  let ok (x : Slot) : Bool := x.tid != tid || ((x.accs.all fun a => a.id ≥ n || a.complete) && x.borrowed.isEmpty)
  (s.slots.all fun e => ok e.2) && (s.saved.all fun e => ok e.2.x) && !s.digesting tid n

/-- A record that a task of a deterministic launch has created, or that such records have folded into (R439): not one of the
device's own, and none that starts a launch (R320). -/
def Rec.detChild (r : Rec) : Bool := r.det && !r.dev && !r.lr

/-- The die that R327 names for a record of a deterministic launch within its domain, with its package (R322, R439). -/
def State.detDie (s : State) (d : Nat) (r : Rec) : Option Nat × Nat :=
  let l := match r.dom with | some m => s.domDies m | none => s.upDies.map fun e => (none, e)
  l.getD (r.path.toNat / 2 ^ 32 % l.length) (none, d)

/-- A record on its way to a pan. -/
def State.post (s : State) (m : RecMsg) : State := { s with recs := s.recs.set s.seq m }.bump

/-- A record is dispatchable (R315). -/
def State.dispatchable (s : State) (d : Nat) (r : Rec) : Bool :=
  r.entry != 0xFFFF && r.spill == none && (r.dev || decide (s.gateOfRec d r ≤ (r.payload.toList.getD 0 0).toNat))

/-- A sealed record leaves for a pan of another die or package, where nothing folds with it (R378, R439). -/
def State.forward (s : State) (d : Nat) (r : Rec) : State :=
  let r' := { r with nf := true, sealed := true }
  match s.detDie d r with
  | (none, e) => (s.takeRec d r).post { die := e, r := r', slot := d * 2048, tid := 0, dst := none, free := true }
  | (some q, e) => ((s.takeRec d r).send 0x08 q e d r.asid s.tag 0 0 r'.image).bump

/-- Records of deterministic launches that have become dispatchable are sealed, and sent on where another die is named for them
(R327, R439). -/
def State.forwardDet (s : State) (d : Nat) : State :=
  (s.die d).pan.foldl (fun t r =>
    if r.detChild && s.dispatchable d r then
      if s.detDie d r != (none, d) then t.forward d r
      else t.setPan d ((t.die d).pan.map fun y => if y.stamp == r.stamp then { y with sealed := true } else y)
    else t) s

/-- The refusal of a record reaches its creator as a late outcome (R177, R213); a refused record of the device itself
waits instead. -/
def State.refuse (s : State) (n : Nat) (m : RecMsg) (cause : Nat) : Option State :=
  let l : Late := { id := n, cause := cause, tval := m.r.key, fill := m.dst.map fun d => (d, 0x80) }
  match s.findTask m.tid with
  | some h => some { s.modHolder h fun x => { x with late := x.late ++ [l] } with recs := s.recs.del n }
  | none => some { s with recs := s.recs.del n }

/-- A record of the host's window has arrived, or was refused: DONE, with its CODE (R387). -/
def WinSlot.close (n code : Nat) (w : WinSlot) : WinSlot :=
  if w.post == some n then { w with done := true, code := BitVec.ofNat 8 code, post := none } else w
/-- The window after the arrival of a record. -/
def State.closeWindow (s : State) (n code : Nat) : State :=
  { s with window := s.window.map fun e => (e.1, e.2.close n code), recs := s.recs.del n }

/-- A record has still to arrive before another with a higher number: records that re-queue tasks arrive in the order in which they
were sent, and so do the records of one task to one queue bank (R363, R432). -/
def RecMsg.precedes (e m : RecMsg) : Bool :=
  e.die == m.die && ((e.r.resume.isSome && m.r.resume.isSome) || (e.tid != 0 && e.tid == m.tid && e.r.bank == m.r.bank))

/-- `RECORD_ARRIVAL`: a record reaches a pan (R311, R313), behind those that precede it (R363, R432). The host learns how its record
arrived (R387). -/
def execRecordArrival (die n : Nat) (s : State) : Out :=
  s.act do
    let m ← s.recs.get? n
    let early := s.recs.any fun e => e.1 < n && e.2.precedes m
    if m.die != die || !s.up.getLsbD die || early || !(m.free || s.performedBefore m.tid n) then none
    else
      match s.arrive die m.r with
      | .ok t => some ((t.closeWindow n 0).forwardDet die)
      | .refused c =>
        if m.r.dev || m.r.lr then none
        else if m.tid != 0 then s.refuse n m c
        else if s.window.any fun e => e.2.post == some n then some (s.closeWindow n c)
        else none

/-- `PAN_OVERFLOW_RETURN`: a bank with room takes back its earliest record from the overflow table (R313). -/
def execPanOverflowReturn (die : Nat) (s : State) : Out :=
  s.act do
    let x := s.die die
    let cand := x.pan.filter fun r => r.spill != none && x.resident r.bank < bankSize &&
      !x.pan.any fun q => q.spill != none && q.bank == r.bank && q.stamp < r.stamp
    let r ← s.choose cand
    some ((s.setPan die (x.pan.map fun y => if y.stamp == r.stamp then { y with spill := none } else y)).forwardDet die)

end Sys2Proof.Machine
end

