-- ==== Sys2Proof/Machine/Home.lean ====
section
/-!
DEFINITION. Tile requests on their way to their homes, in this package or another (R276, R376, R378, R385, R399).
-/

namespace Sys2Proof.Machine

/-- The request stores a version. -/
def TileReq.isStore (r : TileReq) : Bool :=
  match r.kind with | .store .. => true | .engStore .. => true | .remoteStore .. => true | _ => false
/-- It lowers a count (R280). -/
def TileReq.consumes (r : TileReq) : Bool :=
  match r.kind with
  | .load c _ => c
  | .drop => true
  | .engLoad _ _ c => c
  | .remote _ _ _ code _ => code == 0 || code == 5
  | _ => false

/-- Kind of a VREQ (R378), which has none for a `tdrop`: it goes as a consuming load whose data is not kept, so that a version
declared 0xFFFF is not reclaimed by it; a digest goes as a peeking load (entry 18). -/
def TileKind.code : TileKind → Nat
  | .load c _ => if c then 0 else 1
  | .drop => 0
  | .peek _ _ => 2
  | .wait => 3
  | .waitY => 4
  | .watch _ => 3
  | .engLoad _ _ c => if c then 5 else 6
  | .digest _ => 6
  | _ => 6

/-- Word index of a `tpeek`. -/
def TileKind.index : TileKind → Nat
  | .peek _ k => k
  | .remote _ _ _ _ k => k
  | _ => 0

/-- The snapshot of a name on another package: no message brings it, so that its fields are free within what R202 gives them; version
0 reads FULL with COUNT 0 (entry 11). -/
def remoteSnapshot (id : Nat) (h : Word) : Word :=
  let f := (Config.remoteName id).toNat
  let state := if verOf h == 0 then 2 else f % 4
  let count := if verOf h == 0 || state != 2 then 0 else fld f 48 16
  BitVec.ofNat 64 (count * 2 ^ 48 + Nat.min 8 (fld f 44 4) * 2 ^ 44 + fld f 40 4 * 2 ^ 40 + fld f 16 24 * 2 ^ 16 + state)

/-- A request to a home on another package starts on its way: it needs DEVLINK and a route (R376, R385). A `tq` has no
message: what R202 leaves open of its value is free. Any other request counts as queued at its home as soon as it has been sent, since
R378 gives no answer that says "not yet FULL": a `twait.y` leaves its slot then (entry 77). -/
def State.remoteRequest (s : State) (id : Nat) (r : TileReq) (q : Nat) : State :=
  let put (st : TileState) : State := { s with tiles := s.tiles.set id { r with st := st } }
  if !s.feature 10 || 1023 < q || !s.routed q then put (.bad 0x43 r.h.toNat)
  else if r.isStore then put .sent
  else
    match r.kind with
    | .query _ => put (.answered (remoteSnapshot id r.h) [] [])
    | _ =>
      (put .queued).send 0x01 q r.home.natural (dieOf r.slot) r.asid (id % 2 ^ 32) r.h
        (BitVec.ofNat 64 (r.kind.index * 2 ^ 8 + r.kind.code)) []

/-- A request with a number starts on its way to its home. -/
def State.sendRequest (s : State) (id : Nat) (r : TileReq) : State :=
  match r.home.pkg with
  | none => { s with tiles := s.tiles.set id r }
  | some q => s.remoteRequest id r q

/-- A message about a request of another package goes to the die that made it, naming the incarnation that the request
named (R282, R373). -/
def State.tell (s : State) (r : TileReq) (typ q d : Nat) (tag q3 : Word) (body : List Byte) : State :=
  let die := s.homeDie r.home
  s.dispatchMsg
    { typ := typ, dpkg := q, spkg := s.pkg, ddie := d, sdie := die, dinc := r.inc.toNat, asid := r.asid,
      sinc := (s.die die).incarn.toNat, len := body.length / 32, tag := tag.toNat, q2 := r.h, q3 := q3, body := body }

end Sys2Proof.Machine
end

