-- ==== Sys2Proof/Machine/Task.lean ====
section
/-!
DEFINITION. Task instructions that create, take and describe records (R130–R132, R211–R221), kernel descriptors (R305,
R306), launch records and their checks (R318–R320).
-/

namespace Sys2Proof.Machine

/-! ### Kernel descriptors (R305, R306) -/

/-- A kernel descriptor. -/
structure Kernel where
  pc : Nat
  cimg : Nat
  stk : Nat
  clen : Nat
  crewM1 : Nat
  shi : Nat
  slo : Nat
  rm : Nat
deriving DecidableEq, Repr

/-- Tile slots saved per image, and log2 of the block size (R335). -/
def Die.poolTiles (x : Die) : Nat := fld x.cbpool.toNat 57 7
/-- Block size. -/
def Die.blockSize (x : Die) : Nat := 2 ^ fld x.cbpool.toNat 8 5
/-- Base of the pool. -/
def Die.poolBase (x : Die) : Nat := fld x.cbpool.toNat 16 40 * 2 ^ 16
/-- Blocks of the pool. -/
def Die.blocks (x : Die) : Nat := 2 ^ fld x.cbpool.toNat 0 5

/-- A number rounded up to a multiple of 4096. -/
def roundUp (n : Nat) : Nat := (n + 4095) / 4096 * 4096

/-- The descriptor that eight words give, where it is valid on a die (R306). -/
def kernelOf (x : Die) (w0 w1 w2 : Nat) (rest : Bool) : Option Kernel :=
  let k : Kernel :=
    { pc := fld w0 0 56, cimg := fld w1 0 56, stk := fld w2 32 16, clen := fld w2 16 9, crewM1 := fld w2 12 3,
      shi := fld w2 8 4, slo := fld w2 4 4, rm := fld w2 0 3 }
  let skim := k.slo == 14 && k.shi == 14
  if bit w0 63 && fld w0 56 7 == 0 && fld w0 0 2 == 0 && fld w1 56 8 == 0 && fld w1 0 2 == 0 && fld w2 48 16 == 0 &&
      fld w2 25 7 == 0 && !bit w2 15 && !bit w2 3 && rest && decide (k.rm ≤ 4 ∧ k.clen ≤ 256 ∧ k.slo ≤ k.shi ∧ k.shi ≤ 14) &&
      !(k.crewM1 != 0 && k.shi == 14) &&
      (skim || decide (roundUp (0x2000 + 64 * k.stk) + 4096 * x.poolTiles ≤ x.blockSize))
  then some k else none

/-- The kernel descriptor of an entry as a die reads it (R305, R317). -/
def State.kernel (s : State) (cd asid entry : Nat) : Option Kernel :=
  match s.ctx cd asid with
  | .ok _ _ kdt _ =>
    let a := kdt + 64 * entry
    if entry == 0xFFFF || !s.isMem a || s.physPoison a then none
    else kernelOf (s.die cd) (s.physNum a 8) (s.physNum (a + 8) 8) (s.physNum (a + 16) 8)
      ((s.physBytes (a + 24) 40).all (· == 0))
  | _ => none

/-- It marks a skim handler (R306). -/
def Kernel.skim (k : Kernel) : Bool := k.slo == 14 && k.shi == 14

/-! ### Control blocks (R335) -/

/-- A block is in use: by a task in or out of its slot, or by a launch. -/
def State.blockUsed (s : State) (a : Nat) : Bool :=
  (s.slots.any fun e => e.2.live && e.2.block == a) || s.saved.has a || s.launches.has a

/-- Some block of a die's pool is in use. -/
def State.poolUsed (s : State) (d : Nat) : Bool :=
  (s.slots.any fun e => dieOf e.1 == d && e.2.live && e.2.block != 0) || (s.saved.any fun e => dieOf e.2.pos == d) ||
    s.launches.any fun e => e.2.die == d

/-- The lowest free block of a die's pool; none while BASE is 0 (R32, R335). -/
def State.freeBlock (s : State) (d : Nat) : Option Nat :=
  let x := s.die d
  if x.poolBase == 0 then none
  else (((List.range x.blocks).find? fun k => !s.blockUsed (x.poolBase + k * x.blockSize))).map fun k =>
    x.poolBase + k * x.blockSize

/-! ### Creating records (R212, R213, R131) -/

/-- CLASS_INVALID, or the outcome of reading a context that is invalid or poisoned (R38, R206); there is no faulting address, and
`ctl.tval` holds the key (entry 68). -/
def State.needClass (s : State) (c : Nat) (tval : Word) (lit : Bool) (k : Cls → Out) : Out :=
  s.needTables (dieOf s.cur) s.me.asid.toNat (fun _ _ cls => [cls + 16 * c]) <|
  match s.ctx (dieOf s.cur) s.me.asid.toNat with
  | .invalid => s.trap 0x46 tval lit
  | .poisoned => s.trap 0x45 tval lit
  | .far _ => s.waits
  | .ok _ _ _ _ =>
    match s.cls (dieOf s.cur) s.me.asid.toNat c with
    | none => s.trap 0x82 tval lit
    | some c => k c

/-- CLASS of a selector (R212). -/
def selClass (w : Word) : Nat := fld w.toNat 16 6
/-- AFF of a selector. -/
def selAff (w : Word) : Nat := fld w.toNat 24 4
/-- A reserved affinity. -/
def badAff (a : Nat) : Bool := decide (8 ≤ a ∧ a ≤ 0xD)

/-- The arguments s3–s10 (R131, R213), read with wait bit 0. -/
def argRefs : List Ref := (List.range 8).map fun j => .s (Fin.ofNat 64 (3 + j)) false

/-- The record that a program of a slot creates. -/
def State.progRec (s : State) (key sel : Word) (aff acnt : Nat) (args : Vector Word 8) (nf : Bool) (token : Word) : Rec :=
  let x := s.me
  { key := key, path := childpath x.path x.idx, folds := 1, sealed := false, nf := nf, lr := false, acnt := acnt, aff := aff,
    prio := fld sel.toNat 22 2, cls := selClass sel, entry := fld sel.toNat 0 16, stamp := 0, token := token,
    asid := x.asid.toNat, lnch := x.lnch, payload := args, spill := none, dev := false, resume := none, det := x.det,
    dom := if x.det then x.dom else none, inst := none }

/-- The issuing slot posts a record: the spawn index is consumed, and the record goes to the die of its affinity, or to
its key-hash die in a deterministic launch (R213). -/
def State.postProg (s : State) (r : Rec) (dst : Option SReg) : State :=
  let d := if s.me.det then s.keyDie r.key else s.affDie r.aff (dieOf s.cur) r.key
  (s.post { die := d, r := r, slot := s.cur, tid := s.me.tid, dst := dst, free := false }).modMe fun x =>
    { x with idx := x.idx + 1 }

/-- `spawn` and `spawnk` after their sources are read (R213). -/
def spawnWith (q : Form) (key sel : Word) (args : Vector Word 8) (acnt : Nat) (s : State) : Out :=
  s.needClass (selClass sel) key q.lit fun c =>
    if s.me.det && !c.independent then s.trap 0x23 key q.lit
    else if badAff (selAff sel) then s.trap 0x02 key q.lit
    else if acnt != 0 && (c.run == 8 || decide (c.area < acnt)) then s.trap 0x82 key q.lit
    else .next (((s.pops q).postProg (s.progRec key sel (selAff sel) acnt args false 0) none).retire q)

/-- `spawn` (R213). -/
def execSpawn (a : SSrc) (b : SOpd) (s : State) : Out :=
  let q : Form := { srcs := sref a :: brefS b ++ argRefs, dsts := [], lit := isLit b }
  let n := if isLit b then 1 else 2
  let sel := s.bval q 1 .zext b
  s.gate q (spawnWith q (s.sval q 0) sel (Vector.ofFn fun j => s.sval q (n + j.val)) (fld sel.toNat 32 5) s)

/-- `spawnk` (R213). -/
def execSpawnk (a : SSrc) (b : SOpd) (s : State) : Out :=
  let q := formR [] a b
  s.gate q (spawnWith q (s.sval q 0) (s.bval q 1 .zext b) (payloadOf [1]) 0 s)

/-- `callr` (R131). -/
def execCallr (d : SReg) (a : SSrc) (b : SOpd) (s : State) : Out :=
  let q : Form := { srcs := sref a :: brefS b ++ argRefs, dsts := [.fillS d], lit := isLit b }
  let n := if isLit b then 1 else 2
  let sel := s.bval q 1 .zext b
  let key := s.sval q 0
  let die := dieOf s.cur
  s.gate q <| s.needClass (selClass sel) key q.lit fun _ =>
    let tok := tokenOf d die (s.die die).incarn s.me.tid
    let r := s.progRec key sel 0xE 0 (Vector.ofFn fun j => s.sval q (n + j.val)) true tok
    .next ((((s.pops q).postProg r (some d)).modMe fun x => x.empty d).retire q)

/-- `path` (R219). -/
def execPath (d : SReg) (b : SOpd) (s : State) : Out :=
  let q := formB [.s d] b
  s.gate q (.next (((s.pops q).put d (childpath s.me.path (s.me.idx + s.bval q 0 .zext b))).retire q))

/-- `rec.ld` (R220). In a member of a crew, field 0 is the member's own key (R325; entry 80). -/
def execRecLd (d : SReg) (b : SOpd) (s : State) : Out :=
  let q := formB [.s d] b
  let k := (s.bval q 0 .zext b).toNat
  let x := s.me
  let v := match k with | 0 => x.key | 1 => x.path | 2 => x.hdr | _ => x.idx
  s.gate q (if 3 < k then s.trap 0x02 (wordOf (.recLd d b)) q.lit else .next (((s.pops q).put d v).retire q))

/-! ### `reap` (R221) -/

/-- The record that a `reap` of an address space takes from a pan: lowest STAMP (R221). -/
def State.reapable (s : State) (d asid c : Nat) (key : Word) (gate : Nat) : Option Rec :=
  let l := (s.die d).pan.filter fun r => r.key == key && r.cls == c && r.asid == asid &&
    (if r.sealed then r.entry == 0xFFFF else decide (gate ≤ (r.payload.toList.getD 0 0).toNat))
  l.foldl (fun b r => match b with | some y => if r.stamp < y.stamp then some r else some y | none => some r) none

/-- A payload as a vector register: two lanes per word (R221). -/
def payloadVec (p : Vector Word 8) : Vec :=
  ofLanes fun i => (p.toList.getD (i / 2) 0).extractLsb' (32 * (i % 2)) 32

/-- `reap` (R221); a reply token of the record taken is answered with 0 (R328). -/
def execReap (d : VReg) (a : SSrc) (b : SOpd) (s : State) : Out :=
  let q := formR [.v d] a b
  let key := s.sval q 0
  let sel := s.bval q 1 .zext b
  s.gate q <| s.needClass (selClass sel) key q.lit fun c =>
    if s.me.det && !c.independent then s.trap 0x23 key q.lit
    else if badAff (selAff sel) then s.trap 0x02 key q.lit
    else
      let die := if s.me.det then s.keyDie key else s.affDie (selAff sel) (dieOf s.cur) key
      match s.reapable die s.me.asid.toNat (selClass sel) key c.gate with
      | none => s.waits
      | some r => .next (((((s.pops q).takeRec die r).sendReply (if r.entry == 0xFFFF then r.token else 0) 0).putV d (payloadVec r.payload)).retire q)

/-! ### Launch records (R318, R319) -/

/-- Word `k` of a launch record. -/
def lw (w : Vector Word 16) (k : Nat) : Nat := (w.toList.getD k 0).toNat
/-- Levels of a launch. -/
def lLevels (w : Vector Word 16) : Nat := fld (lw w 0) 45 3 + 1
/-- KIND, SCOPE and COUNT of level j. -/
def lKind (w : Vector Word 16) (j : Nat) : Nat := fld (lw w (8 + j)) 61 3
def lScope (w : Vector Word 16) (j : Nat) : Nat := fld (lw w (8 + j)) 58 3
def lCount (w : Vector Word 16) (j : Nat) : Nat := fld (lw w (8 + j)) 0 16
/-- DLEV. -/
def lDlev (w : Vector Word 16) : Nat := fld (lw w 0) 48 3
/-- DET. -/
def lDet (w : Vector Word 16) : Bool := bit (lw w 0) 51
/-- ENTRY. -/
def lEntry (w : Vector Word 16) : Nat := fld (lw w 0) 0 16
/-- Least SCOPE of a domain kind (R318). -/
def leastScope (k : Nat) : Nat := ([0, 1, 2, 3, 3, 4, 4, 5] : List Nat).getD k 5
/-- Product of the counts of levels `i` to `j − 1`. -/
def lProd (w : Vector Word 16) (i j : Nat) : Nat := ((List.range j).drop i).foldl (fun n l => n * lCount w l) 1

/-- The table entries that the checks of a launch record read: its kernel, and its classes. -/
def launchTables (w : Vector Word 16) (_tdt kdt cls : Nat) : List Nat :=
  [kdt + 64 * lEntry w, cls + 16 * fld (lw w 0) 34 6, cls + 16 * selClass (BitVec.ofNat 64 (lw w 7))]

/-- A launch record passes the checks of R319 on a die, under an address space. -/
def State.launchOk (s : State) (cd asid : Nat) (w : Vector Word 16) : Bool :=
  let n := lLevels w
  let lv := List.range n
  let w0 := lw w 0
  let sel := lw w 7
  let clsOk (c : Nat) : Bool := match s.cls cd asid c with | some k => !lDet w || k.independent | none => false
  bit w0 63 && fld w0 52 11 == 0 && fld w0 42 3 == 0 && fld w0 28 6 == 0 && fld w0 16 8 == 0 &&
  lv.all (fun j => lScope w j < 6 && fld (lw w (8 + j)) 16 42 == 0 && leastScope (lKind w j) ≤ lScope w j) &&
  ((List.range 8).drop n).all (fun j => lw w (8 + j) == 0) &&
  (lv.drop 1).all (fun j => lKind w j < lKind w (j - 1) && lScope w j ≤ lScope w (j - 1)) &&
  lv.all (fun j => (lKind w j != 0 || j + 1 == n) && (lKind w j != 7 || (j == 0 && s.feature 10))) &&
  lDlev w < n && lw w 4 % 8 == 0 &&
  (match s.kernel cd asid (lEntry w) with
   | some k => k.crewM1 == 0 || decide (2 ≤ lKind w (n - 1))
   | none => false) &&
  clsOk (fld w0 34 6) && (sel == 0 || clsOk (selClass (BitVec.ofNat 64 sel))) && (!lDet w || s.feature 8) &&
  !badAff (fld w0 24 4) && (sel == 0 || !badAff (fld sel 24 4)) && lProd w 0 n ≤ 2 ^ 32


/-- An accepted launch: its control block and its own record (R320). -/
def State.startLaunch (s : State) (w : Vector Word 16) (asid die cb : Nat) (path : Word) (slot tid : Nat) : State :=
  let l : Launch :=
    { words := w, asid := asid, path := path, die := die, started := false, next := 0, posted := [], wait := none,
      refused := false }
  let r : Rec :=
    { key := w.toList.getD 1 0, path := path, folds := 1, sealed := false, nf := false, lr := true, acnt := 0,
      aff := fld (lw w 0) 24 4, prio := fld (lw w 0) 40 2, cls := fld (lw w 0) 34 6, entry := lEntry w, stamp := 0, token := 0,
      asid := asid, lnch := cb, payload := payloadOf [], spill := none, dev := false, resume := none, det := lDet w,
      dom := none, inst := none }
  { s.launchCode cb with launches := s.launches.set cb l }.post
    { die := die, r := r, slot := slot, tid := tid, dst := none, free := false }

/-- The access by which the issuing slot reads a range itself, as the orders of its slot's accesses see it (R178). -/
def State.readAccess (s : State) (a n : Nat) : Access :=
  { id := s.seq, kind := .load false false, asid := s.me.asid.toNat, user := s.me.priv == 0, hint := .dflt, sp := false,
    parts := [mkPart a n 0 0], dst := .none, since := 0, reported := false }

/-- The slot's earlier accesses let an access of its own be performed now (R178, R189). -/
def State.inOrder (s : State) (a : Access) : Bool := a.parts.all fun x => s.ordered s.cur a x

/-- The issuing slot reads 64 bytes of a launch record; where that fails, the task parks or traps (R216). -/
def State.readLaunch (s : State) (a : Word) (k : State → List Byte → Out) : Out :=
  match s.cohRead (.slot s.cur) (dieOf s.cur) s.me.asid.toNat a.toNat 64 { r := true, u := s.me.priv == 0 } with
  | (t, .ok b) => k t b
  | (t, .error c) =>
    if c == 1 then t.waits
    else if c == 0 then t.act (t.park t.cur { cause := 0x40, addr := a.toNat, id := none, refused := false } 0)
    else t.trap c a false

/-- `launch` (R216): the record is read, after the slot's earlier stores to it, and checked, and written into the pan with a free
control block. -/
def execLaunch (a : SSrc) (s : State) : Out :=
  let q := formA [] a
  let addr := s.sval q 0
  let cd := dieOf s.cur
  let asid := s.me.asid.toNat
  s.gate q <| s.ctxCheck addr false <| s.vaCheck addr 64 false <|
    if !s.inOrder (s.readAccess addr.toNat 128) then s.waits
    else
      s.readLaunch addr fun t b0 => t.readLaunch (addr + 64) fun t b1 =>
        let w : Vector Word 16 := Vector.ofFn fun i => BitVec.ofNat 64 (ofBytes (slice (b0 ++ b1) (8 * i.val) 8))
        t.needTables cd asid (launchTables w) <|
        if !t.launchOk cd asid w then t.trap 0x88 addr false
        else
          let die := t.affDie (fld (lw w 0) 24 4) cd (w.toList.getD 1 0)
          match t.freeBlock die with
          | none => t.waits
          | some cb =>
            let path := childpath t.me.path t.me.idx
            let u := (t.pops q).startLaunch w asid die cb path t.cur t.me.tid
            .next ((u.modMe fun x => { x with idx := x.idx + 1 }).retire q)

/-! ### `yield` (R218) -/

/-- A re-queue record of a saved task (R438): its key, path, priority and header, to its own die. -/
def State.requeueRec (s : State) (cb : Nat) : Option RecMsg :=
  (s.saved.get? cb).map fun v =>
    let hdr := s.physNum (cb + 0x10) 8
    { die := dieOf v.pos, slot := dieOf v.pos * 2048, tid := 0, dst := none, free := true,
      r := { key := BitVec.ofNat 64 (s.physNum cb 8), path := BitVec.ofNat 64 (s.physNum (cb + 8) 8), folds := hdr / 2 ^ 48,
             sealed := false, nf := true, lr := false, acnt := fld hdr 32 5, aff := fld hdr 24 4, prio := fld hdr 22 2,
             cls := fld hdr 16 6, entry := fld hdr 0 16, stamp := 0, token := v.x.token, asid := v.x.asid.toNat, lnch := v.x.lnch,
             payload := payloadOf [], spill := none, dev := true, resume := some cb, det := v.x.det, dom := v.x.dom,
             inst := v.x.inst } }

/-- A saved task is re-queued. -/
def State.requeue (s : State) (cb : Nat) : State :=
  match s.requeueRec cb with
  | some m => s.post m
  | none => s

/-- Members of a crew that have not exited. -/
def State.liveMembers (s : State) (ck : Nat) : Nat := onesBelow8 (s.crew ck).live.toNat
where
  /-- One bits of an 8-bit mask. -/
  onesBelow8 (n : Nat) : Nat := ((List.range 8).filter fun k => n.testBit k).length

/-- `yield` (R218): the task leaves its slot and is re-queued behind every record already queued. At PRIV 1 no task leaves its slot
but a parked handler (R368), and the supervisor and the rakes have no control block: there only PC advances (entry 64). -/
def execYield (s : State) : Out :=
  let p := s.cur
  let x := s.me
  if x.use != .task || x.priv != 0 || (x.crew && decide (1 < s.liveMembers (s.crewKey p))) then .next (s.retire (form0 []))
  else if !s.canLeave p then s.waits
  else .next (((s.retire (form0 [])).leave p 3 none none []).requeue x.block)

end Sys2Proof.Machine
end

