-- ==== Sys2Proof/Machine/Sched.lean ====
section
/-!
DEFINITION. The die scheduler (R315–R317, R325), the start of tasks (R9, R306) and their restoration (R340, R364),
launches (R320–R324) and steals (R326).
-/

namespace Sys2Proof.Machine

/-! ### Domains (R318, R322) -/

/-- A slot lies in a domain. -/
def Domain.has (m : Domain) (p : Nat) : Bool :=
  match m.kind with
  | 0 => p == m.idx | 1 => p / 16 == m.idx | 2 => p / 128 == m.idx | 3 => p / 1024 == m.idx | 4 => p / 2048 == m.idx
  | 5 => p / 8192 == m.idx | _ => true

/-- Domains of a kind within a domain, on dies in service, in ascending number (R322). -/
def State.subdomains (s : State) (m : Domain) (k : Nat) : List Domain :=
  let z := domainSize k
  let within (m : Domain) : List Domain :=
    let lo := m.idx * domainSize m.kind / z
    ((List.range (Nat.max 1 (domainSize m.kind / z))).map fun i => ({ kind := k, idx := lo + i, pkg := m.pkg } : Domain)).filter
      fun e => s.domDies e != []
  if k == 7 then [m]
  else if m.kind == 7 then s.group.flatMap fun q => within { kind := 6, idx := 0, pkg := s.pkgName q }
  else within m

/-- The domain to which coordinates bind, from the package or the link group inward; a slot level binds no further
(R322). -/
def State.bindDomain (s : State) (w : Vector Word 16) (coords : List Nat) : Domain :=
  (coords.zipIdx).foldl (fun m (c, j) =>
    let k := lKind w j
    if k == 0 then m
    else
      let l := s.subdomains m k
      l.getD (c % l.length) m) { kind := if lKind w 0 == 7 then 7 else 6, idx := 0 }

/-! ### Places (R27, R316, R325, R332, R340) -/

/-- The slots of a die in the order of places: cluster, slot index, core (R316). -/
def placeOrder (d : Nat) : List Nat :=
  (List.range 16).flatMap fun c => (List.range 15).flatMap fun i => (List.range 8).map fun k => d * 2048 + c * 128 + k * 16 + i

/-- A core holds a bank, or an `abind` waits on it (R27, R316). -/
def State.coreBusy14 (s : State) (k : Nat) : Bool :=
  ((s.cluster (k / 8)).banks.any fun e => match e.2.owner with | some o => coreOf (s.seat o) == k | none => false) ||
    (List.range 16).any fun i => match (s.slot (k * 16 + i)).wait with | .abind _ _ _ => true | _ => false

/-- A slot can stand in a place for a descriptor's slot range (R27, R316). -/
def State.usable (s : State) (held : List Nat) (slo shi p : Nat) : Bool :=
  (s.slot p).vacant && !held.contains p && p % 2048 != 13 && decide (slo ≤ p % 16 ∧ p % 16 ≤ shi) &&
    (p % 16 != 14 || !s.coreBusy14 (coreOf p))

/-- Usable slots of a die for a record, in the order of places. -/
def State.usableSlots (s : State) (d : Nat) (held : List Nat) (slo shi : Nat) (m : Option Domain) : List Nat :=
  (placeOrder d).filter fun p => s.usable held slo shi p && (match m with | some x => x.has p | none => true)

/-- The place of a crew of `n`: the lowest cluster with a slot index usable on `n` cores, the lowest such index, the
lowest cores (R325). -/
def crewPlace (slots : List Nat) (n : Nat) : Option (List Nat) :=
  (slots.map fun p => (p / 128, p % 16)).eraseDups.findSome? fun (c, i) =>
    let l := slots.filter fun p => p / 128 == c && p % 16 == i
    if n ≤ l.length then some (l.take n) else none

/-! ### Starting and restoring tasks -/

/-- `n` free blocks, one after another (R335). -/
def State.freeBlocks (s : State) (d : Nat) : Nat → List Nat → Option (List Nat)
  | 0, acc => some acc.reverse
  | n + 1, acc =>
    let x := s.die d
    match (List.range x.blocks).find? fun k =>
        !s.blockUsed (x.poolBase + k * x.blockSize) && !acc.contains (x.poolBase + k * x.blockSize) with
    | some k => s.freeBlocks d n ((x.poolBase + k * x.blockSize) :: acc)
    | none => none

/-- A task starts in a slot with the state of R9 and R306; its constant image is read before its first instruction. -/
def State.startTask (s : State) (p : Nat) (r : Rec) (k : Kernel) (cb : Nat) (key token : Word) (crewNo : Nat) : State :=
  let regs : List Word := [0, 0, BitVec.ofNat 64 (cb + 0x2000 + 64 * k.stk)] ++ r.payload.toList
  let x : Slot :=
    { Slot.init with
      use := .task, s := Vector.ofFn fun i => regs.getD i.val 0, pc := BitVec.ofNat 64 k.pc, rm := BitVec.ofNat 3 k.rm,
      key := key, path := r.path, hdr := BitVec.ofNat 64 (r.folds * 2 ^ 48 + r.header), asid := BitVec.ofNat 12 r.asid,
      kdesc := BitVec.ofNat 16 r.entry, crew := crewNo != 0, crewNo := crewNo, det := r.det, tid := s.seq + 1, token := token, lnch := r.lnch,
      inst := r.inst, dom := r.dom, block := cb, tileBase := roundUp (0x2000 + 64 * k.stk),
      cimg := if k.clen == 0 then none else some (k.cimg, k.clen),
      issued := (s.slot p).issued }
  (s.setSlot p x).bump.putFields cb [(0x20, 8, r.asid * 2 ^ 16), (0x50, 8, 0)]

/-- The key of member `m` of a crew: of an expansion, and of any other record (R321, R325). -/
def memberKey (r : Rec) (n m : Nat) : Word :=
  if r.dev then
    let i := r.payload.toList.getD 0 0
    r.key - i + BitVec.ofNat 64 n * i + BitVec.ofNat 64 m
  else r.key + BitVec.ofNat 64 m

/-- The tasks of a record start in their places; the lowest member of a crew holds the token (R131, R325). -/
def State.startRec (s : State) (r : Rec) (k : Kernel) (slots blocks : List Nat) : State :=
  match slots, blocks with
  | [p], [b] => s.startTask p r k b (memberKey r 1 0) r.token 0
  | _, _ =>
    let n := slots.length
    let no := s.seq + 1
    let s := ((slots.zip blocks).zipIdx).foldl (fun t ((p, b), m) =>
      t.startTask p r k b (memberKey r n m) (if m == 0 then r.token else 0) no) s
    let mask : BitVec 8 := slots.foldl (fun a p => set8 a (memberOf p)) 0
    match slots with
    | [] => s
    | p :: _ => s.modCrew (s.crewKey p) fun _ => { Crew.init with live := mask, att := mask, dpc := BitVec.ofNat 64 k.pc }

/-- A guard from its two bits in the `ctl.guards` layout. -/
def guardOf (n : Nat) : Guard := match n % 4 with | 1 => .isTrue | 2 => .isFalse | _ => .unresolved

/-- A command that has not started. -/
def Cmd.fresh (ticket : W32) (words : List W32) : Cmd :=
  { ticket := ticket, words := words, started := false, fate := none, pos := 0, paused := false, loaded := false,
    fail := none, marks := [], out := [], wrote := [], tile := none,
    scale := none, rows := [], pops := [], claims := [], page := none, flags := 0 }

/-- The commands that an image holds for an engine (R245, R336). -/
def State.imageCmds (s : State) (cb : Nat) (e : Engine) : List Cmd :=
  (List.range (Nat.min 24 (fld (s.physNum (cb + 0x48) 8) 16 16))).filterMap fun k =>
    let a := cb + 0x1000 + 40 * k
    if s.physNum (a + 0x24) 1 == (engNum e).val then
      some (Cmd.fresh (BitVec.ofNat 32 (s.physNum (a + 0x20) 4))
        ((List.range 8).map fun j => BitVec.ofNat 32 (s.physNum (a + 4 * j) 4)))
    else none

/-- A restored command that has not started, with what had been decided about it (R17, R217). -/
def Saved.refate (v : Saved) (e : Engine) (c : Cmd) : Cmd :=
  { c with fate := (v.fates.find? fun f => f.1 == e && f.2.1 == c.ticket).map (·.2.2) }

/-- The slot that an image gives, over what is kept beside it (R336, R340). -/
def State.loadSlot (s : State) (cb : Nat) (v : Saved) : Slot :=
  let w (o : Nat) : Word := BitVec.ofNat 64 (s.physNum (cb + o) 8)
  let eng (e : Engine) : Eng :=
    let k := (engNum e).val
    let hi := s.physNum (cb + 0x0F70 + 8 * k) 8
    { p := BitVec.ofNat 32 (s.physNum (cb + 0x0F58 + 8 * k) 4), sq := BitVec.ofNat 32 (s.physNum (cb + 0x0F5C + 8 * k) 4),
      lcause := BitVec.ofNat 8 (hi / 2 ^ 32), sub := BitVec.ofNat 8 (hi / 2 ^ 40), lseq := BitVec.ofNat 32 (hi / 2 ^ 48),
      queue := (v.x.engine e).queue ++ (s.imageCmds cb e).map (v.refate e) }
  let posted := (List.range 7).filterMap fun k =>
    let n := s.physNum (cb + 0x0F88 + 8 * k) 8
    if n == 0 then none
    else some { ticket := BitVec.ofNat 32 (n / 256), cause := BitVec.ofNat 8 n,
                eng := (engines.getD (fld n 40 2) .m), at_ := 0 : Posted }
  let fp := s.physNum (cb + 0x0F28) 8
  { v.x with
    use := .task, s := Vector.ofFn fun i => w (0x100 + 8 * i.val), sFull := w 0x0F00,
    v := Vector.ofFn fun i => BitVec.ofNat 512 (s.physNum (cb + 0x300 + 64 * i.val) 64),
    vFull := BitVec.ofNat 32 (s.physNum (cb + 0x0F08) 4),
    m := Vector.ofFn fun i => BitVec.ofNat 16 (s.physNum (cb + 0x0F10 + 2 * i.val) 2),
    g := Vector.ofFn fun i => guardOf (s.physNum (cb + 0x0F20) 8 / 4 ^ i.val),
    cb := Vector.ofFn fun i => BitVec.ofNat 32 (s.physNum (cb + 0x0B00 + 4 * i.val) 4),
    pc := w 0x18, rm := BitVec.ofNat 3 fp, flags := BitVec.ofNat 5 (fp / 8), ten := BitVec.ofNat 5 (fp / 256),
    key := w 0, path := w 8, hdr := w 0x10, idx := w 0x28, token := w 0x40,
    priv := BitVec.ofNat 2 (s.physNum (cb + 0x30) 8), crew := v.x.crew, epc := w 0x0F30,
    cause := BitVec.ofNat 8 (s.physNum (cb + 0x0F38) 8), tval := w 0x0F40, estat := BitVec.ofNat 5 (s.physNum (cb + 0x0F48) 8),
    escratch := w 0x0F50, dirtyS := 0, dirtyV := 0, dirtyT := [], eng := Vector.ofFn fun i => eng (engines.getD i.val .m),
    posted := posted, wait := .none }

/-- Accesses and requests that a refused page ends: the refused one, and later ones with a part on the same page (R364). -/
def refusedBy (f : Fault0) (id : Nat) (addrs : List Nat) : Bool :=
  f.refused && (match f.id with
    | some n => id == n || (decide (n < id) && addrs.any fun a => a / 2 ^ 16 == f.addr / 2 ^ 16)
    | none => false)

/-- A saved access is ended by a refused page: a part that is not performed lies on it. -/
def Access.refused (f : Fault0) (a : Access) : Bool :=
  !a.sp && refusedBy f a.id ((a.parts.filter fun y => !y.performed).map (·.va))

/-- Addresses in memory that a tile request reads: the image or the scales of version 0 (R197, R202). -/
def TileReq.reads (r : TileReq) : List Nat :=
  if verOf r.h != 0 then []
  else match r.kind with
    | .load _ _ => [r.home.base]
    | .peek _ i => if i < 512 then [r.home.base + 8 * i] else (List.range 8).map fun k => r.home.strip + 8 * (i - 512) + k
    | _ => []

/-- A saved tile request is ended by a refused page. -/
def TileReq.refused (f : Fault0) (id : Nat) (r : TileReq) : Bool := refusedBy f id r.reads

/-- An access that fills a register with 0: what a refused page leaves of an access or a request (R364). -/
def Access.ofRefused (id asid : Nat) (dst : FillDst) (parts : List Part) : Access :=
  { id := id, kind := .load false false, asid := asid, user := false, hint := .dflt, sp := false,
    parts := parts.map fun y => { y with st := .done 0, acks := [] }, dst := dst, since := 0, reported := false }

/-- What a refused page leaves of a saved access: its destination to be filled with 0, at once or when a channel takes it. -/
def Access.endRefused (a : Access) : Option Access :=
  match a.dst with | .none => none | d => some (Access.ofRefused a.id a.asid d a.parts)

/-- What a refused page leaves of a saved request. -/
def TileReq.endRefused (id : Nat) (r : TileReq) : Option Access :=
  match r.kind with
  | .peek d _ => some (Access.ofRefused id r.asid (.s d false 8) [mkPart 0 8 0 0])
  | _ => none

/-- What a refused page leaves of a barrier instruction that was still to be performed. -/
def BarReq.endRefused (r : BarReq) (asid : Nat) : Option Access :=
  r.dst.map fun d => Access.ofRefused r.id asid (.s d false 8) [mkPart 0 8 0 0]

/-- The tile slot of a refused load becomes full with 0 (R364). -/
def State.endLoad (s : State) (p : Nat) (r : TileReq) : State :=
  match r.kind with
  | .load _ t => s.modCluster (clusterOf p) fun c => c.zeroTile t
  | _ => s

/-- An access of a restored task: its count of cycles starts again, and its wait is reported anew (R370). -/
def Access.resume (a : Access) (now : Nat) : Access := { a with since := now, reported := false }

/-- A channel whose reader comes back: entries and configuration from its image (R26). A reader that comes back in another slot takes
the channel along: it has the same writer's slot index there, and what the writer has released meanwhile stays released (R52); the
channel of the old core is unconfigured. A writer that comes back elsewhere leaves its end where it was (entry 28). -/
def State.restoreChan (s : State) (cb : Nat) (old p : Nat) (n : Fin 4) : State :=
  let w := s.physNum (cb + 0x1800 + 128 * n.val) 8
  let o := s.chan (coreOf old) n
  let es := (List.range (fld w 9 4)).map fun j => BitVec.ofNat 64 (s.physNum (cb + 0x1808 + 128 * n.val + 8 * j) 8)
  if !bit w 0 then s
  else if old == p then s.modChan (coreOf p) n fun c => { c with fifo := es }
  else
    let s := s.modChan (coreOf old) n fun _ => Channel.init
    s.modChan (coreOf p) n fun c =>
      if c.en then c
      else
        { Channel.init with
          en := true, wslot := BitVec.ofNat 4 (w / 2), rslot := BitVec.ofNat 4 (slotIdx p), wrel := if o.en then o.wrel else bit w 13, fifo := es }

/-- A crew member whose slot was not held, the last live one of its crew, stands in its place as the member of that core; its crew
keeps WDET and LOCK (R29, R51, R218, R228). -/
def State.moveCrew (s : State) (v : Saved) (p : Nat) : State :=
  let old := v.x.crewNo * 2048 + (v.pos / 128 * 16 + v.pos % 16)
  let c := s.crew old
  if v.x.crew && v.pos != p then
    (s.modCrew old fun c => { c with live := 0 }).modCrew (s.crewKey p) fun _ =>
      { Crew.init with live := BitVec.twoPow 8 (memberOf p), wdet := c.wdet, lock := c.lock }
  else s

/-- A withdrawn request is made again; on another cluster a `tld` makes the words of its tile slot there empty (R186, R203, R340). -/
def State.reissue (s : State) (p : Nat) (id : Nat) (r : TileReq) : State :=
  let r' := { r with slot := p, st := .sent, since := s.now, reported := false, inc := (s.die (dieOf p)).incarn }
  let s := match r.kind with
    | .load _ t => (s.modCluster (clusterOf p) fun c =>
        let c := if clusterOf r.slot == clusterOf p then c else c.emptyTile t
        { c with tld := c.tld ++ [(t, id)] }).modSlot p fun x => x.dirtyTile t
    | .store t _ => s.modCluster (clusterOf p) fun c => { c with locks := t :: c.locks }
    | _ => s
  s.sendRequest id r'

/-- A saved task comes back to a slot: tiles, image, commands, accesses, in that order (R340, R364); what a refused page
ends fills its destination with 0, which a channel may hold back (R24), and leaves a trap for the boundary; a constant image
on it is read no further (R306). -/
def State.restore (s : State) (cb p : Nat) : State :=
  match s.saved.get? cb with
  | none => s
  | some v =>
    let tiles := (List.range (Nat.min 64 (fld (s.physNum (cb + 0x48) 8) 40 8))).map fun k => s.physNum (cb + 0x80 + 2 * k) 2
    let s := tiles.zipIdx.foldl (fun t (e, k) =>
      t.modCluster (clusterOf p) fun c => c.putSp (4096 * e) (t.physBytes (cb + v.x.tileBase + 4096 * k) 4096)) s
    let x := s.loadSlot cb v
    let f : Fault0 := v.fault.getD { cause := 0, addr := 0, id := none, refused := false }
    let kept := (x.accs.filter fun a => !a.refused f).map fun a => a.resume s.now
    let ended := (x.accs.filter (Access.refused f)).filterMap Access.endRefused ++
      ((v.tiles.filter fun e => e.2.refused f e.1).filterMap fun e => e.2.endRefused e.1) ++
      ((x.redo.toList.filter fun r => refusedBy f r.id [r.addr.toNat]).filterMap fun r => r.endRefused x.asid.toNat)
    let y := { x with accs := kept ++ ended, redo := x.redo.filter fun r => !refusedBy f r.id [r.addr.toNat],
                      owed := if f.refused then some (f.cause, BitVec.ofNat 64 f.addr) else x.owed,
                      cimg := if f.refused && f.id == none then none else x.cimg }
    let s := ({ s.forgetUnits cb with saved := s.saved.del cb }.setSlot p { y with issued := (s.slot p).issued }).moveCrew v p
    let s := (List.range 4).foldl (fun t n => t.restoreChan cb v.pos p (Fin.ofNat 4 n)) s
    let s := ((s.rename cb p).chanAway p false).settleFills p
    let s := (v.tiles.filter fun e => e.2.refused f e.1).foldl (fun t e => t.endLoad p e.2) s
    let s := (v.tiles.filter fun e => !e.2.refused f e.1).foldl (fun t e => t.reissue p e.1 e.2) s
    s.putFields cb [(0x20, 8, x.asid.toNat * 2 ^ 16)]

/-- The places that a saved task can take: its held slot, or any usable one of its die that its bank and its tile slots allow (R332,
R340). -/
def State.resumePlaces (s : State) (d : Nat) (held : List Nat) (k : Kernel) (cb : Nat) (v : Saved) : List Nat :=
  if v.held then [v.pos]
  else
    let tiles := fld (s.physNum (cb + 0x48) 8) 40 8
    (s.usableSlots d held k.slo k.shi none).filter fun p =>
      (!v.bank || coreOf p == coreOf v.pos) && (tiles == 0 || clusterOf p == clusterOf v.pos)

/-! ### Dispatch (R315–R317) -/

/-- What the scheduler can do with a record: act, or leave it waiting with the slots it holds. -/
inductive Placing where
  | act (s : State)
  | wait (slots : List Nat)
deriving DecidableEq, Repr

/-- The team of a task: its launch, or its address space where it has none (R324). -/
def Slot.team (x : Slot) : Nat × Nat := (x.lnch, if x.lnch == 0 then x.asid.toNat else 0)

/-- Some task of a team stands on a cluster, or has left a slot of it without exiting (R324). -/
def State.teamOn (s : State) (t : Nat × Nat) (k : Nat) : Bool :=
  (s.slots.any fun e => e.2.live && e.2.use == .task && e.1 / 128 == k && e.2.team == t) ||
    s.saved.any fun e => e.2.pos / 128 == k && e.2.x.team == t

/-- Points and rings of a cluster that a team holds are free again (R232, R249). -/
def Cluster.freeTeam (t : Nat × Nat) (c : Cluster) : Cluster :=
  let c := if c.ptTeam == some t then { c with ptTeam := none, points := [] } else c
  if c.ringTeam == some t then { c with ringTeam := none, rings := [] } else c

/-- Points and rings are free where the last task of their team has exited (R232, R249, R324). -/
def State.freeTeams (s : State) (t : Nat × Nat) : State :=
  { s with clusters := s.clusters.map fun e => (e.1, if s.teamOn t e.1 then e.2 else e.2.freeTeam t) }

/-- Posted messages to a task that has exited: dropped on its key-hash die, counted, and answered with UNDELIVERABLE
(R328). -/
def State.dropPosted (s : State) (x : Slot) : State :=
  let d := s.keyDie x.key
  ((s.die d).pan.filter fun r => r.entry == 0xFFFF && r.token != 0 && r.key == x.key && r.asid == x.asid.toNat).foldl
    (fun t r => ((t.takeRec d r).sendReply r.token 0x87).modDie d fun y => { y with undeliv := satInc y.undeliv }) s

/-- A task out of its slot that is never restored is gone: its bank, the slot that is held for it, its crew and its team (R317). -/
def State.dropSaved (s : State) (cb : Nat) : State :=
  match s.saved.get? cb with
  | none => s
  | some v =>
    let ck := s.crewKeyOf cb
    let x := v.x
    let s := ({ s.forgetUnits cb with saved := s.saved.del cb } : State).modCluster (clusterOf v.pos) fun (c : Cluster) =>
      { c with banks := c.banks.map fun e => (e.1, if e.2.owner == some cb then { e.2 with owner := none, flags := 0 } else e.2) }
    let s := if v.held then s.setSlot v.pos Slot.init else s
    let s := if x.crew then s.modCrew ck fun c => { c with live := clear8 c.live (memberOf v.pos) } else s
    (s.freeTeams x.team).dropPosted x

/-- A record that names an invalid descriptor, or that of a skim handler, is removed, reported, and its caller answered; the task that
it would resume is gone with it (R317, R341). -/
def State.refuseRec (s : State) (d : Nat) (r : Rec) : Placing :=
  if (s.die d).fqFull then .wait []
  else .act (((match r.resume with | some cb => (s.takeRec d r).dropSaved cb | none => s.takeRec d r).fqWrite d
    { kind := 4, asid := r.asid, cause := 0x88, addr := r.entry, key := r.key.toNat }).sendReply r.token 0x88)

/-- The descriptor that the scheduler finds for a selected record (R317). -/
def State.recKernel (s : State) (d : Nat) (r : Rec) : Option Kernel :=
  ((if r.asid == 0 then none else s.kernel d r.asid r.entry)).filter fun k => !k.skim

/-- The scheduler's step for one record (R316, R317, R321, R325, R340); a record that it dispatches is counted (R416). A re-queued
task takes any of the places that R340 allows it (entry 36). The record of a launch itself names no kernel (R320 gives it none): it
starts the launch, and R317 refuses the tasks of its expansion one by one. -/
def State.place (s : State) (d : Nat) (held : List Nat) (r : Rec) : Placing :=
  if r.lr then
    match s.launches.get? r.lnch with
    | some l => .act ({ s.takeRec d r with launches := s.launches.set r.lnch { l with started := true } }.count d 0x04 1)
    | none => .act (s.takeRec d r)
  else match s.recKernel d r with
  | none => s.refuseRec d r
  | some k =>
  match r.resume with
  | some cb =>
    match s.saved.get? cb with
    | none => .act (s.takeRec d r)
    | some v =>
      match s.choose (s.resumePlaces d held k cb v) with
      | none => .wait []
      | some p =>
        let t := (s.takeRec d r).restore cb p
        .act ((v.mates.foldl (fun t b => match t.saved.get? b with | some u => t.restore b u.pos | none => t) t).count d 0x04 1)
  | none =>
    let slots := s.usableSlots d held k.slo k.shi r.dom
    let place := if k.crewM1 == 0 then (slots.head?).map fun p => [p] else crewPlace (slots.filter fun p => p % 16 < 14) (k.crewM1 + 1)
    match place, s.freeBlocks d (k.crewM1 + 1) [] with
    | some l, some bs => .act (((s.takeRec d r).startRec r k l bs).count d 0x04 1)
    | _, _ => .wait slots

/-- `a` stands before `b` in the selection order (R315). -/
def Rec.before (a b : Rec) : Bool := decide (b.prio < a.prio) || (a.prio == b.prio && decide (a.stamp < b.stamp))

/-- Insertion into the selection order. -/
def insertRec (r : Rec) : List Rec → List Rec
  | [] => [r]
  | y :: t => if r.before y then r :: y :: t else y :: insertRec r t

/-- Dispatchable records of a die in selection order (R315); a deterministic record is placed only on its own die. -/
def State.selection (s : State) (d : Nat) : List Rec :=
  ((s.die d).pan.filter fun r => s.dispatchable d r && !s.stopped.contains r.asid && !(r.detChild && s.detDie d r != (none, d))).foldr insertRec []

/-- The first record in selection order that can be placed, places held for earlier ones left alone (R316). -/
def State.firstPlace (s : State) (d : Nat) : List Rec → List Nat → Option State
  | [], _ => none
  | r :: t, held =>
    match s.place d held r with
    | .act u => some u
    | .wait l => s.firstPlace d t (held ++ l)

/-- `DISPATCH` (R316); nothing is dispatched while `ctl.cbpool` BASE is 0, or after a quiesce (R32, R402). -/
def execDispatch (die : Nat) (s : State) : Out :=
  s.act (if (s.die die).poolBase == 0 || (s.die die).quiet || !s.up.getLsbD die then none
    else s.firstPlace die (s.selection die) [])

/-! ### Launches (R321–R324) -/

/-- Coordinates of a flat index, level 0 first (R321). -/
def lCoords (w : Vector Word 16) (i : Nat) : List Nat :=
  let n := lLevels w
  (List.range n).map fun j => i / lProd w (j + 1) n % lCount w j

/-- The task record of a flat index, and the package and die of its pan (R321, R322, R438). -/
def State.expandRec (s : State) (cb : Nat) (l : Launch) : (Option Nat × Nat) × Rec :=
  let w := l.words
  let i := l.next
  let cs := lCoords w i
  let m := s.bindDomain w cs
  let path := childpath l.path (BitVec.ofNat 64 i)
  let ds := s.domDies m
  let d := ds.getD ((if lDet w then path.toNat / 2 ^ 32 else i) % ds.length) (none, l.die)
  let co (a : Nat) : Word := BitVec.ofNat 64 (((cs.drop a).take 4).foldr (fun c acc => acc * 2 ^ 16 + c) 0)
  (d,
   { key := w.toList.getD 2 0 + BitVec.ofNat 64 i, path := path, folds := 1, sealed := false, nf := true, lr := false,
     acnt := 0, aff := d.2, prio := fld (lw w 0) 40 2, cls := fld (lw w 0) 34 6, entry := lEntry w, stamp := 0, token := 0,
     asid := l.asid, lnch := cb, payload := payloadOf [BitVec.ofNat 64 i, w.toList.getD 3 0, co 0, co 4], spill := none,
     dev := true, resume := none, det := lDet w, dom := some m, inst := some (i / lProd w (lDlev w + 1) (lLevels w)) })

/-- `LAUNCH_EXPANSION`: the next task record of a started launch enters its pan, and waits while that is full (R321); a record
for another package of the link group leaves as a message (R322, R378). -/
def execLaunchExpansion (n : Nat) (s : State) : Out :=
  s.act do
    let l ← s.launches.get? n
    if !s.up.getLsbD l.die || !l.started || lProd l.words 0 (lLevels l.words) ≤ l.next then none
    else
      let next (t : State) : State := { t with launches := t.launches.set n { l with next := l.next + 1 } }
      match s.expandRec n l with
      | ((some q, d), r) => some ((next s).send 0x08 q d l.die r.asid s.tag 0 0 r.image).bump
      | ((none, d), r) =>
        match s.newRec d r with
        | .ok t => some (next t)
        | .refused _ => none

/-- Some task of a launch, of an instance where one is named, is still to end (R323). -/
def State.launchTasks (s : State) (cb : Nat) (inst : Option Nat) : Bool :=
  let mine (lnch : Nat) (k : Option Nat) : Bool := lnch == cb && (inst == none || k == inst)
  (s.slots.any fun e => e.2.live && mine e.2.lnch e.2.inst) || (s.saved.any fun e => mine e.2.x.lnch e.2.x.inst) ||
  (s.recs.any fun e => !e.2.r.lr && mine e.2.r.lnch e.2.r.inst) ||
  (s.dies.any fun e => e.2.pan.any fun r => !r.lr && mine r.lnch r.inst && (inst != none || s.dispatchable e.1 r || r.dev))

/-- The dependant record of an instance (R323). -/
def Launch.dependant (l : Launch) (k : Nat) : Rec :=
  let w := l.words
  let sel := lw w 7
  { key := w.toList.getD 6 0 + BitVec.ofNat 64 k, path := childpath l.path (BitVec.ofNat 64 (0xFFFFFFFF00000000 ||| k)), folds := 1,
    sealed := false, nf := false, lr := false, acnt := fld sel 32 5, aff := fld sel 24 4, prio := fld sel 22 2, cls := fld sel 16 6,
    entry := fld sel 0 16, stamp := 0, token := 0, asid := l.asid, lnch := 0, payload := payloadOf [1], spill := none,
    dev := false, resume := none, det := false, dom := none, inst := none }

/-- `INSTANCE_COMPLETE`: an instance of level DLEV that has ended posts its dependant record (R323, R324). No slot creates that
record: with affinity 0xF it goes to the pan of the die that holds the launch's control block (entry 66). -/
def execInstanceComplete (n : Nat) (s : State) : Out :=
  s.act do
    let l ← s.launches.get? n
    let w := l.words
    let total := lProd w 0 (lDlev w + 1)
    let per := lProd w (lDlev w + 1) (lLevels w)
    let ended (k : Nat) : Bool := !l.posted.contains k && decide ((k + 1) * per ≤ l.next) && !s.launchTasks n (some k)
    let k ← (List.range total).find? ended
    if !s.up.getLsbD l.die || !l.started then none
    else
      let s := { s with launches := s.launches.set n { l with posted := k :: l.posted } }
      let r := l.dependant k
      if lw w 7 == 0 then some s
      else some (s.post { die := s.affDie r.aff l.die r.key, r := r, slot := l.die * 2048, tid := 0, dst := none, free := true })

/-- A launch whose every part has ended (R323). -/
def State.launchDone (s : State) (cb : Nat) (l : Launch) : Bool :=
  l.started && decide (lProd l.words 0 (lLevels l.words) ≤ l.next) && decide (lProd l.words 0 (lDlev l.words + 1) ≤ l.posted.length) &&
    !s.launchTasks cb none

/-- `LAUNCH_COMPLETE`: the notice is written as `stfill.i64` writes, and the control block is freed. A notice on a page
that is not present waits for it (R362); any other failure, or a refused page, drops the notice (R323). -/
def execLaunchComplete (n : Nat) (s : State) : Out :=
  s.act do
    let l ← s.launches.get? n
    let d := l.die
    let a := lw l.words 4
    let fin (t : State) : State := { t with launches := t.launches.del n }
    if !s.up.getLsbD l.die || !s.launchDone n l || l.wait != none then none
    else if a == 0 then some (fin s)
    else
      let report (t : State) (c : Nat) : Option State :=
        if (t.die d).fqFull then none
        else some (fin (t.fqWrite d { kind := 3, asid := l.asid, eng := true, acc := 1, cause := c, cb := n, addr := a }))
      if l.refused then report s 0x41
      else if 2 ^ 56 ≤ a then report s 0x43
      else match s.cohWrite (.notice n) d l.asid a (toBytes 8 (lw l.words 5)) .now { w := true, u := true } with
        | (t, .ok ()) => some (fin t)
        | (t, .error 1) => some t
        | (t, .error 0) =>
          let y := t.die d
          if y.fqFull then none
          else
            let u := t.fqWrite d { kind := 2, page := a / 2 ^ 16, asid := l.asid, eng := true, acc := 1, cause := 0x41, cb := n, addr := a }
            let m : FaultMsg :=
              { router := 128 + d, port := 17, asid := l.asid, page := a / 2 ^ 16, cause := 0x41, addr := a, die := d,
                inc := y.incarn, acc := 1, eng := true, who := some (.notice n, y.fqNext, y.fqSeq) }
            some { u with launches := u.launches.set n { l with wait := some (y.fqNext, y.fqSeq) },
                          faultMsgs := u.faultMsgs.set u.seq m }.bump
        | (t, .error c) => report t c

/-! ### Steals (R326) -/

/-- A record that may be stolen. -/
def State.stealable (s : State) (d : Nat) (r : Rec) : Bool :=
  s.dispatchable d r && (r.aff == 0xE || r.aff == 0xF) && s.gateOfRec d r == 0 && !r.lr && !r.det && r.resume == none

/-- A free slot of a die could be a place for a record, or part of one (R316, R325, R340). -/
def State.couldUse (s : State) (d p : Nat) (r : Rec) : Bool :=
  match s.recKernel d r with
  | none => false
  | some k =>
    if r.lr then false
    else match r.resume with
    | some cb => (s.saved.get? cb).any fun v => (s.resumePlaces d [] k cb v).contains p
    | none =>
      (s.usableSlots d [] k.slo k.shi r.dom).contains p && (k.crewM1 == 0 || decide (p % 16 < 14))

/-- `IDLE_DIE_STEAL`: a die with a free place that no dispatchable record of its own could use sends a steal request (R326). -/
def execIdleDieSteal (die : Nat) (s : State) : Out :=
  s.act
    (let rs := s.selection die
     if (s.die die).steal.isEmpty && s.up.getLsbD die && (s.usableSlots die [] 0 14 none).any fun p => !rs.any (s.couldUse die p) then
      let g := die / 4 * 4
      let order := ((List.range 3).map fun k => g + (die + k + 1) % 4) ++ (List.range 4).map fun k => (4 - g) + k
      some (s.modDie die fun x => { x with steal := order })
    else none)

/-- `STEAL_REQUEST`: the request of a die reaches its next victim, which answers with its last stealable record,
sealed, or passes the request on (R326). -/
def execStealRequest (die : Nat) (s : State) : Out :=
  s.act do
    let v ← (s.die die).steal.head?
    let l := (s.selection v).filter (s.stealable v)
    let t := s.modDie die fun x => { x with steal := x.steal.tail }
    if l.length < 2 || !s.up.getLsbD v then some t
    else
      let r ← l.getLast?
      some (((t.modDie die fun x => { x with steal := [] }).takeRec v r).post
        { die := die, r := { r with sealed := true }, slot := v * 2048, tid := 0, dst := none, free := true } |>.count die 0x05 1)

end Sys2Proof.Machine
end

