-- ==== Sys2Proof/Machine/Sync.lean ====
section
/-!
DEFINITION. Channels (R222–R224), crews (R225–R230, R329–R331), rendezvous points and barrier objects (R231–R235) and
guards (R236).
-/

namespace Sys2Proof.Machine

/-! ### Channels -/

/-- s60+n of a slot index of the issuing core holds 0; a fill that is still to land keeps it empty (R24, R223). -/
def State.clearEnd (s : State) (idx : Nat) (n : Fin 4) : State :=
  s.modSlot (coreOf s.cur * 16 + idx) fun x => { x.plainReg n with sFull := x.sFull }

/-- `chan.cfg` (R222, R223). -/
def execChanCfg (a : SSrc) (s : State) : Out :=
  let q := formA [] a
  let v := (s.sval q 0).toNat
  let n : Fin 4 := Fin.ofNat 4 v
  let w := fld v 2 4
  let r := fld v 6 4
  let me := slotIdx s.cur
  let c := s.chan (coreOf s.cur) n
  s.gate q <|
    if (me != w && me != r) || w == r || w == 15 || r == 15 then s.trap 0x0A (BitVec.ofNat 64 n.val) false
    else if c.en then
      if c.wslot.toNat == w && c.rslot.toNat == r then .next ((s.pops q).retire q) else s.trap 0x0A (BitVec.ofNat 64 n.val) false
    else
      let new : Channel := { Channel.init with en := true, wslot := BitVec.ofNat 4 w, rslot := BitVec.ofNat 4 r }
      .next (((((s.pops q).modChan (coreOf s.cur) n fun _ => new).clearEnd w n).clearEnd r n).retire q)

/-- `chan.cfg.rel` (R224). -/
def execChanCfgRel (a : SSrc) (s : State) : Out :=
  let q := formA [] a
  let n : Fin 4 := Fin.ofNat 4 (s.sval q 0).toNat
  s.gate q <|
    if (s.chan (coreOf s.cur) n).endAt (slotIdx s.cur) then .next (((s.pops q).releaseEnd s.cur n).retire q)
    else s.trap 0x0A (BitVec.ofNat 64 n.val) false

/-! ### Crews -/

/-- `detach` (R226, R227). -/
def execDetach (s : State) : Out := .next ((s.detach (s.crewKey s.cur) (memberOf s.cur)).retire (form0 []))

/-- `split`: every attached member is detached (R226, R227). -/
def execSplit (s : State) : Out :=
  let t := if s.me.crew then (List.range 8).foldl (fun u m => u.detach (s.crewKey s.cur) m) s else s
  .next (t.retire (form0 []))

/-- `lockstep`: the leader's copy changes LOCK (R226, R228). -/
def execLockstep (a : SSrc) (s : State) : Out :=
  let q := formA [] a
  let lead := s.attached s.cur && leaderOf (s.crew (s.crewKey s.cur)).att == memberOf s.cur
  let t := (s.pops q).retire q
  s.gate q (.next (if lead then t.modCrew (s.crewKey s.cur) fun c => { c with lock := s.sval q 0 != 0, heldAt := [] } else t))

/-- `crewid` (R226, R230). -/
def execCrewid (d : SReg) (s : State) : Out :=
  let q := form0 [.s d]
  let c := s.crew (s.crewKey s.cur)
  let v := c.att.toNat * 2 ^ 24 + c.live.toNat * 2 ^ 16 + s.leaderField c.att * 2 ^ 8 +
    (s.attached s.cur).toNat * 16 + 8 + memberOf s.cur
  s.gate q (.next ((s.put d (if s.me.crew then BitVec.ofNat 64 v else 0)).retire q))

/-- Members that wait at a target for others, and those that their masks name, as far as they are live (R229). -/
def State.rejoinStep (s : State) (ck : Nat) (t : Word) (g : List Nat) : List Nat :=
  (List.range 8).filter fun n => g.contains n || ((s.crew ck).live.getLsbD n && g.any fun m =>
    (s.rejoinAt ck m).any fun r => r.1 == t && r.2.getLsbD n)

/-- The members that wait at a target for others (R229, R432). -/
def State.rejoinWaiting (s : State) (ck : Nat) (t : Word) : List Nat :=
  (List.range 8).filter fun n => (s.rejoinAt ck n).any fun r => r.1 == t && r.2 != 0

/-- The group of a member that waits at a target: itself where its mask is 0, else every member that waits there, closed under their
masks (R229, R432; entry 63). -/
def State.rejoinGroup (s : State) (ck m : Nat) (t : Word) (k : BitVec 8) : List Nat :=
  if k == 0 then [m] else (List.range 8).foldl (fun g _ => s.rejoinStep ck t g) (s.rejoinWaiting ck t)

/-- A member of a complete group completes its `rejoin` and goes on at the target, where a breakpoint at the `rejoin` is taken (R229,
R414). -/
def State.rejoinPass (s : State) (ck : Nat) (t : Word) (m : Nat) : State :=
  let p := crewSlot ck m
  let lit := match (s.slot p).wait with | .rejoin _ _ l => l | _ => false
  { ({ s with cur := p }.modMe fun x => { x with wait := .none }).goToLit lit t with cur := s.cur }

/-- A group that is complete is attached: every other attached member detaches, the buffers are empty, and decode goes on
at the target (R229, R331). -/
def State.rejoinDone (s : State) (ck : Nat) (t : Word) (g : List Nat) : State :=
  let mask : BitVec 8 := g.foldl set8 0
  let s := (List.range 8).foldl (fun u m => if g.contains m then u else u.detach ck m) s
  let s := s.modCrew ck fun c =>
    { c with att := mask, dpc := t, await := none, outs := [], early := [], bufs := [], fullAt := [], heldAt := [] }
  (g.foldl (fun u m => u.rejoinPass ck t m) s).pruneRejoin ck

/-- The mask with which a member waits at `rejoin`: what it names and itself (R229). Where what it names leaves it out, it may stand
for a group of its own instead, for which the mask 0 is kept (R432; entry 63). -/
def State.rejoinMask (s : State) (named : BitVec 8) (m : Nat) : BitVec 8 :=
  if !named.getLsbD m && Config.alone s.tick then 0 else set8 named m

/-- `rejoin` (R226, R229). -/
def execRejoin (a : SSrc) (b : SOpd) (s : State) : Out :=
  let q := formR [] a b
  let p := s.cur
  let ck := s.crewKey p
  let m := memberOf p
  match s.me.wait with
  | .rejoin t k _ =>
    let g := s.rejoinGroup ck m t k
    if g.all fun n => (s.rejoinAt ck n).any (·.1 == t) then .next (s.rejoinDone ck t g) else s.waits
  | _ =>
    let t := s.me.pc + s.bval q 1 .sext b
    s.gate q <|
      if !aligned4 t then s.trap 0x07 (wordOf (.rejoin a b)) q.lit
      else if !s.me.crew then .next ((s.pops q).goToLit q.lit t)
      else
        let mask := s.rejoinMask ((s.sval q 0).extractLsb' 0 8) m
        let u := ((s.pops q).detach ck m).modMe fun x => { x with wait := .rejoin t mask q.lit }
        .next (u.modCrew ck fun c => c.awaitAt t s.now)

/-- `REJOIN_TIMEOUT`: a wait at a target that has lasted TIMEOUT cycles is reported once, for the lowest member that
waits there (R229, R370). -/
def execRejoinTimeout (c : Nat) (s : State) : Out :=
  s.act do
    let limit := (s.die (crewDie c)).wdog.toNat
    let r ← (s.crew c).rejoins.find? fun r => !r.2.2 && limit != 0 && decide (r.2.1 + limit ≤ s.now)
    let m ← (List.range 8).find? fun m => match s.rejoinAt c m with | some (t, _) => t == r.1 | none => false
    some ((s.reportTask (crewSlot c m) 0x83 false 0 0).modCrew c fun x =>
      { x with rejoins := x.rejoins.map fun y => if y.1 == r.1 then (y.1, y.2.1, true) else y })

/-- An instruction at which decode waits for the leader: conditional branches, `jtab`, `jr`, register `call` (R330). -/
def Instr.steers (i : Instr) : Bool :=
  match i with
  | .brEq .. | .brNe .. | .brLt .. | .brGe .. | .brLtn .. | .brGen .. | .brAny .. | .brAll .. | .brNone .. | .brNall .. => true
  | .jtab .. | .jr .. | .callReg .. => true
  | _ => false

/-- The decode point after an instruction that does not steer: the target of `bra` and `call`, or the next address. -/
def Instr.after (i : Instr) (pc : Word) : Word :=
  match i with
  | .bra off => target pc off
  | .call off => target pc off
  | i => if i.literal.isSome then pc + 8 else pc + 4

/-- `FRONT_END_DECODE`: the instruction at the decode point of a crew enters the buffer of every attached member, unless
one is full or a fetch fails, which each member meets at its own issue (R329, R330, R361). -/
def execFrontEndDecode (c : Nat) (s : State) : Out :=
  s.act do
    let w := s.crew c
    let ms := (List.range 8).filter fun m => w.att.getLsbD m
    let lead := crewSlot c (leaderOf w.att)
    if ms.isEmpty || w.await != none || (ms.any fun m => decide (32 ≤ (w.bufs.getD m []).length)) then none
    else match s.fetchInstr lead w.dpc with
      | (_, .fault _, _, _) => none
      | (t, g, word, lit) =>
        let steer := match g with | .instr i => Instr.steers i | _ => false
        let next := match g with | .instr i => Instr.after i w.dpc | _ => w.dpc + 4
        let e : Decoded := { pc := w.dpc, word := word, lit := lit, branch := if steer then some w.nextBranch else none }
        some (t.modCrew c fun x =>
          let bufs := ms.foldl (fun b m => b.upd m [] fun l => l ++ [e]) x.bufs
          { x with bufs := bufs, dpc := next, nextBranch := if steer then x.nextBranch + 1 else x.nextBranch,
                   await := if steer then some w.nextBranch else none,
                   fullAt := ms.foldl (fun f m => if (bufs.getD m []).length == 32 then f.set m s.now else f) x.fullAt })

/-- `CREW_STALL_DETACH`: a member whose full buffer has stalled decode, or which under LOCK = 1 has held the others back, for
more than 4096 cycles without an issue is detached and marked in WDET (R331). -/
def execCrewStallDetach (c m : Nat) (s : State) : Out :=
  s.act
    (let w := s.crew c
     let from_ := if w.lock then w.heldAt else w.fullAt
     let since := Nat.max (from_.getD m s.now) (s.slot (crewSlot c m)).issued
     let stalled := if w.lock then w.heldAt.has m else (w.bufs.getD m []).length == 32
     if w.att.getLsbD m && stalled && decide (4096 < s.now - since) then
       some ((s.detach c m).modCrew c fun x => { x with wdet := set8 x.wdet m })
     else none)

/-! ### Rendezvous points (R231–R233, R324) -/

/-- The team of a task in or out of its slot; a skim handler acts for the binder's team (R324). -/
def State.team (s : State) (p : Nat) : Nat × Nat :=
  match (s.holder p).skim with | some k => (s.holder k.owner).team | none => (s.holder p).team

/-- A point of a cluster. -/
def Cluster.point (c : Cluster) (n : Nat) : Point := c.points.getD n { init := false, e := 0, arrived := 0, gen := 0 }

/-- A point that the issuing slot's team may use goes on; anything else is RV_MISUSE (R232, R324). -/
def State.rv (s : State) (q : Form) (k : Nat → Point → Out) : Out :=
  let n := (s.sval q 0).toNat
  let c := s.myCl
  if 23 < n || (c.ptTeam != none && c.ptTeam != some (s.team s.cur)) then s.trap 0x85 s.me.key q.lit
  else k n (c.point n)

/-- `rv.init` (R232): the first of a team claims the cluster's points. -/
def execRvInit (a : SSrc) (b : SOpd) (s : State) : Out :=
  let q := formR [] a b
  let e := (s.bval q 1 .zext b).toNat
  s.gate q <| s.rv q fun n x =>
    if e == 0 || decide (0xFFFF < e) || (x.init && x.e.toNat != e) then s.trap 0x85 s.me.key q.lit
    else
      let x' := if x.init then x else { x with init := true, e := BitVec.ofNat 16 e, arrived := 0 }
      .next (((s.pops q).modCluster (clusterOf s.cur) fun c =>
        { c with points := c.points.set n x', ptTeam := some (s.team s.cur) }).retire q)

/-- `rv.arr` (R232): every earlier access is performed with respect to the cluster before the arrival counts (R233). -/
def execRvArr (d : SReg) (a : SSrc) (s : State) : Out :=
  let q := formA [.s d] a
  s.gate q <| s.rv q fun n x =>
    if !x.init then s.trap 0x85 s.me.key q.lit
    else if !s.fenced s.cur (2 ^ dieOf s.cur) then s.waits
    else
      let x' := if x.arrived + 1 == x.e.toNat then { x with arrived := 0, gen := x.gen + 1 } else { x with arrived := x.arrived + 1 }
      .next ((((s.pops q).modCluster (clusterOf s.cur) fun c => { c with points := c.points.set n x' }).put d
        (x.gen.zeroExtend 64)).retire q)

/-- `rv.wait` (R232). -/
def execRvWait (a : SSrc) (b : SOpd) (s : State) : Out :=
  let q := formR [] a b
  s.gate q <| s.rv q fun _ x =>
    if !x.init then s.trap 0x85 s.me.key q.lit
    else if x.gen == (s.bval q 1 .zext b).extractLsb' 0 32 then s.waits
    else .next ((s.pops q).retire q)

/-! ### Barrier objects (R234, R235) -/

/-- A barrier object as its sixteen bytes give it. -/
structure Barrier where
  out : Nat
  inb : Nat
  exp : Nat
  pend : Nat
  gen : Nat
  uflow : Bool
  init : Bool
deriving DecidableEq, Repr

/-- The fields of a stored object (R234). Its reserved flags [19:2] are not looked at, and a barrier instruction writes them back as 0
(entry 75). -/
def Barrier.ofNat (n : Nat) : Barrier :=
  { out := fld n 96 32, inb := fld n 64 32, exp := fld n 44 20, pend := fld n 24 20, gen := fld n 20 4, uflow := bit n 1, init := bit n 0 }
/-- The object as stored. -/
def Barrier.toNat (b : Barrier) : Nat :=
  b.out * 2 ^ 96 + b.inb * 2 ^ 64 + b.exp * 2 ^ 44 + b.pend * 2 ^ 24 + b.gen * 2 ^ 20 + b.uflow.toNat * 2 + b.init.toNat
/-- A phase completes when PEND, OUT and IN are 0 (R235). -/
def Barrier.settle (b : Barrier) : Barrier :=
  if b.init && b.pend == 0 && b.out == 0 && b.inb == 0 then { b with gen := (b.gen + 1) % 16, pend := b.exp } else b
/-- OUT or IN counted down by `n` bytes; the fields stop at 0 with UFLOW set (R234). -/
def Barrier.down (b : Barrier) (outbound : Bool) (n : Nat) : Barrier :=
  let v := if outbound then b.out else b.inb
  let b := if v < n then { b with uflow := true } else b
  (if outbound then { b with out := v - n } else { b with inb := v - n }).settle

/-- The access that a barrier instruction makes, as the orders of its slot's accesses see it (R178, R189, R235, R301). -/
def State.barrierAccess (s : State) (a : Nat) (sp : Bool) : Access :=
  { id := s.seq, kind := .barrier, asid := s.me.asid.toNat, user := s.me.priv == 0, hint := .dflt, sp := sp,
    parts := [mkPart a 16 0 0], dst := .none, since := 0, reported := false }

/-- The checks at issue of a barrier instruction on its object; `ok` is its own operand check, before the address (R176, R235). -/
def State.objectCheck (s : State) (a : Word) (sp lit ok : Bool) (k : Out) : Out :=
  let own (k : Out) : Out := if ok then k else s.trap 0x85 s.me.key lit
  if sp then own (s.spCheck a 16 lit k) else s.ctxCheck a lit <| own (s.vaCheck a 16 lit k)

/-- The object of a barrier instruction as the slot's earlier accesses allow it to be read, in the scratchpad or in memory; else a
cause, 0 where its page is not present and 1 where the instruction waits (R177, R235). -/
def State.object (s : State) (a : Word) (sp : Bool) : State × Except Nat Barrier :=
  let probe := s.barrierAccess a.toNat sp
  if sp then
    if s.myCl.locked (a.toNat / 4096) || !s.inOrder probe then (s, .error 1)
    else if s.myCl.spBad a.toNat 16 then (s, .error 0x45)
    else (s, .ok (Barrier.ofNat (ofBytes (s.myCl.spBytes a.toNat 16))))
  else
    let cd := dieOf s.cur
    let asid := s.me.asid.toNat
    match s.cohRead (.slot s.cur) cd asid a.toNat 16 { r := true, w := true, u := s.me.priv == 0 } with
    | (t, .error c) => (t, .error c)
    | (t, .ok d) =>
      if t.inOrder probe then (t.sequence cd (t.scPage cd asid a.toNat), .ok (Barrier.ofNat (ofBytes d))) else (t, .error 1)

/-- The object of a barrier instruction written; in memory it may have to wait (R235, R290). -/
def State.putObject (s : State) (a : Word) (sp : Bool) (b : Barrier) : State × Bool :=
  if sp then ((s.modCluster (clusterOf s.cur) fun c => c.putSp a.toNat (toBytes 16 b.toNat)).modMe fun x => x.touchTiles [a.toNat], true)
  else
    match s.cohWrite (.slot s.cur) (dieOf s.cur) s.me.asid.toNat a.toNat (toBytes 16 b.toNat) .keep { r := true, w := true } with
    | (u, .ok ()) => (u, true)
    | (u, .error _) => (u, false)

/-- What a barrier instruction finds at its object: the object that it leaves and its result, RV_MISUSE, or nothing yet (R235). -/
inductive BarStep where
  | go (b : Barrier) (val : Nat)
  | misuse
  | hold
deriving DecidableEq, Repr

/-- The effect of a barrier instruction on its object (R235): an arrival in a phase that waits for bytes waits for the next one. -/
def BarOp.step (op : BarOp) (x : Barrier) : BarStep :=
  match op with
  | .init e =>
    if x.init && x.pend != x.exp then .misuse
    else .go { out := 0, inb := 0, exp := e, pend := e, gen := 0, uflow := false, init := true } 0
  | .add v =>
    if !x.init then .misuse
    else .go { x with out := (x.out + v % 2 ^ 32) % 2 ^ 32, inb := (x.inb + v / 2 ^ 32) % 2 ^ 32 }.settle 0
  | .arr =>
    if !x.init then .misuse
    else if x.pend == 0 then .hold
    else .go { x with pend := x.pend - 1 }.settle x.gen

/-- Every compute die in service: the observers of package scope on every die (R233). -/
def State.allDies (s : State) : Nat := s.upMask

/-- How a barrier instruction fares: performed with its result, waiting, or failed with a cause (0 for a page that is not present). -/
inductive BarEnd where
  | done (s : State) (val : Nat)
  | waits (s : State)
  | fails (s : State) (cause : Nat)
deriving DecidableEq, Repr

/-- A barrier instruction of the issuing slot on its object; an arrival counts once every earlier access is performed with respect to
every observer (R233, R235). -/
def State.barrierDo (s : State) (op : BarOp) (a : Word) (sp : Bool) : BarEnd :=
  match s.object a sp with
  | (t, .error 1) => .waits t
  | (t, .error c) => .fails t c
  | (t, .ok x) =>
    match op.step x with
    | .misuse => .fails t 0x85
    | .hold => .waits s
    | .go b v =>
      if op == .arr && !t.fenced t.cur t.allDies then .waits s
      else match t.putObject a sp b with
        | (u, true) => .done u v
        | (u, false) => .waits u

/-- The result of a barrier instruction written, where it has one. -/
def State.putGen (s : State) (d : Option SReg) (v : Nat) : State :=
  match d with | some r => s.put r (BitVec.ofNat 64 v) | none => s

/-- `bo.init`, `bo.add` and `bo.arr` after their checks. Another failure than RV_MISUSE is a late outcome: the instruction has no
effect and its result is 0, or, where its page is not present, it is left to be performed before the next instruction (R177, R235). -/
def State.barrier (s : State) (q : Form) (op : BarOp) (a : Word) (sp : Bool) (d : Option SReg) : Out :=
  match s.barrierDo op a sp with
  | .waits t => t.waits
  | .done t v => .next (((t.pops q).putGen d v).retire q)
  | .fails t c =>
    if c == 0x85 then t.trap 0x85 t.me.key q.lit
    else if c == 0 then
      let r : BarReq := { id := t.seq, op := op, addr := a, sp := sp, dst := d }
      .next (((t.pops q).modMe fun x => { (match d with | some r => x.empty r | none => x) with redo := some r }).bump.retire q)
    else
      let l : Late := { id := t.seq, cause := c, tval := a, fill := none }
      .next ((((t.pops q).modMe fun x => { x with late := x.late ++ [l] }).bump.putGen d 0).retire q)

/-- A barrier instruction that has still to be performed is tried before the next instruction: its task parks on a page that is not
present, and any other failure is a late outcome (R177, R235, R361). -/
def State.redoBarrier (s : State) (r : BarReq) : Out :=
  let clear (t : State) : State := t.modMe fun x => { x with redo := none }
  match s.barrierDo r.op r.addr r.sp with
  | .waits t => t.waits
  | .done t v => t.act (match r.dst with | some d => (clear t).fillTask t.cur d (BitVec.ofNat 64 v) | none => some (clear t))
  | .fails t c =>
    if c == 0 then t.act (t.park t.cur { cause := 0x41, addr := r.addr.toNat, id := some r.id, refused := false } 3)
    else
      let l : Late := { id := r.id, cause := c, tval := if c == 0x85 then t.me.key else r.addr, fill := r.dst.map fun d => (d, 0) }
      .next ((clear t).modMe fun x => { x with late := x.late ++ [l] })

/-- The switch that holds the barrier object of the issuing slot, and the object's physical address (R382). -/
def State.mySwitch (s : State) (a : Word) (sp : Bool) : Option (Nat × Nat) :=
  if sp || a.toNat % 16 != 0 || decide (2 ^ 56 ≤ a.toNat) then none
  else s.switchAt s.me.asid.toNat a.toNat (s.me.priv == 0)

/-- A message to the switch of an object (R382). -/
def State.tellSwitch (s : State) (typ q f x : Nat) : State :=
  (s.send typ q 0 (dieOf s.cur) 0 s.tag (BitVec.ofNat 64 (f % 2 ^ 44)) (BitVec.ofNat 64 x) []).bump

/-- The generation that a `bo.wait` finds: the phase is over, or not yet, or the wait missed it (R235). -/
def State.phase (s : State) (q : Form) (gen g : Nat) : Out :=
  if gen == (g + 1) % 16 then .next ((s.pops q).retire q)
  else if gen == g then s.waits
  else s.trap 0x86 s.me.key q.lit

/-- `bo.init` (R235). -/
def execBoInit (a : SSrc) (b : SOpd) (sp : Bool) (s : State) : Out :=
  let q := formR [] a b
  let addr := s.sval q 0
  let e := fld (s.bval q 1 .zext b).toNat 0 20
  s.gate q <| s.objectCheck addr sp q.lit (e != 0) <|
    match s.mySwitch addr sp with
    | some (n, f) => .next (({ s.pops q with shadows := s.shadows.set f 0 }.tellSwitch 0x20 n f e).retire q)
    | none => s.barrier q (.init e) addr sp none

/-- `bo.add`: both byte fields rise in one step (R235); no message of R382 carries it to a switch, where it has no effect on
this package. -/
def execBoAdd (a : SSrc) (b : SOpd) (sp : Bool) (s : State) : Out :=
  let q := formR [] a b
  let addr := s.sval q 0
  s.gate q <| s.objectCheck addr sp q.lit true <|
    match s.mySwitch addr sp with
    | some _ => .next ((s.pops q).retire q)
    | none => s.barrier q (.add (s.bval q 1 .zext b).toNat) addr sp none

/-- `bo.arr` (R233, R235). -/
def execBoArr (d : SReg) (a : SSrc) (sp : Bool) (s : State) : Out :=
  let q := formA [.s d] a
  let addr := s.sval q 0
  s.gate q <| s.objectCheck addr sp false true <|
    match s.mySwitch addr sp with
    | some (n, f) =>
      if !s.fenced s.cur s.allDies then s.waits
      else
        let g := s.shadows.getD f 0
        .next ((((s.pops q).tellSwitch 0x21 n f g).put d (BitVec.ofNat 64 g)).retire q)
    | none => s.barrier q .arr addr sp (some d)

/-- `bo.wait`: a failed access leaves it blocked, so that its own address is the boundary of the late outcome (R177, R235). -/
def execBoWait (a : SSrc) (b : SOpd) (sp : Bool) (s : State) : Out :=
  let q := formR [] a b
  let addr := s.sval q 0
  let g := (s.bval q 1 .zext b).toNat % 16
  s.gate q <| s.objectCheck addr sp q.lit true <|
    match s.mySwitch addr sp with
    | some (_, f) => s.phase q (s.shadows.getD f 0) g
    | none =>
      match s.object addr sp with
      | (t, .error 1) => t.waits
      | (t, .error 0) => t.act (t.park t.cur { cause := 0x41, addr := addr.toNat, id := none, refused := false } 3)
      | (t, .error c) => .next (t.boundaryTrap t.cur c addr)
      | (t, .ok x) => if !x.init then t.trap 0x85 t.me.key q.lit else t.phase q x.gen g

/-! ### Guards (R236) -/

/-- The commands of an engine that have neither ended nor been discarded (R238, R240). -/
def Eng.open (e : Eng) : List Cmd := e.queue.filter fun c => c.fate != some false

/-- A command at the head has met the value of its guard: TRUE has released it, FALSE has discarded it (R17, R236). -/
def Cmd.meet (g : Guard) (c : Cmd) : Cmd :=
  if c.started || c.fate.isSome then c
  else match g with | .unresolved => c | .isTrue => { c with fate := some true } | .isFalse => { c with fate := some false }

/-- Before a guard changes, the command at the head of each queue that names it has met its old value (R17, R236). -/
def Slot.releaseHeads (x : Slot) (g : GReg) : Slot :=
  let head (c : Cmd) : Cmd := if c.guard == g.val then c.meet (x.guard g) else c
  { x with eng := x.eng.map fun e => { e with queue := match e.queue with | c :: t => head c :: t | [] => [] } }

/-- A guard of a slot changed. -/
def Slot.setGuard (x : Slot) (g : GReg) (v : Guard) : Slot := { x with g := x.g.set g.val v g.isLt }

/-- `gset` (R17, R236). -/
def execGset (g : GReg) (b : SOpd) (s : State) : Out :=
  let q := formB [] b
  s.gate q <|
    if g.val = 0 then s.trap 0x02 (wordOf (.gset g b)) q.lit
    else .next (((s.pops q).modMe fun x => (x.releaseHeads g).setGuard g (if s.bval q 0 .zext b = 0 then .isFalse else .isTrue)).retire q)

/-- `gclr`: it waits until no queued command of the slot names the guard (R17, R236). -/
def execGclr (g : GReg) (s : State) : Out :=
  if g.val = 0 then s.trap 0x02 (wordOf (.gclr g)) false
  else if engines.any fun e => (s.me.engine e).open.any fun c => c.guard == g.val then s.waits
  else .next ((s.modMe fun x => x.setGuard g .unresolved).retire (form0 []))

end Sys2Proof.Machine
end

