-- ==== Sys2Proof/Machine/Link.lean ====
section
/-!
DEFINITION. Messages between packages: header, lengths, reserved bits, sending by route, and the checks of a received
message (R373, R376–R381).
-/

namespace Sys2Proof.Machine

/-- Payload flits of a message type; none where the type is reserved (R378). -/
def linkLen (t : Nat) : Option Nat :=
  match t with
  | 0x01 => some 0 | 0x02 => some 0 | 0x03 => some 0 | 0x04 => some 136 | 0x05 => some 136 | 0x06 => some 1 | 0x08 => some 4
  | 0x10 => some 0 | 0x11 => some 0 | 0x12 => some 0 | 0x13 => some 0 | 0x14 => some 0 | 0x15 => some 2 | 0x16 => some 2
  | 0x20 => some 0 | 0x21 => some 0 | 0x22 => some 0 | 0x28 => some 1 | 0x30 => some 0
  | _ => none

/-- Bits of q2 and q3 that a message type uses; the others are reserved (R378). -/
def linkMask (t : Nat) : Nat × Nat :=
  let all := 2 ^ 64 - 1
  let page := 2 ^ 56 - 2 ^ 16
  match t with
  | 0x01 => (all, 0x3FF07) | 0x02 => (all, 0xFFFFFFFF) | 0x03 => (all, 0) | 0x04 => (all, 0xFFFF) | 0x05 => (all, 0) | 0x06 => (all, 0xFF)
  | 0x08 => (0, 0) | 0x10 => (page, 1) | 0x11 => (page, 1) | 0x12 => (page, 0) | 0x13 => (page, 1)
  | 0x14 => (2 ^ 56 - 64, 0) | 0x15 => (2 ^ 56 - 64, 0) | 0x16 => (2 ^ 56 - 64, 0)
  | 0x20 => (2 ^ 56 - 1, 0xFFFFF) | 0x21 => (2 ^ 56 - 1, 0xF) | 0x22 => (2 ^ 56 - 1, 0xF)
  | 0x28 => (all, 3) | 0x30 => (0xF, 0xFFFF)
  | _ => (all, all)

/-- The message that a header and payload give (R377). -/
def LinkMsg.parse (hdr : List Word) (body : List Byte) : Option LinkMsg :=
  match hdr with
  | [a, b, q2, q3] =>
    let x := a.toNat
    let y := b.toNat
    some { typ := fld x 56 8, dpkg := fld x 46 10, spkg := fld x 36 10, ddie := fld x 32 4, sdie := fld x 28 4, dinc := fld x 12 16,
           asid := fld x 0 12, sinc := fld y 48 16, len := fld y 40 8, tag := fld y 0 32, q2 := q2, q3 := q3, body := body }
  | _ => none

/-- A message is as its type asks: length, payload, reserved bits (R377, R378). -/
def LinkMsg.ok (m : LinkMsg) (q1 : Word) : Bool :=
  let k := linkMask m.typ
  linkLen m.typ == some m.len && m.body.length == 32 * m.len && fld q1.toNat 32 8 == 0 &&
    m.q2.toNat &&& k.1 == m.q2.toNat && m.q3.toNat &&& k.2 == m.q3.toNat

/-- Messages that waited for a route, or for traffic to start, leave, in order (R381, R385). -/
def State.release (s : State) : State :=
  let hs := s.held
  hs.foldl State.dispatchMsg { s with held := [] }

/-- A stale or malformed message is dropped and counted on a die (R46, R373). -/
def State.staleDrop (s : State) (d : Nat) : State := s.modDie d fun x => { x with stale := satInc x.stale }

/-- A message of type `typ` arrives (R373, R378): one for another package, or of another type, is none of this step's; a
malformed one, or one that names another incarnation of its die, is dropped and counted. -/
def State.recv (s : State) (typ : Nat) (hdr : List Word) (body : List Byte) (k : LinkMsg → Option State) : Out :=
  s.act do
    let m ← LinkMsg.parse hdr body
    if !s.linked || s.ctrl.quiet || m.dpkg != s.pkg || !s.up.getLsbD m.ddie then none
    else if m.typ != typ then (if linkLen m.typ == none then some (s.staleDrop m.ddie) else none)
    else if !m.ok (hdr.getD 1 0) then some (s.staleDrop m.ddie)
    else if typ != 0x28 && typ != 0x30 && m.dinc != (s.die m.ddie).incarn.toNat then some (s.staleDrop m.ddie)
    else k m

/-- The answer to a message, to the die that sent it, with the incarnation that it named. -/
def State.answer (s : State) (m : LinkMsg) (typ : Nat) (q2 q3 : Word) (body : List Byte) : State :=
  s.dispatchMsg
    { typ := typ, dpkg := m.spkg, spkg := s.pkg, ddie := m.sdie, sdie := m.ddie, dinc := m.sinc, asid := m.asid,
      sinc := (s.die m.ddie).incarn.toNat, len := body.length / 32, tag := m.tag, q2 := q2, q3 := q3, body := body }

end Sys2Proof.Machine
end

