-- ==== Sys2Proof/Machine/Sha.lean ====
section
/-!
DEFINITION. SHA-256 (FIPS 180-4), by which digests and measurements are formed (R405, R406, R409). Its constants are
computed from the primes as that standard derives them.
-/

namespace Sys2Proof.Machine

/-- The primes below 312: the 64 whose roots give the constants. -/
def shaPrimes : List Nat :=
  (List.range 312).filter fun n => decide (2 ≤ n) && (List.range 18).all fun d => decide (d < 2) || decide (n ≤ d) || n % d != 0

/-- The first 32 bits of the fraction of the `k`-th root of a prime, bit by bit from the top. -/
def rootFraction (k p : Nat) : W32 :=
  BitVec.ofNat 32 ((List.range 36).foldl (fun r j => if (r + 2 ^ (35 - j)) ^ k ≤ p * 2 ^ (32 * k) then r + 2 ^ (35 - j) else r) 0)

/-- The constant of each round, by cube roots. -/
def roundConstants : List W32 := shaPrimes.map (rootFraction 3)
/-- The chaining value before the first block, by square roots. -/
def firstChain : List W32 := (shaPrimes.take 8).map (rootFraction 2)

/-- Number of a list of bytes, highest first. -/
def bigEndian (l : List Byte) : Nat := ofBytes l.reverse
/-- `n` bytes of a number, highest first. -/
def bigEndianBytes (n x : Nat) : List Byte := (toBytes n x).reverse

/-- Exclusive or of a word turned right by three amounts; with `last` the third is a shift. -/
def turns (x : W32) (i j k : Nat) (last : Bool) : W32 :=
  (x.rotateRight i ^^^ x.rotateRight j) ^^^ (if last then x >>> k else x.rotateRight k)

/-- The schedule grown by `n` words; the words so far stand newest first. -/
def growSchedule : Nat → List W32 → List W32
  | 0, ws => ws
  | n + 1, ws =>
    let ago (k : Nat) : W32 := (ws.drop (k - 1)).headD 0
    growSchedule n ((turns (ago 2) 17 19 10 true + ago 7 + turns (ago 15) 7 18 3 true + ago 16) :: ws)

/-- The working words of a round (FIPS 180-4 names them a to h). -/
structure Working where
  (a b c d e f g h : W32)

/-- The words of a chaining value taken up. -/
def Working.of (l : List W32) : Working :=
  let x (k : Nat) : W32 := l.getD k 0
  ⟨x 0, x 1, x 2, x 3, x 4, x 5, x 6, x 7⟩
/-- The working words in order. -/
def Working.toList (v : Working) : List W32 := [v.a, v.b, v.c, v.d, v.e, v.f, v.g, v.h]

/-- A round, on a constant and a schedule word summed. -/
def Working.round (v : Working) (k : W32) : Working :=
  let choice := v.g ^^^ (v.e &&& (v.f ^^^ v.g))
  let most := (v.a &&& (v.b ||| v.c)) ||| (v.b &&& v.c)
  let t := v.h + turns v.e 6 11 25 false + choice + k
  ⟨t + turns v.a 2 13 22 false + most, v.a, v.b, v.c, v.d + t, v.e, v.f, v.g⟩

/-- The chaining value after one block of sixteen words. -/
def digestBlock (chain : List W32) (block : List Byte) : List W32 :=
  let first := (List.range 16).map fun j => BitVec.ofNat 32 (bigEndian ((block.drop (4 * j)).take 4))
  let sums := List.zipWith (· + ·) roundConstants (growSchedule 48 first.reverse).reverse
  List.zipWith (· + ·) chain (sums.foldl Working.round (Working.of chain)).toList

/-- The chaining value after `n` blocks. -/
def digestBlocks : Nat → List W32 → List Byte → List W32
  | 0, chain, _ => chain
  | n + 1, chain, b => digestBlocks n (digestBlock chain b) (b.drop 64)

/-- SHA-256 of a message: 32 bytes. -/
def sha256 (m : List Byte) : List Byte :=
  let n := (m.length + 72) / 64
  let padded := m ++ 0x80 :: List.replicate (64 * n - m.length - 9) 0 ++ bigEndianBytes 8 (8 * m.length)
  (digestBlocks n firstChain padded).flatMap fun x => bigEndianBytes 4 x.toNat

end Sys2Proof.Machine
end

