-- ==== Sys2Proof/Machine/Tile.lean ====
section
/-!
DEFINITION. Tensor descriptors (R39, R40), homes of tile names (R276), tile instructions (R34–R36, R196–R204), version
directories (R277–R284), and the steps of version homes.
-/

namespace Sys2Proof.Machine

/-! ### Descriptors and homes -/

/-- A tensor descriptor (R39). -/
structure Desc where
  fmt : Nat
  rows : Nat
  cols : Nat
  tiles : Nat
  base : Nat
  place : Nat
  seed : Nat
  sbase : Nat
  strip : Nat
  scaled : Bool
  pkg : Option Nat
deriving DecidableEq, Repr

/-- Bits per element of a format code (R39). -/
def fmtBits (f : Nat) : Option Nat := ([32, 16, 16, 8, 8, 8, 32, 64, 2] : List Nat)[f]?

/-- The descriptor that eight words give, where it is valid (R40). -/
def descOf (w0 w1 w2 w3 : Nat) (rest : Bool) : Option Desc :=
  let d : Desc :=
    { fmt := fld w0 56 4, rows := fld w3 0 16, cols := fld w3 16 16, tiles := fld w1 0 28, base := fld w0 12 44 * 4096,
      place := fld w1 32 16, seed := fld w3 48 16, sbase := fld w1 48 8, strip := fld w2 0 56, scaled := bit w1 57,
      pkg := if bit w1 58 then some (fld w3 32 16) else none }
  if bit w0 63 && fld w0 60 3 == 0 && fld w0 0 12 == 0 && fld w1 59 5 == 0 && !bit w1 56 && fld w1 28 4 == 0 && fld w2 56 8 == 0 &&
      rest && d.tiles != 0 && (fmtBits d.fmt).any (fun k => d.rows * d.cols * k == 32768) && d.place != 0 && decide (d.place < 256) &&
      (!d.scaled || d.cols == 64)
  then some d else none

/-- The descriptor of a tensor as a die reads it under an address space; one that cannot be read acts as V = 0. -/
def State.desc (s : State) (cd asid tensor : Nat) : Option Desc :=
  match s.ctx cd asid with
  | .ok _ tdt _ _ =>
    let a := tdt + 64 * tensor
    if tensor == 0 || !s.isMem a || s.physPoison a then none
    else descOf (s.physNum a 8) (s.physNum (a + 8) 8) (s.physNum (a + 16) 8) (s.physNum (a + 24) 8)
      ((s.physBytes (a + 32) 32).all (· == 0))
  | _ => none

/-- A scale entry as the device writes and reads it: bits [7:6] are copies of bit 5 (R110). -/
def scaleByte (b : Byte) : Byte := (b.extractLsb' 0 6).signExtend 8

/-- The home of a name (R276), and where its base image and scales lie (R197, R110). -/
def homeOf (h : Word) (d : Desc) : Home :=
  { x := (childpath (BitVec.ofNat 64 (d.seed * 2 ^ 48 + tensorOf h)) (BitVec.ofNat 64 (tileOf h))).toNat, place := d.place,
    base := d.base + 4096 * tileOf h, strip := d.strip + tileOf h * d.rows, rows := if d.scaled then d.rows else 0, pkg := d.pkg }

/-- The handle checks of R34, after the address space (R176): a descriptor, and a tile below its count. A tile instruction has no
virtual address: where its address space is not usable, `ctl.tval` holds the handle (entry 68). -/
def State.handle (s : State) (h : Word) (lit : Bool) (k : Desc → Out) : Out :=
  s.needTables (dieOf s.cur) s.me.asid.toNat (fun tdt _ _ => [tdt + 64 * tensorOf h]) <|
  match s.ctx (dieOf s.cur) s.me.asid.toNat with
  | .invalid => s.trap 0x46 h lit
  | .poisoned => s.trap 0x45 h lit
  | .far _ => s.waits
  | .ok _ _ _ _ =>
    match s.desc (dieOf s.cur) s.me.asid.toNat (tensorOf h) with
    | none => s.trap 0x63 h lit
    | some d => if d.tiles ≤ tileOf h then s.trap 0x64 h lit else k d

/-! ### Requests -/

/-- A request of the issuing slot. -/
def State.newRequest (s : State) (kind : TileKind) (h : Word) (d : Desc) : TileReq :=
  let x := s.me
  { kind := kind, h := h, asid := x.asid.toNat, user := x.priv == 0, slot := s.cur, tid := x.tid, st := .sent, since := s.now,
    reported := false, inc := (s.die (dieOf s.cur)).incarn, poison := false, home := homeOf h d, frame := none }

/-- The issuing slot makes a request. -/
def State.request (s : State) (kind : TileKind) (h : Word) (d : Desc) : State :=
  (s.sendRequest s.seq (s.newRequest kind h d)).bump

/-! ### Instructions -/

/-- A tile slot retired as lasting-faulty traps at issue (check 7 of R176); `ctl.tval` holds its scratchpad offset (entry 68). -/
def State.tileCheck (s : State) (t : Nat) (lit : Bool) (k : Out) : Out :=
  if s.myCl.retired.contains t then s.trap 0x45 (BitVec.ofNat 64 (4096 * t)) lit else k

/-- Every word of a tile slot is full. -/
def Cluster.tileFull (c : Cluster) (t : Nat) : Bool := (List.range 1024).all fun k => c.full (1024 * t + k)

/-- `tld.c`, `tld.p` (R197, R186). -/
def execTld (a : SSrc) (b : SOpd) (peek : Bool) (s : State) : Out :=
  let q := formR [] a b
  let h := s.sval q 0
  let t := fld (s.bval q 1 .zext b).toNat 16 11
  s.gate q <| s.handle h q.lit fun d => s.tileCheck t q.lit <|
    if s.myCl.tld.has t || s.myCl.locked t then s.waits
    else s.roomForAccess <|
      let u := (s.pops q).modCluster (clusterOf s.cur) fun c => { c.emptyTile t with tld := (c.emptyTile t).tld.set t s.seq }
      let u := u.modMe fun x => x.dirtyTile t
      .next ((u.request (.load (!peek) t) h d).retire q)

/-- The command that the copy engine performs next for a slot, which has not started and which nothing holds, writes a tile slot. -/
def Slot.fillsNext (x : Slot) (t : Nat) : Bool :=
  match (x.engine .c).queue with
  | [] => false
  | c :: _ =>
    !c.started && !x.ehold && decide (x.posted.length < 5) &&
      (match c.fate with | some f => f | none => x.guard (Fin.ofNat 16 c.guard) == .isTrue) &&
      c.dest.any fun d => space d.1 == 1 && decide (addrOf d.1 < 4096 * (t + 1) ∧ 4096 * t < addrOf d.1 + d.2)

/-- `tst` (R198). A command of the slot that the copy engine performs next and that writes the source makes its words empty before the
`tst` reads them (R427; entry 29). -/
def execTst (a : SSrc) (b : SOpd) (s : State) : Out :=
  let q := formR [] a b
  let h := s.sval q 0
  let v := (s.bval q 1 .zext b).toNat
  let t := fld v 16 11
  s.gate q <| s.handle h q.lit fun d =>
    if verOf h == 0 then s.trap 0x60 h q.lit
    else if v % 2 ^ 16 == 0 then s.trap 0x66 h q.lit
    else s.tileCheck t q.lit <| if s.me.fillsNext t then s.waits else s.roomForAccess <|
      let u := (s.pops q).modCluster (clusterOf s.cur) fun c => { c with locks := t :: c.locks }
      .next ((u.request (.store t (v % 2 ^ 16)) h d).retire q)

/-- `twait` and `twait.y`: the first issue sends the request; the answer lets the slot go on (R200). At PRIV 1 the slot waits in
place, since only a parked handler leaves a slot there (R368; entry 64). -/
def tileWait (y : Bool) (a : SSrc) (s : State) : Out :=
  let q := formA [] a
  match s.me.wait with
  | .tile id =>
    match s.tiles.get? id with
    | none => .next (s.modMe fun x => { x with wait := .none })
    | some r =>
      match r.st with
      | .answered _ _ _ =>
        .next (({ s.pops q with tiles := s.tiles.del id }.modMe fun x => { x with wait := .none }).retire q)
      | .queued =>
        if y && s.me.use != .skim && s.me.priv == 0 then
          if s.canLeave s.cur then .next ((s.modMe fun x => { x with wait := .none }).leave s.cur 4 none (some id) []) else s.waits
        else s.waits
      | _ => s.waits
  | _ =>
    let h := s.sval q 0
    s.gate q <| s.handle h false fun d => s.roomForAccess <|
      .next ((s.modMe fun x => { x with wait := .tile s.seq }).request (if y then .waitY else .wait) h d)

/-- `twait` (R200). -/
def execTwait (a : SSrc) (s : State) : Out := tileWait false a s
/-- `twait.y` (R200). -/
def execTwaitY (a : SSrc) (s : State) : Out := tileWait true a s

/-- `tdrop` (R201). -/
def execTdrop (a : SSrc) (s : State) : Out :=
  let q := formA [] a
  let h := s.sval q 0
  s.gate q <| s.handle h false fun d =>
    if verOf h == 0 then s.trap 0x66 h false
    else s.roomForAccess <| .next (((s.pops q).request .drop h d).retire q)

/-- `tpeek` (R202). -/
def execTpeek (d : SReg) (a : SSrc) (b : SOpd) (s : State) : Out :=
  let q := formR [.fillS d] a b
  let h := s.sval q 0
  let k := fld (s.bval q 1 .zext b).toNat 0 10
  s.gate q <| s.handle h q.lit fun t =>
    if 544 ≤ k then s.trap 0x64 h q.lit
    else s.roomForAccess <| .next ((((s.pops q).request (.peek d k) h t).modMe fun x => x.empty d).retire q)

/-- `thmake` (R202). -/
def execThmake (d : SReg) (a : SSrc) (b : SOpd) (s : State) : Out :=
  let q := formR [.s d] a b
  let h := s.sval q 0
  let v := (s.bval q 1 .zext b).toNat
  s.gate q <| s.handle h q.lit fun _ =>
    if 2 ^ 24 ≤ v || 2 ^ 24 ≤ verOf h + v then s.trap 0x65 h q.lit
    else .next (((s.pops q).put d (h + BitVec.ofNat 64 v)).retire q)

/-- `tq` (R202). -/
def execTq (d : SReg) (a : SSrc) (s : State) : Out :=
  let q := formA [.fillS d] a
  let h := s.sval q 0
  s.gate q <|
    if s.me.det then s.trap 0x21 0 false
    else s.handle h false fun t => s.roomForAccess <|
      .next ((((s.pops q).request (.query d) h t).modMe fun x => x.empty d).retire q)

/-! ### Version directories (R277, R278) -/

/-- A home taken over from a lost die holds its names lost until the tensor is purged (R399). -/
def State.lostHome (s : State) (die : Nat) (r : TileReq) : Bool :=
  r.home.natural != die && !(s.die die).purged.contains (r.home.natural, tensorOf r.h)

/-- The entry of a request's name, taken at its first request; `none` where its set has no free way (R277). -/
def State.openName (s : State) (die : Nat) (r : TileReq) : Option (State × Name) :=
  let key := s.nameKey r
  match s.names.get? key with
  | some n => some (s, n)
  | none =>
    let set := fld r.home.x 4 (s.die die).sets
    let used := (s.names.filter fun e => e.2.die == die && e.2.set == set).map (·.2.way)
    match (List.range 16).find? fun w => !used.contains w with
    | none => none
    | some w =>
      let n : Name :=
        { die := die, slice := r.home.slice, set := set, way := w, tensor := tensorOf r.h, tile := tileOf r.h, floor := 0,
          slots := [], waiters := [], stores := [], noted := [], lost := s.lostHome die r }
      some (s.setName key n, n)

/-- The frame of a version of a name. -/
def Name.frameOf (n : Name) (v : VSlot) : Frame :=
  { die := if v.loc == 1 then n.die / 4 else n.die, loc := v.loc, slice := if v.loc == 0 then n.slice else 0, n := v.frame }

/-- A frame is in use: by a version, or by a delivery under way (R281). -/
def State.frameUsed (s : State) (f : Frame) : Bool :=
  (s.names.any fun e => e.2.slots.any fun v => e.2.frameOf v.2 == f) || s.tiles.any fun e => e.2.frame == some f

/-- A version's data is poisoned: its own mark, or, in the version store, a poisoned line or a lost die (R397, R399). -/
def State.versionBad (s : State) (n : Name) (v : VSlot) : Bool :=
  v.poison || (v.loc == 2 &&
    let w := (s.die n.die).vstore.toNat
    let base := fld w 16 40 * 2 ^ 16
    ((List.range 64).any fun k => s.physPoison (base + 4096 * v.frame + 64 * k)) ||
      (List.range 4).any fun k => s.physPoison (base + 65536 * (w % 2 ^ 16) + 256 * v.frame + 64 * k))

/-- A pool frame fenced off (R395). -/
def State.poolFenced (s : State) (die slice n : Nat) : Bool := (s.die die).fenced.contains (5, slice * 512 + n)

/-- Frames of a slice's tile pool (R271, R288). -/
def Die.poolSize (x : Die) : Nat := x.memcfg.toNat % 8 * 128

/-- Data and side block of a version (R278). -/
def State.vdata (s : State) (n : Name) (v : VSlot) : List Byte × List Byte :=
  if v.loc == 2 then
    let w := (s.die n.die).vstore.toNat
    let base := fld w 16 40 * 2 ^ 16
    (s.physBytes (base + 4096 * v.frame) 4096, s.physBytes (base + 65536 * (w % 2 ^ 16) + 256 * v.frame) 256)
  else (v.data, v.side)

/-- A version's data and side block put where its frame lies (R278, R287), whose lines they write whole (R397). -/
def State.putVersion (s : State) (key : Nat) (n : Name) (j : Nat) (v : VSlot) (data side : List Byte) : State :=
  if v.loc == 2 then
    let w := (s.die n.die).vstore.toNat
    let base := fld w 16 40 * 2 ^ 16
    let a := base + 4096 * v.frame
    let b := base + 65536 * (w % 2 ^ 16) + 256 * v.frame
    ((((s.putPhys a data).unpoison a 4096).putPhys b side).unpoison b 256).setName key
      { n with slots := n.slots.set j { v with data := [], side := [] } }
  else s.setName key { n with slots := n.slots.set j { v with data := data, side := side } }

/-- A free frame below the tile pool: L3 of the base die, else the version store; which of several is free (R278; entry 51). -/
def State.lowerFrame (s : State) (die pick : Nat) : Option Frame :=
  let cap := Config.l3Frames (die / 4)
  let l3 (k : Nat) : Frame := { die := die / 4, loc := 1, slice := 0, n := (pick + k) % cap }
  let many := (s.die die).vstore.toNat % 2 ^ 16 * 16
  let vs (k : Nat) : Frame := { die := die, loc := 2, slice := 0, n := (pick + k) % many }
  match (List.range cap).find? fun k => !s.frameUsed (l3 k) with
  | some k => some (l3 k)
  | none => ((List.range many).find? fun k => !s.frameUsed (vs k)).map vs

/-- A FULL version moves to another frame with its side block (R278). -/
def State.moveVersion (s : State) (key j : Nat) (f : Frame) : State :=
  match s.names.get? key with
  | none => s
  | some n =>
    match n.slots.get? j with
    | none => s
    | some v =>
      let d := s.vdata n v
      s.putVersion key n j { v with loc := f.loc, frame := f.n } d.1 d.2

/-- FULL versions of a slice's pool that have no delivery under way, with their last delivery; none in a frame fenced off. -/
def State.movable (s : State) (die slice : Nat) : List (Nat × Nat × VSlot) :=
  s.names.flatMap fun e =>
    if e.2.die == die && e.2.slice == slice then
      (e.2.slots.filter fun v => v.2.full && v.2.loc == 0 && !s.poolFenced die slice v.2.frame &&
        !(s.tiles.any fun r => r.2.frame == some (e.2.frameOf v.2))).map
        fun v => (e.1, v.1, v.2)
    else []

/-- The least recently delivered of them. -/
def leastRecent (l : List (Nat × Nat × VSlot)) : Option (Nat × Nat × VSlot) :=
  l.foldl (fun b x => match b with | some y => if x.2.2.last < y.2.2.last then some x else some y | none => some x) none

/-- The frame of a new version: a free pool frame; else a frame below it, for the version itself or for the least
recently delivered one that it displaces (R278). -/
def State.placeVersion (s : State) (die slice pick : Nat) : Option (State × Frame) :=
  let pool (k : Nat) : Frame := { die := die, loc := 0, slice := slice, n := k }
  let free := (List.range (s.die die).poolSize).filter fun k => !s.frameUsed (pool k) && !s.poolFenced die slice k
  if free != [] then some (s, pool (free.getD (pick % free.length) 0))
  else
    match s.lowerFrame die pick with
    | none => none
    | some f =>
      match leastRecent (s.movable die slice), pick % 2 with
      | some (key, j, v), 1 => some (s.moveVersion key j f, pool v.frame)
      | _, _ => some (s, f)

/-! ### Answers -/

/-- A task that waits by `twait.y` outside its slot is re-queued when its version is FULL or RETIRED (R200). -/
def State.wakeWaiter (s : State) (id : Nat) : State :=
  match s.saved.find? fun e => e.2.waits == some id with
  | some e =>
    let u := { s with saved := s.saved.set e.1 { e.2 with waits := none }, tiles := s.tiles.del id }
    u.requeue e.1
  | none => s

/-- The source tile slot of a store is unlocked (R198). -/
def State.unlockSource (s : State) (r : TileReq) : State :=
  match (if r.holds then r.kind.locks else none) with
  | some t => s.modCluster (clusterOf r.slot) fun k => { k with locks := k.locks.erase t }
  | none => s

/-- Status of a VANS for a failing cause (R378); the manual lists none for poison, which goes as 0x43. -/
def vansStatus (c : Nat) : Nat := if c == 0x60 || c == 0x61 then c else 0x43

/-- A version watch whose home on another package refuses it is refused (R389). -/
def State.watchFails (s : State) (n c : Nat) (r : TileReq) : State :=
  match r.home.pkg, s.watches.get? n with
  | some _, some w => { s with watches := s.watches.set n { w with armed := false, st := BitVec.ofNat 8 c } }
  | _, _ => s

/-- The home of a name sends another package's die one VNOTE for a version, before its first answer (R282, R378). -/
def State.note (s : State) (r : TileReq) (q d : Nat) (tag : Word) : State :=
  match s.names.get? (s.nameKey r) with
  | some n =>
    if n.noted.contains (verOf r.h, q * 16 + d) then s
    else ({ s with names := s.names.set (s.nameKey r) { n with noted := (verOf r.h, q * 16 + d) :: n.noted } }).tell r 0x03 q d tag 0 []
  | none => s

/-- A request ends with a late outcome (R177, R197, R198): a `tld` leaves its tile slot, its words full with 0 unless the
version is RETIRED or its page is awaited; a `tst` unlocks its source. -/
def State.failTile (s : State) (id c addr : Nat) : State :=
  match s.tiles.get? id with
  | none => s
  | some r =>
    let s := { s with tiles := s.tiles.set id { r with st := .bad c addr, frame := none } }
    match r.kind with
    | .load _ t =>
      s.modCluster (clusterOf r.slot) fun k =>
        let k := if c == 0x40 then k else k.dropTld t id
        if c == 0x61 || c == 0x40 then k else k.zeroTile t
    | .store _ _ => s.unlockSource r
    | .engStore .. => s.unlockSource r
    | .waitY => s.wakeWaiter id
    | .watch n => { s with tiles := s.tiles.del id }.watchFails n c r
    | .remote q d tag _ _ =>
      ({ s with tiles := s.tiles.del id }.note r q d tag).tell r 0x06 q d tag (BitVec.ofNat 64 (vansStatus c)) (List.replicate 32 0)
    | .remoteStore q d tag _ _ _ =>
      { s with tiles := s.tiles.del id }.tell r 0x06 q d tag (BitVec.ofNat 64 (vansStatus c)) (List.replicate 32 0)
    | _ => s

/-- Word `k` of a version as `tpeek` numbers them (R202). -/
def peekWord (data side : List Byte) (k : Nat) : Word :=
  BitVec.ofNat 64 (ofBytes (if k < 512 then slice data (8 * k) 8 else slice side (8 * (k - 512)) 8))

/-- A watch of the host has a notice due (R389). -/
def State.watchDue (s : State) (n : Nat) : State :=
  match s.watches.get? n with
  | some w => if w.armed then { s with watches := s.watches.set n { w with due := true } } else s
  | none => s

/-- The value that a request is answered with. -/
def TileKind.value (k : TileKind) (data side : List Byte) : Word :=
  match k with | .peek _ j => peekWord data side j | _ => 0

/-- A version's leaf is added to the sum of a group (R405). -/
def State.addLeaf (s : State) (g : Nat) (h : Word) (data side : List Byte) : State :=
  let leaf := BitVec.ofNat 256 (ofBytes (sha256 (toBytes 8 h.toNat ++ data ++ side)))
  { s with accum := s.accum.set (g % 4) (s.accum.toList.getD (g % 4) 0 + leaf) (Nat.mod_lt _ (by decide)) }

/-- A request of this package is answered (R197, R200–R202): words of a `tld` are on their way, a `tdrop` has ended. -/
def State.answerTile (s : State) (id : Nat) (val : Word) (data side : List Byte) : State :=
  match s.tiles.get? id with
  | none => s
  | some r =>
    let put (st : TileState) : State := { s with tiles := s.tiles.set id { r with st := st } }
    match r.kind with
    | .load _ _ => put (.delivering data (List.range 1024))
    | .drop => { s with tiles := s.tiles.del id }
    | .waitY => (put (.answered val data side)).wakeWaiter id
    | .watch n => { s with tiles := s.tiles.del id }.watchDue n
    | .digest g => { s with tiles := s.tiles.del id }.addLeaf g r.h data side
    | _ => put (.answered val data side)

/-- A request of another package is answered: VNOTE before the first answer to a die for a version, then VDATA for the
load kinds and VANS for the others (R282, R378). -/
def State.answerRemote (s : State) (id : Nat) (r : TileReq) (q d : Nat) (tag : Word) (code : Nat)
    (data side : List Byte) : State :=
  let s := { s with tiles := s.tiles.del id }.note r q d tag
  if code == 0 || code == 1 || code == 5 || code == 6 then s.tell r 0x05 q d tag 0 (data ++ side)
  else
    let w : List Byte := if code == 2 then toBytes 8 (peekWord data side r.kind.index).toNat else List.replicate 8 0
    s.tell r 0x06 q d tag 0 (w ++ List.replicate 24 0)

/-! ### Reclaiming (R281) -/

/-- The slot of a name that holds a version. -/
def Name.find (n : Name) (ver : Nat) : Option (Nat × VSlot) := n.slots.find? fun e => e.2.version == ver

/-- Stores that are still copying to versions of the name with a key. -/
def State.copiers (s : State) (key : Nat) : List (Nat × TileReq) :=
  s.tiles.filter fun e => e.2.isStore && e.2.st == .copying && e.2.home.pkg == none && s.nameKey e.2 == key

/-- A version is reclaimed: every lower one retires, and waiters and stores at or below FLOOR are answered (R281). -/
def State.reclaim (s : State) (key ver : Nat) : State :=
  match s.names.get? key with
  | none => s
  | some n =>
    let fl := Nat.max n.floor ver
    let below (id : Nat) : Bool := match s.tiles.get? id with | some r => decide (verOf r.h ≤ fl) | none => false
    let cut := (s.copiers key).filter fun e => decide (verOf e.2.h ≤ fl)
    let n' := { n with floor := fl, slots := n.slots.filter (fun e => fl < e.2.version),
                       waiters := n.waiters.filter (fun w => fl < w.1), stores := n.stores.filter (fun i => !below i) }
    let s := s.setName key n'
    let s := (n.waiters.filter fun w => w.1 ≤ fl).foldl (fun t w => t.failTile w.2 0x61 0) s
    let s := (n.stores.filter below).foldl (fun t i => t.failTile i 0x60 0) s
    cut.foldl (fun t e => t.failTile e.1 0x60 0) s

/-- A FULL version's count after a consuming request: lowered, or reclaimed where it reaches 0, or where a `tdrop` meets
0xFFFF (R36, R201, R280). -/
def State.consume (s : State) (key j ver : Nat) (drop : Bool) : State :=
  match s.names.get? key with
  | none => s
  | some n =>
    match n.slots.get? j with
    | none => s
    | some v =>
      if v.count == 0xFFFF then (if drop then s.reclaim key ver else s)
      else if v.count ≤ 1 then s.reclaim key ver
      else s.setName key { n with slots := n.slots.set j { v with count := v.count - 1 } }

/-- The request receives data of its version: the version is delivered (R278, R397). -/
def TileReq.delivers (r : TileReq) : Bool :=
  match r.kind with
  | .drop => false
  | .wait => false
  | .waitY => false
  | .watch _ => false
  | .remote _ _ _ code _ => decide (code < 3 ∨ 4 < code)
  | _ => true

/-- A request for a FULL version is answered at the home; `ride` where the answer rides on an arrival notice (R280,
R282). Poisoned data is delivered as poison (R397). -/
def State.grant (s : State) (key id : Nat) (ride : Bool) : State :=
  match s.names.get? key, s.tiles.get? id with
  | some n, some r =>
    match n.find (verOf r.h) with
    | none => s
    | some (j, v) =>
      let d := s.vdata n v
      let isDrop := match r.kind with | .drop => true | _ => false
      let bad := s.versionBad n v
      let s := if r.delivers then s.setName key { n with slots := n.slots.set j { v with last := s.now } } else s
      let s :=
        match r.kind with
        | .remote q die tag code _ =>
          if bad && r.delivers then s.failTile id 0x45 r.h.toNat
          else s.answerRemote id r q die tag code d.1 d.2
        | k =>
          if bad && r.delivers then s.failTile id 0x45 r.h.toNat
          else if ride then { s with tiles := s.tiles.set id { r with st := .noticed (k.value d.1 d.2) d.1 d.2, frame := some (n.frameOf v) } }
          else
            let keep := match k with | .load _ _ => some (n.frameOf v) | _ => none
            { s with tiles := s.tiles.set id { r with frame := keep } }.answerTile id (k.value d.1 d.2) d.1 d.2
      if r.consumes then s.consume key j (verOf r.h) isDrop else s
  | _, _ => s

/-- A request that another package's message has brought. -/
def TileReq.foreign (r : TileReq) : Bool := match r.kind with | .remote .. => true | .remoteStore .. => true | _ => false

/-- The requests of this package's dies among several, by die and incarnation, in order (R282). -/
def rideGroups (s : State) : List Nat → List (Nat × BitVec 16 × List Nat)
  | [] => []
  | id :: t =>
    let rest := rideGroups s t
    match s.tiles.get? id with
    | none => rest
    | some r =>
      if r.foreign then rest
      else
        match rest.find? fun g => g.1 == dieOf r.slot && g.2.1 == r.inc with
        | some g => (g.1, g.2.1, id :: g.2.2) :: rest.filter (fun x => !(x.1 == g.1 && x.2.1 == g.2.1))
        | none => (dieOf r.slot, r.inc, [id]) :: rest

/-- Another package is told that a version is FULL, if a request of it waits (R282, R378). -/
def State.noteOf (s : State) (id : Nat) : State :=
  match s.tiles.get? id with
  | some r => match r.kind with | .remote q d tag _ _ => s.note r q d tag | _ => s
  | none => s

/-- A version has become FULL: a notice for each die that holds a waiter on it, and then the waiters are answered in order
(R280, R282). -/
def State.serveWaiters (s : State) (key ver : Nat) : State :=
  match s.names.get? key with
  | none => s
  | some n =>
    let ids := (n.waiters.filter fun w => w.1 == ver).map (·.2)
    let step (t : State) (id : Nat) : State :=
      match t.names.get? key with
      | none => t
      | some m =>
        if m.waiters.contains (ver, id) then
          (t.setName key { m with waiters := m.waiters.filter (· != (ver, id)) }).grant key id true
        else t
    let s' := ids.foldl step (ids.foldl State.noteOf s)
    (rideGroups s ids).foldl (fun t g =>
      { t with notices := t.notices.set t.seq { die := g.1, inc := g.2.1, ids := g.2.2 } }.bump) s'

/-! ### Version 0 (R197, R110) -/

/-- Bytes of memory under an address space, line by line; the first failure with its address. -/
def State.readLines (s : State) (who : Who) (cd asid : Nat) (user : Bool) (a : Nat) : Nat → State × Except (Nat × Nat) (List Byte)
  | 0 => (s, .ok [])
  | n + 1 =>
    match s.cohRead who cd asid a 64 { r := true, u := user } with
    | (t, .error c) => (t, .error (c, a))
    | (t, .ok b) =>
      match t.readLines who cd asid user (a + 64) n with
      | (u, .ok r) => (u, .ok (b ++ r))
      | (u, .error e) => (u, .error e)

/-- Scale entries one by one, for a strip that keeps no line boundary (R110). -/
def State.readStrip (s : State) (who : Who) (cd asid : Nat) (user : Bool) (a : Nat) : Nat → State × Except (Nat × Nat) (List Byte)
  | 0 => (s, .ok [])
  | n + 1 =>
    match s.cohRead who cd asid a 1 { r := true, u := user } with
    | (t, .error c) => (t, .error (c, a))
    | (t, .ok b) =>
      match t.readStrip who cd asid user (a + 1) n with
      | (u, .ok r) => (u, .ok (b.map scaleByte ++ r))
      | (u, .error e) => (u, .error e)

/-- What a request for version 0 reads: the base image, of it one line for a `tpeek`, the row scales of the strip, or nothing
(R110, R197, R202). -/
def State.readBase (s : State) (id : Nat) (r : TileReq) : State × Except (Nat × Nat) (List Byte × List Byte) :=
  let cd := s.homeDie r.home
  let data := match r.kind with
    | .load .. => true | .engLoad .. => true | .peek _ k => decide (k < 512) | .remote _ _ _ c _ => decide (c < 2 ∨ 4 < c) || (c == 2) | _ => false
  let side := match r.kind with
    | .engLoad .. => true | .peek _ k => decide (512 ≤ k) | .remote _ _ _ c _ => decide (4 < c) || (c == 2) | _ => false
  let one := match r.kind with | .peek _ k => some (64 * (k / 8)) | _ => none
  let image : State × Except (Nat × Nat) (List Byte) := match data, one with
    | false, _ => (s, .ok [])
    | true, none => s.readLines (.tile id) cd r.asid r.user r.home.base 64
    | true, some o =>
      match s.readLines (.tile id) cd r.asid r.user (r.home.base + o) 1 with
      | (t, .ok l) => (t, .ok (List.replicate o 0 ++ l))
      | e => e
  match image with
  | (t, .error e) => (t, .error e)
  | (t, .ok d) =>
    match (if side then t.readStrip (.tile id) cd r.asid r.user r.home.strip r.home.rows else (t, .ok [])) with
    | (u, .error e) => (u, .error e)
    | (u, .ok b) => (u, .ok (d, b ++ List.replicate (256 - b.length) 0))

/-- A request for version 0 is answered (R35, R197); the request of another package waits for its page. -/
def State.serveBase (s : State) (id : Nat) (r : TileReq) : Option State :=
  match s.readBase id r with
  | (t, .ok (d, b)) =>
    some (match r.kind with
      | .remote q die tag code _ => t.answerRemote id r q die tag code d b
      | k => t.answerTile id (k.value d b) d b)
  | (t, .error (1, _)) => some t
  | (t, .error (c, a)) =>
    match r.kind with
    | .remote .. => if c == 0 then none else some (t.failTile id c a)
    | _ => some (t.failTile id (if c == 0 then 0x40 else c) a)

/-! ### Steps of a home -/

/-- The snapshot of a name that `tq` writes (R202). -/
def State.snapshot (s : State) (r : TileReq) : Word :=
  let ver := verOf r.h
  match s.names.get? (s.nameKey r) with
  | none => BitVec.ofNat 64 (if ver == 0 then 2 else 0)
  | some n =>
    let v := n.find ver
    let state := if ver == 0 then 2 else if ver ≤ n.floor then 3 else match v with | some (_, x) => if x.full then 2 else 1 | none => 0
    let count := match v with | some (_, x) => if x.full then x.count else 0 | none => 0
    let waits := Nat.min 15 (n.waiters.filter fun w => w.1 == ver).length
    let newest := n.slots.foldl (fun a e => if e.2.full then Nat.max a e.2.version else a) 0
    BitVec.ofNat 64 (count * 2 ^ 48 + n.slots.length * 2 ^ 44 + waits * 2 ^ 40 + newest * 2 ^ 16 + state)

/-- `VERSION_REQUEST`: a load, peek, wait, drop or query reaches its home and is answered or becomes a waiter (R280). -/
def execVersionRequest (die n : Nat) (s : State) : Out :=
  s.act do
    let r ← s.tiles.get? n
    let ver := verOf r.h
    if r.st != .sent || r.isStore || r.home.pkg != none || s.homeDie r.home != die || !s.up.getLsbD die then none
    else match r.kind with
    | .query _ =>
      let t := ((s.openName die r).map (·.1)).getD s
      some (t.answerTile n (t.snapshot r) [] [])
    | _ =>
      let (t, m) ← s.openName die r
      let key := s.nameKey r
      if ver == 0 then t.serveBase n r
      else if m.lost then some (t.failTile n 0x45 r.h.toNat)
      else if ver ≤ m.floor then some (t.failTile n 0x61 0)
      else if (m.find ver).any fun e => e.2.full then some (t.grant key n false)
      else
        let t := { t with tiles := t.tiles.set n { r with st := .queued } }
        some ((t.setName key { m with waiters := m.waiters ++ [(ver, n)] }).count die 0x07 1)

/-- A store waits at its home, behind the stores already waiting there. -/
def State.queueStore (s : State) (key n : Nat) (m : Name) (r : TileReq) : State :=
  if m.stores.contains n then s
  else ({ s with tiles := s.tiles.set n { r with st := .queued } }.setName key { m with stores := m.stores ++ [n] }).count m.die 0x07 1

/-- Reader count of a store. -/
def TileKind.readers : TileKind → Nat
  | .store _ c => c
  | .engStore _ _ c _ _ _ _ => c
  | .remoteStore _ _ _ c _ _ => c
  | _ => 0

/-- `VERSION_STORE_REQUEST`: a store reaches its home, or its turn comes there: it reserves its version (R198, R279). -/
def execVersionStoreRequest (die n pick : Nat) (s : State) : Out :=
  s.act do
    let r ← s.tiles.get? n
    if !r.isStore || r.home.pkg != none || s.homeDie r.home != die || !(r.st == .sent || r.st == .queued) || !s.up.getLsbD die then none
    else
      let (t, m) ← s.openName die r
      let key := s.nameKey r
      let ver := verOf r.h
      let mine := m.stores.head? == some n || m.stores.isEmpty
      if m.lost then some (t.failTile n 0x45 r.h.toNat)
      else if !mine || 8 ≤ m.slots.length then some (t.queueStore key n m r)
      else
        let m' := { m with stores := m.stores.filter (· != n) }
        if ver ≤ m.floor || (m.find ver).isSome then some ((t.setName key m').failTile n 0x60 0)
        else
          match t.placeVersion die m.slice pick with
          | none => some (t.queueStore key n m r)
          | some (u, f) =>
            let m'' := (u.names.get? key).getD m
            let j := ((List.range 8).find? fun j => !m''.slots.has j).getD 0
            let v : VSlot :=
              { version := ver, full := false, loc := f.loc, count := r.kind.readers, frame := f.n, data := [], side := [],
                last := u.now, poison := false }
            some ({ u with tiles := u.tiles.set n { r with st := .copying } }.setName key
              { m'' with stores := m''.stores.filter (· != n), slots := m''.slots.set j v })

/-- Data, side block and poison that a store takes, once its source is ready: every word of the tile slot full, every
earlier access of the task performed, and every earlier `tst` of the tile slot done (R198, R199). -/
def State.storeSource (s : State) (n : Nat) (r : TileReq) : Option (List Byte × List Byte × Bool) :=
  match r.kind with
  | .store t _ =>
    let c := s.cluster (clusterOf r.slot)
    let earlier := s.tiles.any fun e => e.1 < n && (match e.2.kind, e.2.st with
      | .store u _, .bad _ _ => u == t && false
      | .store u _, _ => u == t && clusterOf e.2.slot == clusterOf r.slot && (e.2.home.pkg == none || e.2.st == .sent)
      | _, _ => false)
    if c.tileFull t && s.performedBefore r.tid n && !earlier then
      some (c.tileBytes t, List.replicate 256 0, (List.range 1024).any fun k => c.spPoison.has (1024 * t + k))
    else none
  | .engStore _ _ _ (some t) sc _ _ =>
    let c := s.cluster (clusterOf r.slot)
    let side := match sc with | some (off, k) => (c.spBytes off k).map scaleByte | none => []
    let bad := (List.range 1024).any (fun k => c.spPoison.has (1024 * t + k)) ||
      match sc with | some (off, k) => c.spBad off k || c.spGone off k | none => false
    if c.tileFull t then some (c.tileBytes t, side ++ List.replicate (256 - side.length) 0, bad) else none
  | .engStore _ _ _ none _ d b => some (d, b, false)
  | .remoteStore _ _ _ _ d b => some (d, b, false)
  | _ => none

/-- A store has read its source and its request ends: the tile slot is unlocked, an engine or another package is told. -/
def State.storeDone (s : State) (n : Nat) (r : TileReq) : State :=
  match r.kind with
  | .store _ _ => { s with tiles := s.tiles.del n }.unlockSource r
  | .remoteStore q d tag _ _ _ =>
    { s with tiles := s.tiles.del n }.tell r 0x06 q d tag 0 (List.replicate 32 0)
  | _ => { s with tiles := s.tiles.set n { r with st := .answered 0 [] [] } }.unlockSource r

/-- `VERSION_COPY_DONE`: the copy ends, the version is FULL and its waiters are served; a store to a home on another
package sends its data (R198, R282, R378). For the choice of the least recently delivered version (R278) the cycle in which a
version became FULL counts as its last delivery until it has one (entry 67). -/
def execVersionCopyDone (die n : Nat) (s : State) : Out :=
  s.act do
    let r ← s.tiles.get? n
    let (d, b, bad) ← s.storeSource n r
    match r.home.pkg with
    | some q =>
      if r.st != .sent || dieOf r.slot != die then none
      else if bad && r.ofEngine then some (s.failTile n 0x45 r.h.toNat)
      else
        let s := s.send 0x04 q r.home.natural die r.asid (n % 2 ^ 32) r.h (BitVec.ofNat 64 r.kind.readers) (d ++ b)
        let s := s.unlockSource r
        some { s with tiles := s.tiles.set n { r with st := .away } }
    | none =>
      let key := s.nameKey r
      let m ← s.names.get? key
      let (j, v) ← m.find (verOf r.h)
      if r.st != .copying || s.homeDie r.home != die then none
      else if bad && r.ofEngine then
        some ((s.setName key { m with slots := m.slots.filter fun e => e.1 != j }).failTile n 0x45 r.h.toNat)
      else
        let s := s.putVersion key m j { v with full := true, poison := bad, last := s.now } d b
        some ((s.storeDone n r).serveWaiters key (verOf r.h))

/-- A request that an arrival notice brings is answered at its die. -/
def State.noticed (s : State) (id : Nat) : State :=
  match s.tiles.get? id with
  | some r => match r.st with
    | .noticed val d b =>
      let keep := match r.kind with | .load _ _ => r.frame | _ => none
      { s with tiles := s.tiles.set id { r with frame := keep } }.answerTile id val d b
    | _ => s
  | none => s

/-- A request that rides on a notice with that incarnation of a die, and has not been asked again from elsewhere (R282). -/
def TileReq.rides (r : TileReq) (m : Notice) : Bool :=
  (match r.st with | .noticed _ _ _ => true | _ => false) && dieOf r.slot == m.die && r.inc == m.inc

/-- `ARRIVAL_NOTICE`: a notice reaches its die with the requests that ride on it, or is dropped as stale with them (R282). -/
def execArrivalNotice (die n : Nat) (s : State) : Out :=
  s.act do
    let m ← s.notices.get? n
    if m.die != die then none
    else
      let s := { s with notices := s.notices.del n }
      if m.inc != (s.die die).incarn then
        some ({ s with tiles := s.tiles.filter fun e => !(m.ids.contains e.1 && e.2.rides m) }.staleDrop die)
      else some (m.ids.foldl State.noticed s)

/-- `TILE_DELIVERY`: a word of a delivery reaches its tile slot and becomes full; the last one ends the `tld` (R197). -/
def execTileDelivery (n w : Nat) (s : State) : Out :=
  s.act do
    let r ← s.tiles.get? n
    match r.kind, r.st with
    | .load _ t, .delivering d left =>
      if !left.contains w then none
      else
        let rest := left.filter (· != w)
        let s := s.modCluster (clusterOf r.slot) fun c =>
          let c := (c.putWord (1024 * t + w) (BitVec.ofNat 32 (ofBytes (slice d (4 * w) 4)))).fillWord (1024 * t + w)
          if rest.isEmpty then c.dropTld t n else c
        some (if rest.isEmpty then { s with tiles := s.tiles.del n }
              else { s with tiles := s.tiles.set n { r with st := .delivering d rest } })
    | _, _ => none

/-- The message of a request waits in this package for a route (R381). -/
def State.heldMsg (s : State) (id : Nat) : Bool := s.held.any fun m => (m.typ == 0x01 || m.typ == 0x04) && m.tag == id % 2 ^ 32

/-- A request that waits at its home, made by a task of this package or by one of its engines (R360, R370): not a `tq`, not one of
version 0 that its image keeps waiting, not a store that still waits for its source words, and none whose message waits for a
route. -/
def State.awaits (s : State) (id : Nat) (r : TileReq) : Bool :=
  let query := match r.kind with | .query _ => true | _ => false
  let atHome := verOf r.h != 0 || (s.openName (s.homeDie r.home) r).isNone
  (r.ofTask || r.ofEngine) && !query && !s.heldMsg id &&
    (r.st == .queued || r.st == .away || (r.st == .sent && atHome && !(r.isStore && r.home.pkg.isSome)))

/-- `VERSION_WAIT_TIMEOUT`: a wait at a version home that has lasted TIMEOUT cycles is reported once (R197, R198, R277,
R370). -/
def execVersionWaitTimeout (n : Nat) (s : State) : Out :=
  s.act do
    let r ← s.tiles.get? n
    let limit := (s.die (dieOf r.slot)).wdog.toNat
    let h ← s.findTask r.tid
    if r.reported || limit == 0 || s.now < r.since + limit || !s.awaits n r then none
    else
      let t := s.reportTask h 0x62 r.ofEngine (if r.isStore then 1 else 0) r.h.toNat
      some { t with tiles := t.tiles.set n { r with reported := true } }

end Sys2Proof.Machine
end

