-- ==== Sys2Proof/Machine/Exit.lean ====
section
/-!
DEFINITION. The end of a task: `texit` (R217, R179) and `reply` (R132), the team that a last task leaves (R232, R249,
R324), and posted messages to a task that has exited (R328).
-/

namespace Sys2Proof.Machine

/-- A queued command that the end of its task discards (R217). -/
def Slot.dropsCmd (x : Slot) (c : Cmd) : Bool := !c.started && c.fate.isNone && x.guard (Fin.ofNat 16 c.guard) == .unresolved

/-- An engine after the end of its task has discarded commands: the sequence passes those that no earlier command precedes, and
the others as their turn comes (R217, R240). -/
def Slot.discardFrom (x : Slot) (e : Eng) : Eng :=
  Eng.passDiscarded { e with queue := e.queue.map fun c => if x.dropsCmd c then { c with fate := some false } else c }

/-- A tile request of a task lets it end: a load or peek that waits at its home is withdrawn (R179). -/
def TileReq.endable (r : TileReq) : Bool :=
  match r.kind, r.st with
  | .load _ _, .queued => true
  | .peek _ _, .queued => true
  | .engLoad .., _ => true
  | .engStore .., _ => true
  | .watch _, _ => true
  | .remote .., _ => true
  | .remoteStore .., _ => true
  | _, _ => false

/-- Nothing of the task is outstanding: accesses, writes read early, tile requests, records whose outcome is still to
come, an open `digest.end` (R177, R179, R217, R405). -/
def State.quietTask (s : State) (p : Nat) : Bool :=
  let x := s.slot p
  x.accs.isEmpty && x.borrowed.isEmpty && x.redo.isNone && (s.tiles.all fun e => e.2.tid != x.tid || e.2.endable) &&
    (s.recs.all fun e => e.2.r.lr || e.2.tid != x.tid) && s.ends.all fun e => e.tid != x.tid

/-- The bank that a slot holds is released, and with it the array lease of its core (R217, R254, R258). -/
def Cluster.freeBank (p : Nat) (c : Cluster) : Cluster :=
  if c.banks.any fun e => e.2.owner == some p then
    { c with banks := c.banks.map fun e => (e.1, if e.2.owner == some p then { e.2 with owner := none, flags := 0 } else e.2),
             lease := if c.lease.holder == some (memberOf p) then c.lease.stop else c.lease }
  else c

/-- The task of a slot ends and the slot is free (R217): its requests are withdrawn, its bank and channel ends released,
its crew and its team left. -/
def State.endTask (s : State) (p : Nat) : State :=
  let x := s.slot p
  let ck := s.crewKey p
  let mine := s.tiles.filter fun e => e.2.tid == x.tid
  let s := mine.foldl (fun t e => t.withdraw e.1 e.2) s
  let s := s.modCluster (clusterOf p) (Cluster.freeBank p)
  let s := s.releaseEnds p
  let s := if x.crew then
      (s.detach ck (memberOf p)).modCrew ck fun c => { c with live := clear8 c.live (memberOf p) }
    else s
  let s := if x.block == 0 then s else s.putFields x.block [(0x20, 8, x.asid.toNat * 2 ^ 16 + 5)]
  let s := (s.forgetUnits p).setSlot p { Slot.init with issued := x.issued }
  ((s.pruneRejoin ck).freeTeams x.team).dropPosted x

/-- `texit` after its accesses (R217): unresolved commands are discarded, the others must end. -/
def State.exitTask (s : State) : Out :=
  let p := s.cur
  let x := s.me
  let y := { x with eng := x.eng.map x.discardFrom }
  let t := s.setSlot p y
  if y.eng.toList.any fun e => !e.queue.isEmpty then .next t
  else .next ((t.retire (form0 [])).endTask p)

/-- `texit` (R217); in a skim handler it ends the handler (R263). Late outcomes that wait for `eret` are taken at it (R179). -/
def execTexit (s : State) : Out :=
  if !s.quietTask s.cur then (if s.me.laterHeld == 0 then s.waits else .next (s.modMe fun x => { x with laterHeld := 0 }))
  else if s.me.use == .skim then .next ((s.retire (form0 [])).skimStop s.cur 0)
  else s.exitTask

/-- `reply` (R132): the value is delivered once every earlier access is performed with respect to the caller's die, and
the task ends as at `texit`. -/
def execReply (a : SSrc) (s : State) : Out :=
  if s.me.replied then execTexit s
  else
    let q := formA [] a
    let x := s.me
    s.gate q <|
      if x.token = 0 then s.trap 0x87 x.key false
      else if !s.fenced s.cur (2 ^ fld x.token.toNat 38 3) then s.waits
      else
        execTexit (((s.pops q).sendReply x.token (s.sval q 0)).modMe fun y => { y with token := 0, replied := true })

end Sys2Proof.Machine
end

