-- ==== Sys2Proof/Machine/Engine.lean ====
section
/-!
DEFINITION. Engine queues (R237–R248): pushing, waiting, the fate of the command at a queue's head, the writes of a
command one piece after another, page faults of engines (R362), rings (R249–R251), and the end of a command (R240).
-/

namespace Sys2Proof.Machine

/-! ### Instructions of the slot (R237–R241) -/

/-- `cpush` (R238). -/
def cpush (e : Engine) (d : SReg) (a : VSrc) (hi : Bool) (s : State) : Out :=
  let q : Form := { srcs := [vref a], dsts := [.s d], lit := false }
  s.gate q <|
    if 8 ≤ (s.me.engine e).open.length then s.waits
    else
      let v := s.vval q 0
      let n := (s.me.engine e).p + 1
      let c := Cmd.fresh n ((List.range 8).map fun k => lane v (if hi then 8 + k else k))
      .next (((s.modMe fun x => x.modEng e fun y => { y with p := n, queue := y.queue ++ [c] }).put d (n.zeroExtend 64)).retire q)

/-- `cpush.m` (R238). -/
def execCpushM (d : SReg) (a : VSrc) (hi : Bool) (s : State) : Out := cpush .m d a hi s
/-- `cpush.c` (R238). -/
def execCpushC (d : SReg) (a : VSrc) (hi : Bool) (s : State) : Out := cpush .c d a hi s
/-- `cpush.g` (R238). -/
def execCpushG (d : SReg) (a : VSrc) (hi : Bool) (s : State) : Out := cpush .g d a hi s

/-- `cwait` (R240). -/
def cwait (e : Engine) (a : SSrc) (s : State) : Out :=
  let q := formA [] a
  let t := (s.sval q 0).extractLsb' 0 32
  let x := s.me.engine e
  let ahead := (t - x.p).toNat
  s.gate q <|
    if 1 ≤ ahead ∧ ahead < 2 ^ 31 then s.trap 0xA0 (t.zeroExtend 64) false
    else if (x.sq - t).toNat < 2 ^ 31 then .next ((s.pops q).retire q)
    else s.waits

/-- `cwait.m` (R240). -/
def execCwaitM (a : SSrc) (s : State) : Out := cwait .m a s
/-- `cwait.c` (R240). -/
def execCwaitC (a : SSrc) (s : State) : Out := cwait .c a s
/-- `cwait.g` (R240). -/
def execCwaitG (a : SSrc) (s : State) : Out := cwait .g a s

/-- The result of `cseq` (R241). -/
def Eng.cseq (x : Eng) : Word :=
  BitVec.ofNat 64 (x.lseq.toNat % 2 ^ 16 * 2 ^ 48 + x.sub.toNat * 2 ^ 40 + x.lcause.toNat * 2 ^ 32 + x.sq.toNat)

/-- `cseq` (R241). -/
def cseq (e : Engine) (d : SReg) (s : State) : Out :=
  let q := form0 [.s d]
  s.gate q (.next ((s.put d (s.me.engine e).cseq).retire q))

/-- `cseq.m` (R241). -/
def execCseqM (d : SReg) (s : State) : Out := cseq .m d s
/-- `cseq.c` (R241). -/
def execCseqC (d : SReg) (s : State) : Out := cseq .c d s
/-- `cseq.g` (R241). -/
def execCseqG (d : SReg) (s : State) : Out := cseq .g d s

/-! ### Command words (R73, R74, R246, R247 step 3) -/

/-- Bits `hi` to `lo` of a word as a mask. -/
def bitMask (hi lo : Nat) : Nat := 2 ^ (hi + 1) - 2 ^ lo
/-- A whole word as a mask. -/
def allBits : Nat := 2 ^ 32 - 1

/-- A row of the command map: engines, feature, reserved bits of the eight words, first words of its locators (R74, R251,
R255–R259, R264, R268–R270). -/
structure CmdRow where
  engines : List Engine
  feature : Nat
  rsv : List Nat
  locs : List Nat
deriving DecidableEq, Repr

/-- The row of an opcode; `none` where it is reserved (R74). -/
def cmdRow (opc : Nat) : Option CmdRow :=
  let w0 := bitMask 31 12
  let hi16 := bitMask 31 16
  let hi23 := bitMask 31 23
  let z (n : Nat) : List Nat := List.replicate n allBits
  let mma (f : Nat) : Option CmdRow := some { engines := [.m], feature := f, rsv := bitMask 31 22 :: z 7, locs := [] }
  match opc with
  | 0x01 => mma 1 | 0x02 => mma 1 | 0x03 => mma 0 | 0x04 => mma 0 | 0x05 => mma 2
  | 0x08 => some { engines := [.m], feature := 0, rsv := w0 :: z 7, locs := [] }
  | 0x09 => some { engines := [.m], feature := 0, rsv := [bitMask 31 15, hi23, hi16, hi16, 0] ++ z 3, locs := [] }
  | 0x10 => some { engines := [.m, .c, .g], feature := 0, rsv := [w0, bitMask 31 4, bitMask 31 11, bitMask 31 9] ++ z 4, locs := [] }
  | 0x11 => some { engines := [.m, .c, .g], feature := 0, rsv := [w0, bitMask 31 4, bitMask 30 9] ++ z 5, locs := [] }
  | 0x12 => some { engines := [.m, .c, .g], feature := 0, rsv := [w0, bitMask 31 4] ++ z 6, locs := [] }
  | 0x20 => some { engines := [.c], feature := 0, rsv := bitMask 31 14 :: List.replicate 7 0, locs := [1, 3, 6] }
  | 0x21 => some { engines := [.c], feature := 0, rsv := [w0, 0, 0, 0, 0, hi16, 0, hi16], locs := [1, 3] }
  | 0x22 => some { engines := [.c], feature := 0, rsv := [w0, 0, 0, 0, 0, hi16] ++ z 2, locs := [1] }
  | 0x23 => some { engines := [.c], feature := 0, rsv := [bitMask 31 14, 0, 0, 0, 0, hi16, bitMask 30 23] ++ z 1, locs := [3] }
  | 0x24 => some { engines := [.c], feature := 0, rsv := [w0, 0, 0, 0, 0] ++ z 3, locs := [1] }
  | 0x30 => some { engines := [.g], feature := 0, rsv := [w0, 0, 0, hi23, hi16, hi16, hi23] ++ z 1, locs := [1] }
  | 0x31 => some { engines := [.g], feature := 3, rsv := [bitMask 31 15, 0, 0, bitMask 30 23, hi23, 0, bitMask 31 31, 0], locs := [1] }
  | 0x32 => some { engines := [.g], feature := 3, rsv := [w0, hi23, hi23, hi23, bitMask 31 24] ++ z 3, locs := [] }
  | _ => none

/-- A locator keeps its reserved bits 0 and names a space that is not reserved (R246, R385). -/
def State.locOk (s : State) (l : Nat) : Bool :=
  fld l 56 4 == 0 && (space l == 0 || space l == 1 || space l == 4 || (space l == 2 && s.feature 6))

/-- Checks that a row's masks do not give: a ring destination of `mdrain`, the barrier of `copy`, EF and the index words
of `gdist`, the count of a load (R259, R264, R267, R269). -/
def Cmd.extraOk (c : Cmd) : Bool :=
  match c.opc with
  | 0x09 => !bit (c.w 0) 14 || c.w 1 / 16 == 0
  | 0x20 => fld (c.w 0) 12 2 != 0 || (c.w 6 == 0 && c.w 7 == 0)
  | 0x23 => bit (c.w 0) 13 || c.w 5 == 0
  | 0x31 => fld (c.w 0) 12 2 != 3 && (!bit (c.w 3) 31 || c.w 3 % 2 ^ 31 == 0) && (bit (c.w 3) 31 || c.w 7 == 0)
  | _ => true

/-- A command passes step 3 of R247 at an engine. -/
def State.cmdLegal (s : State) (e : Engine) (c : Cmd) : Bool :=
  match cmdRow c.opc with
  | none => false
  | some r =>
    let locs := if c.opc == 0x20 && fld (c.w 0) 12 2 == 0 then [1, 3] else r.locs
    r.engines.contains e && s.feature r.feature && (r.rsv.zipIdx.all fun (m, k) => c.w k &&& m == 0) &&
      (locs.all fun k => s.locOk (c.loc k)) && c.extraOk

/-! ### The head of a queue (R75, R242–R245, R247) -/

/-- What an engine finds at the head of a queue. -/
inductive Head where
  | empty
  | hold
  | discard
  | illegal
  | go (c : Cmd)
deriving DecidableEq, Repr

/-- The head command of a task, in or out of its slot, at an engine. While EHOLD is 1 one that has not started waits (R413). -/
def State.headCmd (s : State) (h : Nat) (e : Engine) : Head :=
  let x := s.holder h
  match (x.engine e).queue.head? with
  | none => .empty
  | some c =>
    if c.started then .go c
    else if x.ehold then .hold
    else
      match (match c.fate with | some true => .isTrue | some false => .isFalse | none => x.guard (Fin.ofNat 16 c.guard) : Guard) with
      | .unresolved => .hold
      | .isFalse => .discard
      | .isTrue =>
        if 5 ≤ x.posted.length then .hold
        else if s.cmdLegal e c then .go c else .illegal

/-- The head command of a task changed. -/
def State.modCmd (s : State) (h : Nat) (e : Engine) (f : Cmd → Cmd) : State :=
  s.modHolder h fun x => x.modEng e fun y => { y with queue := match y.queue with | c :: t => f c :: t | [] => [] }

/-- A cause is posted, behind those posted before it; of one cycle, matrix first, then copy, then gather (R242). -/
def postCause (c : Posted) : List Posted → List Posted
  | [] => [c]
  | y :: t => if y.at_ == c.at_ && decide ((engNum c.eng).val < (engNum y.eng).val) then c :: y :: t else y :: postCause c t

/-- The head command ends: its sequence advances, and a failure is posted (R240, R242). -/
def State.endCmd (s : State) (h : Nat) (e : Engine) (fail : Option (Nat × Nat)) : State :=
  let cut (y : Eng) : Eng :=
    let t := (y.queue.head?.map (·.ticket)).getD 0
    let y := { y with queue := y.queue.tail, sq := y.sq + 1 }
    match fail with
    | some (c, sub) => { y with lcause := BitVec.ofNat 8 c, sub := BitVec.ofNat 8 sub, lseq := t }
    | none => y
  let f (x : Slot) : Slot :=
    let t := ((x.engine e).queue.head?.map (·.ticket)).getD 0
    let x := x.modEng e cut
    match fail with
    | some (c, _) => { x with posted := postCause { ticket := t, cause := BitVec.ofNat 8 c, eng := e, at_ := s.now } x.posted }
    | none => x
  (s.modHolder h f).mirrorEng h

/-- The table entry that a command reads: the descriptor of its handle, or the kernel of a drain. -/
def Cmd.tables (c : Cmd) (tdt kdt _cls : Nat) : List Nat :=
  match c.opc with
  | 0x09 => [kdt + 64 * c.w 3]
  | 0x22 => [tdt + 64 * (c.loc 3 / 2 ^ 52)]
  | 0x23 => [tdt + 64 * (c.loc 1 / 2 ^ 52)]
  | _ => []

/-- A step of an engine for a task, for the commands that a row of the step table names: a command that is discarded or
illegal ends at once, and any other goes on with `k` unless it waits for a page, or for a table in another package's memory, or has
failed (R247, R375). -/
def State.engStep (s : State) (h : Nat) (e : Engine) (mine : Cmd → Bool) (k : Cmd → Option State) : Out :=
  s.act <|
    let d := dieOf (s.seat h)
    if s.ctrl.quiet || (s.die d).quiet || !s.up.getLsbD d then none
    else
      match s.headCmd h e, (s.holder h).engine e with
      | .discard, y => if (y.queue.head?.map mine).getD false then some (s.endCmd h e none) else none
      | .illegal, y => if (y.queue.head?.map mine).getD false then some (s.endCmd h e (some (0xA0, 0))) else none
      | .go c, _ =>
        if mine c && c.page == none && c.fail == none then
          match s.farTable (dieOf (s.seat h)) (s.holder h).asid.toNat c.tables with
          | some a => some (s.askFar (dieOf (s.seat h)) a)
          | none => k c
        else none
      | _, _ => none

/-- The head command fails with no effect (steps 4 to 7 of R247). -/
def State.refuseCmd (s : State) (h : Nat) (e : Engine) (cause : Nat) : Option State := some (s.endCmd h e (some (cause, 0)))

/-- The head command starts, from the slot of its task. -/
def State.startCmd (s : State) (h : Nat) (e : Engine) (f : Cmd → Cmd) : State :=
  s.modCmd h e fun c => f { c with started := true, pos := s.seat h }

/-- The head command fails during its execution: what it made empty and has not written is left to be written 0 and full
(R248). -/
def Cmd.failWith (c : Cmd) (cause sub : Nat) : Cmd :=
  let left := c.out.filter fun p => c.empties && (p.sp || !c.marks.contains (p.dst, p.n))
  { c with fail := some (cause, sub), marks := [], tile := none, page := none,
           out := left.map fun p => { p with src := .bytes (List.replicate p.n 0) } }
/-- The head command fails with ENGINE_FAULT. -/
def State.engFail (s : State) (h : Nat) (e : Engine) (sub : Nat) : State := s.modCmd h e fun c => c.failWith 0xA3 sub

/-- An engine access of the head command that finds its page not present: a KIND 2 entry, its message, and the wait
(R362); it waits while the fault queue is full. -/
def State.engPage (s : State) (h : Nat) (e : Engine) (va : Nat) (wr : Bool) : Option State :=
  let p := s.seat h
  let d := dieOf p
  let x := s.holder h
  let y := s.die d
  let c := if wr then 0x41 else 0x40
  let acc := if wr then 1 else 0
  if y.fqFull then none
  else
    let (pos, live) := s.posOf h
    let t := s.fqWrite d { kind := 2, page := va / 2 ^ 16, asid := x.asid.toNat, eng := true, acc := acc, cause := c, cb := x.block,
                           live := live, pos := pos, addr := va }
    let tk := ((x.engine e).queue.head?.map (·.ticket)).getD 0
    let m : FaultMsg :=
      { router := clusterOf p, port := 8, asid := x.asid.toNat, page := va / 2 ^ 16, cause := c, addr := va, die := d, inc := y.incarn,
        acc := acc, eng := true, who := some (.eng x.tid e tk, y.fqNext, y.fqSeq) }
    some ({ t with faultMsgs := t.faultMsgs.set t.seq m }.bump.modCmd h e fun c =>
      { c with page := some (va, wr, y.fqNext, y.fqSeq), paused := true })

/-- An access of the head command failed with a cause at an address: it waits for a page (cause 0) or for another package
(cause 1), or the command fails. -/
def State.engBad (s : State) (h : Nat) (e : Engine) (c va : Nat) (wr : Bool) : Option State :=
  if c == 0 then s.engPage h e va wr else if c == 1 then some s else some (s.engFail h e c)

/-! ### Accesses of engines -/

/-- Bytes of memory, line by line, under the address space of a task: what is read, or the first failure with its
address. -/
def State.readPieces (s : State) (who : Who) (cd asid : Nat) (user : Bool) : List (Nat × Nat) → State × Except (Nat × Nat) (List Byte)
  | [] => (s, .ok [])
  | (a, n) :: t =>
    if 2 ^ 56 < a + n then (s, .error (0x43, a))
    else match s.cohRead who cd asid a n { r := true, u := user } with
      | (u, .error c) => (u, .error (c, a))
      | (u, .ok b) => match u.readPieces who cd asid user t with
        | (v, .ok r) => (v, .ok (b ++ r))
        | (v, .error x) => (v, .error x)

/-- The engine of the slot `pos` reads `n` bytes for a task (R397). -/
def State.engRead (s : State) (h : Nat) (e : Engine) (pos : Nat) (f : From) (n : Nat) : State × Except (Nat × Nat) (List Byte) :=
  let x := s.holder h
  match f with
  | .bytes b => (s, .ok b)
  | .later _ => (s, .ok [])
  | .mem va => s.readPieces (.eng h e) (dieOf pos) x.asid.toNat (x.priv == 0) (linePieces va n)
  | .sp off =>
    let c := s.cluster (clusterOf pos)
    if 2 ^ 23 < off + n then (s, .error (0x43, off))
    else if c.spBad off n || c.spGone off n then (s, .error (0x45, off))
    else (s, .ok (c.spBytes off n))

/-- The words of a scratchpad range become full. -/
def Cluster.fillRange (c : Cluster) (off n : Nat) : Cluster :=
  (List.range ((off % 4 + n + 3) / 4)).foldl (fun t k => t.fillWord (off / 4 + k)) c
/-- The words of a scratchpad range become empty. -/
def Cluster.emptyRange (c : Cluster) (off n : Nat) : Cluster :=
  (List.range ((off % 4 + n + 3) / 4)).foldl (fun t k => t.emptyWord (off / 4 + k)) c

/-- The engine of the slot `pos` writes bytes for a task; their words become full once the command has performed every write
(R185, R265, R300). -/
def State.engWrite (s : State) (h : Nat) (e : Engine) (pos : Nat) (p : Put) (b : List Byte) : State × Except Nat Unit :=
  let x := s.holder h
  if p.sp then
    if (s.cluster (clusterOf pos)).spGone p.dst p.n then (s, .error 0x45)
    else ((s.modCluster (clusterOf pos) fun c => c.putSp p.dst b).modHolder h fun y => y.dirtyTile (p.dst / 4096), .ok ())
  else s.cohWrite (.eng h e) (dieOf pos) x.asid.toNat p.dst b .later { w := true, u := x.priv == 0 }

/-- The words of a line of memory that a command has written become full; a line that one command has written whole is poisoned
no longer (R185, R300, R397). -/
def State.fillWritten (s : State) (asid va : Nat) (l : List Put) : State :=
  let ws := l.flatMap fun p => (List.range (p.n / 4)).map fun k => p.dst % 64 / 4 + k
  let whole := (l.map (·.n)).sum == 64
  match s.line asid va with
  | some x => s.setLine asid va { x with empties := x.empties.filter (fun w => !ws.contains w), poison := x.poison && !whole }
  | none => s

/-- The words of the first line, or scratchpad piece, that a command has written become full (R265, R300). -/
def State.engFill (s : State) (h : Nat) (e : Engine) (c : Cmd) : Option State :=
  match c.wrote with
  | [] => none
  | p :: _ =>
    let same (q : Put) : Bool := q.sp == p.sp && q.dst / 64 == p.dst / 64
    let mine := c.wrote.filter same
    let t := if p.sp then s.modCluster (clusterOf c.pos) fun k => mine.foldl (fun k q => k.fillRange q.dst q.n) k
      else s.fillWritten (s.holder h).asid.toNat p.dst mine
    some (t.modCmd h e fun c => { c with wrote := c.wrote.filter fun q => !same q })

/-- The words of a piece of memory become empty at their home slice, whose die takes the line for write first (R185, R265, R292). -/
def State.engEmpty (s : State) (h : Nat) (e : Engine) (pos va n : Nat) : State × Except Nat Unit :=
  let x := s.holder h
  let asid := x.asid.toNat
  let cd := dieOf pos
  let ws := (List.range (n / 4)).map fun k => va % 64 / 4 + k
  match s.xlate (.eng h e) cd asid va with
  | (s, .fail c) => (s, .error c)
  | (s, .miss) => (s, .error 1)
  | (s, .ok f a) =>
    if !a.allows { w := true, u := x.priv == 0 } then (s, .error 0x43)
    else match s.line asid va with
      | some l =>
        if s.lostMem l.frame then (s, .error 0x45)
        else if !s.hasMode f true then (s.askPage f va true, .error 1)
        else if s.handing l.frame || !s.unitMayWrite cd asid va l false then (s, .error 1)
        else
          let m := { l.unitWrite cd 0 [] false with dirty := l.dirty }
          (s.setLine asid va { m with empties := m.empties.filter (fun w => !ws.contains w) ++ ws }, .ok ())
      | none =>
        match s.farNeeds cd asid va f a true with
        | some t => (t, .error 1)
        | none => match s.phys f with
        | .host _ => (s, .ok ())
        | _ =>
          if s.lostMem f then (s, .error 0x45)
          else if !s.l2Room cd (lineKey asid va) || !s.l3Room va then (s, .error 1)
          else (s.setLine asid va { s.fillLine (f / 64 * 64) a with present := [cd], owner := some cd, empties := ws }, .ok ())

/-- The data of a write is there to be read. -/
def Put.ready (p : Put) : Bool := match p.src with | .later _ => false | _ => true

/-- A write of the head command that is performed. -/
def Cmd.donePut (c : Cmd) (p : Put) : Cmd := { c with out := c.out.erase p, wrote := c.wrote ++ [p] }
/-- A write of the head command that is given up. -/
def Cmd.dropPut (c : Cmd) (p : Put) : Cmd := { c with out := c.out.erase p }

/-- A barrier object that a `copy` counts down by the bytes of one piece, OUT as they are read and IN as they are performed
(R265, R235), its words full and its tile slot dirty in the scratchpad (R28, R30); a failure is given with its cause, which is
PROTECTION for an object behind a switch (R382). -/
def State.countDown (s : State) (h : Nat) (e : Engine) (c : Cmd) (n : Nat) : State × Except Nat Unit :=
  let l := c.loc 6
  let a := addrOf l
  let x := s.holder h
  let f (b : Barrier) : Barrier :=
    let b := if bit (c.w 0) 12 then b.down true n else b
    if bit (c.w 0) 13 then b.down false n else b
  if c.opc != 0x20 || fld (c.w 0) 12 2 == 0 then (s, .ok ())
  else if space l == 1 then
    let k := s.cluster (clusterOf c.pos)
    if k.spBad a 16 || k.spGone a 16 then (s, .error 0x45)
    else
      ((s.modCluster (clusterOf c.pos) fun k =>
        (k.putSp a (toBytes 16 (f (Barrier.ofNat (ofBytes (k.spBytes a 16)))).toNat)).fillRange a 16).modHolder h fun y =>
          y.dirtyTile (a / 4096), .ok ())
  else
    let need : Need := { r := true, w := true, u := x.priv == 0 }
    if (s.switchAt x.asid.toNat a (x.priv == 0)).isSome then (s, .error 0x43)
    else match s.cohRead (.eng h e) (dieOf c.pos) x.asid.toNat a 16 need with
    | (t, .error k) => (t, .error k)
    | (t, .ok b) => t.cohWrite (.eng h e) (dieOf c.pos) x.asid.toNat a (toBytes 16 (f (Barrier.ofNat (ofBytes b))).toNat) .keep need

/-- Every word of a scratchpad range is empty. -/
def Cluster.emptyIn (c : Cluster) (off n : Nat) : Bool :=
  (List.range ((off % 4 + n + 3) / 4)).all fun k => !c.full (off / 4 + k)

/-- A write of a task's engine waits: to a page under migration (R303), or into a tile slot that a `tst` locks (R198). A write to
words that its own command has made empty (`own`) goes on, since the `tst` waits until they are full (entry 29). -/
def State.engLocked (s : State) (h pos : Nat) (own sp : Bool) (va n : Nat) : Bool :=
  if sp then (s.cluster (clusterOf pos)).locked (va / 4096) && !(own && (s.cluster (clusterOf pos)).emptyIn va n)
  else s.locked (s.holder h).asid.toNat va

/-- The barrier object that a `copy` counts down lies on a page under migration (R303), or in a locked tile slot (R198). -/
def State.barLocked (s : State) (h : Nat) (c : Cmd) : Bool :=
  c.opc == 0x20 && fld (c.w 0) 12 2 != 0 && s.engLocked h c.pos false (space (c.loc 6) == 1) (addrOf (c.loc 6)) 16

/-- One piece of work of a started command: a piece of memory is marked empty, or a write is performed; which of the
writes is a choice (entry 4). Once every write is performed the words become full, line by line (R300). A write of zeros after a
failure that meets a failure itself is dropped. -/
def State.work (s : State) (h : Nat) (e : Engine) (c : Cmd) : Option State :=
  match c.marks with
  | (a, n) :: t =>
    if s.engLocked h c.pos false false a n then none
    else match s.engEmpty h e c.pos a n with
    | (u, .ok ()) => some (u.modCmd h e fun c => { c with marks := t })
    | (u, .error k) => u.engBad h e k a true
  | [] =>
    match s.choose (c.out.filter fun p => p.ready && !s.engLocked h c.pos c.empties p.sp p.dst p.n && !s.barLocked h c) with
    | none => if c.out.isEmpty then s.engFill h e c else none
    | some p =>
      match s.engRead h e c.pos p.src p.n with
      | (u, .error (k, a)) => u.engBad h e k a false
      | (u, .ok b) =>
        let cnt := if c.fail == none then u.countDown h e c p.n else (u, .ok ())
        match cnt with
        | (v, .error k) => v.engBad h e k (addrOf (c.loc 6)) true
        | (v, .ok ()) =>
          match v.engWrite h e c.pos p b with
          | (w, .ok ()) => some (w.modCmd h e fun c => c.donePut p)
          | (_, .error k) =>
            let w := (u.engWrite h e c.pos p b).1
            if c.fail == none || k == 1 then w.engBad h e k p.dst true else some (w.modCmd h e fun c => c.dropPut p)

/-! ### Rings (R249–R251) -/

/-- A ring of a cluster. -/
def Cluster.ring (c : Cluster) (r : Nat) : Ring :=
  c.rings.getD r { conf := false, base := 0, len := 0, head := 0, avail := 0, claim := 0, kept := [] }
/-- Tiles that a producer may still claim. -/
def Ring.room (r : Ring) : Nat := r.len - r.avail - r.claim
/-- Index of the `k`-th tile from HEAD. -/
def Ring.idx (r : Ring) (k : Nat) : Nat := if r.len == 0 then 0 else (r.head + k) % r.len
/-- Tile slots of the next `n` tiles at HEAD. -/
def Ring.front (r : Ring) (n : Nat) : List Nat := (List.range n).map fun k => r.base + r.idx k
/-- Tile slots of the next `n` tiles at the tail. -/
def Ring.tail (r : Ring) (n : Nat) : List Nat := (List.range n).map fun k => r.base + r.idx (r.avail + r.claim + k)
/-- Pops `n` tiles (R250); where fewer are published, none is left, and HEAD still advances by `n` (entry 81). -/
def Ring.pop (r : Ring) (n : Nat) : Ring := { r with head := r.idx n, avail := r.avail - n }

/-- The oldest claimed tile is published, if every word of it is full and no `mdrain` keeps it (R250). -/
def Cluster.publish (c : Cluster) (n : Nat) : Cluster :=
  let r := c.ring n
  let i := r.idx r.avail
  if 0 < r.claim && !r.kept.contains i && c.tileFull (r.base + i) then
    { c with rings := c.rings.set n { r with avail := r.avail + 1, claim := r.claim - 1 } }
  else c

/-- A producer claims `n` tiles at the tail; every word of them becomes empty (R250). -/
def Cluster.claim (c : Cluster) (ring n : Nat) : Cluster :=
  let r := c.ring ring
  (r.tail n).foldl Cluster.emptyTile { c with rings := c.rings.set ring { r with claim := r.claim + n } }

/-- `RING_TILE_PUBLISH` (R250). -/
def execRingTilePublish (cl r : Nat) (s : State) : Out := .next (s.modCluster cl fun c => c.publish r)

/-- A ring command may act on the rings of its cluster: they are its team's, or no team's (R324). -/
def State.ringTeamOk (s : State) (h cl : Nat) : Bool :=
  match (s.cluster cl).ringTeam with | none => true | some t => t == s.team h

/-- The effect of `ring.cfg` (R251, R324). -/
def State.ringCfg (s : State) (p : Nat) (e : Engine) (c : Cmd) : Option State :=
  let cl := clusterOf (s.seat p)
  let n := c.w 1
  let base := c.w 2
  let len := c.w 3
  let r := (s.cluster cl).ring n
  if !s.ringTeamOk p cl || len == 0 || decide (256 < len) || decide (2048 < base + len) || (r.conf && (r.avail != 0 || r.claim != 0)) then
    s.refuseCmd p e 0xA1
  else
    let new : Ring := { conf := true, base := base, len := len, head := 0, avail := 0, claim := 0, kept := [] }
    some ((s.modCluster cl fun k => { k with rings := k.rings.set n new, ringTeam := some (s.team p) }).endCmd p e none)

/-- The effect of `ring.adv` (R251): behind a claim that is not yet published a producer's tiles stay claimed, and the command has
ended (entry 78). -/
def State.ringAdv (s : State) (p : Nat) (e : Engine) (c : Cmd) : Option State :=
  let cl := clusterOf (s.seat p)
  let k := s.cluster cl
  let ring := c.w 1
  let n := fld (c.w 2) 0 9
  let r := k.ring ring
  if !s.ringTeamOk p cl || !r.conf || n == 0 || decide (r.len < n) then s.refuseCmd p e 0xA1
  else if !bit (c.w 2) 31 then
    if n ≤ r.avail then some ((s.modCluster cl fun k => { k with rings := k.rings.set ring (r.pop n) }).endCmd p e none) else none
  else if r.room < n || (r.tail n).any k.locked then none
  else
    let fill (k : Cluster) (t : Nat) : Cluster := k.fillRange (4096 * t) 4096
    let k1 := (r.tail n).foldl fill { k with rings := k.rings.set ring { r with claim := r.claim + n } }
    let k2 := (List.range n).foldl (fun k _ => k.publish ring) k1
    some ((s.modCluster cl fun _ => k2).endCmd p e none)

/-- The effect of `ring.reset` (R251). -/
def State.ringReset (s : State) (p : Nat) (e : Engine) (c : Cmd) : Option State :=
  let cl := clusterOf (s.seat p)
  let r := (s.cluster cl).ring (c.w 1)
  if !s.ringTeamOk p cl || !r.conf then s.refuseCmd p e 0xA1
  else if r.claim != 0 then none
  else some ((s.modCluster cl fun k => { k with rings := k.rings.set (c.w 1) { r with head := 0, avail := 0 } }).endCmd p e none)

/-! ### `drain` (R191) -/

/-- A virtual range has bytes in a class; a page that is not present may come to lie in any. -/
def State.rangeIn (s : State) (cd asid va n : Nat) (f : PhysKind → Bool) : Bool :=
  (List.range ((va % 2 ^ 16 + n + 2 ^ 16 - 1) / 2 ^ 16)).any fun k =>
    match s.look cd asid (Nat.max va ((va / 2 ^ 16 + k) * 2 ^ 16)) with
    | .ok a _ => f (s.phys a)
    | _ => true

/-- A command of a task writes into a class of destinations (R191). -/
def State.drains (s : State) (p : DrainPath) (pos asid : Nat) (c : Cmd) : Bool :=
  let store := c.opc == 0x22 || (c.opc == 0x23 && bit (c.w 0) 13)
  let far (k : Nat) : Bool := match s.desc (dieOf pos) asid (c.loc k / 2 ^ 52) with | some d => d.pkg.isSome | none => false
  let remote := store && far (if c.opc == 0x22 then 3 else 1)
  let range (f : PhysKind → Bool) : Bool :=
    match c.dest with
    | some (l, n) => space l == 0 && s.rangeIn (dieOf pos) asid (addrOf l) n f
    | none => false
  match p with
  | .sp => (c.opc == 0x23 && !bit (c.w 0) 13) || match c.dest with | some (l, _) => space l != 0 | none => false
  | .l2 => store && !remote
  | .mem => range fun k => match k with | .dram _ => true | _ => false
  | .host => range fun k => match k with | .host _ => true | _ => false
  | .link => remote || (c.opc == 0x23 && !bit (c.w 0) 13 && far 1) || range fun k => match k with | .remote _ => true | _ => false

/-- Commands of a task to the copy engine that have not ended: those in its queue, and those that its image holds. -/
def State.copyCmds (s : State) (h : Nat) : List Cmd :=
  ((s.holder h).engine .c).queue ++ (if h < 16384 then [] else s.imageCmds h .c)

/-- The commands that a `drain` of a slot waits for: of every task of its core, in or out of its slot. -/
def State.drainSet (s : State) (p : Nat) (path : DrainPath) : List (Nat × W32) :=
  let of (h pos : Nat) : List (Nat × W32) :=
    let x := s.holder h
    ((s.copyCmds h).filter fun c => s.drains path (if c.started then c.pos else pos) x.asid.toNat c).map fun c => (x.tid, c.ticket)
  (((List.range 16).map fun k => coreOf p * 16 + k).flatMap fun h => of h h) ++
    (s.saved.filter fun e => coreOf e.2.pos == coreOf p).flatMap fun e => of e.1 e.2.pos

/-- A command of a task has ended (R240). -/
def State.cmdEnded (s : State) (tid : Nat) (ticket : W32) : Bool :=
  match s.findTask tid with
  | none => true
  | some h => decide ((((s.holder h).engine .c).sq - ticket).toNat < 2 ^ 31)

/-- `drain` (R191). -/
def execDrain (p : DrainPath) (s : State) : Out :=
  match s.me.wait with
  | .drain l =>
    if l.all fun c => s.cmdEnded c.1 c.2 then .next ((s.modMe fun x => { x with wait := .none }).retire (form0 [])) else s.waits
  | _ =>
    let l := s.drainSet s.cur p
    if l.isEmpty then .next (s.retire (form0 [])) else .next (s.modMe fun x => { x with wait := .drain l })

end Sys2Proof.Machine
end

