-- ==== Sys2Proof/Machine/Array.lean ====
section
/-!
DEFINITION. The matrix array: banks (R252–R254), multiplies and `mzero` (R255–R257), leases (R258), draining and skim
handlers (R259–R263).
-/

namespace Sys2Proof.Machine

/-! ### Banks (R253, R254) -/

/-- A bank of a cluster. -/
def Cluster.bank (c : Cluster) (b : Nat) : Bank := c.banks.getD b { owner := none, cells := [], flags := 0 }

/-- The core holds a bank. -/
def State.coreHasBank (s : State) (k : Nat) : Bool :=
  (s.cluster (k / 8)).banks.any fun e => match e.2.owner with | some o => coreOf (s.seat o) == k | none => false

/-- The bank that a task holds, in or out of its slot. -/
def State.bankHeld (s : State) (h : Nat) : Option Nat :=
  (((s.cluster (clusterOf (s.seat h))).banks.find? fun e => e.2.owner == some h)).map (·.1)

/-- `abind` (R253): the bank is bound by `ABIND_GRANT`, and the slot then goes on with it. -/
def execAbind (d : SReg) (b : SOpd) (s : State) : Out :=
  let q := formB [.s d] b
  let k := (s.bval q 0 .zext b).toNat % 8
  s.gate q <|
    if 4 < k || slotIdx s.cur == 14 then s.trap 0xA2 ((s.me.engine .m).sq.zeroExtend 64) q.lit
    else match s.bankHeld s.cur with
      | some n => .next ((((s.pops q).put d (BitVec.ofNat 64 n)).modMe fun x => { x with wait := .none }).retire q)
      | none =>
        match s.me.wait with
        | .abind _ _ _ => s.waits
        | _ => .next (s.modMe fun x => { x with wait := .abind s.seq k s.now }).bump

/-- A slot waits at `abind` and its own conditions hold for a bank: its core holds none, slot 14 of the core is free, the
bank is unbound (R253). -/
def State.abindFits (s : State) (p b : Nat) : Bool :=
  match (s.slot p).wait with
  | .abind _ q _ =>
    (q == 4 || q == b) && !s.coreHasBank (coreOf p) && (s.slot (coreOf p * 16 + 14)).vacant &&
      ((s.cluster (clusterOf p)).bank b).owner == none
  | _ => false

/-- The number of an `abind` wait. -/
def Slot.abindId (x : Slot) : Nat := match x.wait with | .abind n _ _ => n | _ => 0

/-- `ABIND_GRANT`: a waiter takes a bank that no earlier waiter of the cluster could take (R253). -/
def execAbindGrant (p : Nat) (s : State) : Out :=
  s.act do
    let cl := clusterOf p
    let first (b : Nat) : Bool := (List.range 128).all fun k =>
      !s.abindFits (cl * 128 + k) b || (s.slot p).abindId ≤ (s.slot (cl * 128 + k)).abindId
    let b ← s.choose ((List.range 4).filter fun b => s.abindFits p b && first b)
    some ((s.modCluster cl fun c => { c with banks := c.banks.set b { owner := some p, cells := [], flags := 0 } }).modSlot p fun x =>
      { x with wait := .none })

/-- `arel` (R254): a lease of the core ends with it (R258). -/
def execArel (s : State) : Out :=
  let q := form0 []
  match s.bankHeld s.cur with
  | none => .next (s.retire q)
  | some b =>
    if !(s.me.engine .m).queue.isEmpty then s.waits
    else .next ((s.modCluster (clusterOf s.cur) fun c =>
      { c with banks := c.banks.set b { c.bank b with owner := none, flags := 0 },
               lease := if c.lease.holder == some (memberOf s.cur) then c.lease.stop else c.lease }).retire q)

/-! ### Leases (R258) -/

/-- A command performs on the array: a multiply, `mzero`, or the row-reading phase of an `mdrain`. -/
def Cmd.onArray (c : Cmd) : Bool := c.started && (c.opc != 0x09 || !c.rows.isEmpty) && decide (c.opc < 0x10)

/-- Matrix commands at the heads of the queues of a cluster's tasks, in or out of their slots. -/
def State.matrixHeads (s : State) (cl : Nat) : List Cmd :=
  ((List.range 128).filterMap fun k => ((s.slot (cl * 128 + k)).engine .m).queue.head?) ++
    (s.saved.filter fun e => e.2.pos / 128 == cl).filterMap fun e => (e.2.x.engine .m).queue.head?

/-- The array of a cluster is free. -/
def State.arrayFree (s : State) (cl : Nat) : Bool := (s.matrixHeads cl).all fun c => !c.onArray

/-- Tiles that a multiply reads from its first ring, and K (R255). -/
def mmaTiles (opc : Nat) : Nat := if opc == 5 then 1 else 4
/-- Depth of a multiply. -/
def mmaK (opc : Nat) : Nat := if opc == 3 then 32 else 64
/-- Ring of A and ring of B. -/
def Cmd.ringA (c : Cmd) : Nat := fld (c.w 0) 12 4
/-- Ring of B. -/
def Cmd.ringB (c : Cmd) : Nat := fld (c.w 0) 16 4

/-- The rings of a multiply are long enough (step 5 of R247). -/
def Cluster.mmaRings (k : Cluster) (c : Cmd) : Bool :=
  (k.ring c.ringA).conf && (k.ring c.ringB).conf && decide (mmaTiles c.opc ≤ (k.ring c.ringA).len ∧ 4 ≤ (k.ring c.ringB).len)

/-- The operands of a multiply are published. -/
def Cluster.mmaReady (k : Cluster) (c : Cmd) : Bool :=
  k.mmaRings c && decide (mmaTiles c.opc ≤ (k.ring c.ringA).avail ∧ 4 ≤ (k.ring c.ringB).avail)

/-- The head matrix command of a slot could be taken by the array now. -/
def State.arrayReady (s : State) (p : Nat) : Bool :=
  (s.bankHeld p).isSome &&
    match s.headCmd p .m with
    | .go c =>
      c.page == none && c.fail == none &&
      (if c.opc == 0x09 then c.started && !c.loaded
       else if c.opc == 0x08 then !c.started
       else decide (c.opc < 6) && !c.started && (s.cluster (clusterOf (s.seat p))).mmaReady c)
    | _ => false

/-- Tasks of a core, in its slots or saved from them. -/
def State.onCore (s : State) (k : Nat) : List Nat :=
  ((List.range 16).map fun i => k * 16 + i) ++ (s.saved.filter fun e => coreOf e.2.pos == k).map (·.1)

/-- `ARRAY_LEASE_GRANT`: the next core after the previous holder that holds a bank and has a ready command (R258). -/
def execArrayLeaseGrant (cl : Nat) (s : State) : Out :=
  s.act do
    let l := (s.cluster cl).lease
    if l.holder.isSome || !s.arrayFree cl then none
    else
      let k ← ((List.range 8).map fun j => (l.prev + 1 + j) % 8).find? fun k => (s.onCore (cl * 8 + k)).any s.arrayReady
      some (s.modCluster cl fun c => { c with lease := { l with holder := some k, started := 0, idle := some s.now } })

/-- `ARRAY_LEASE_IDLE_END`: a lease ends after 64 consecutive idle cycles (R258). -/
def execArrayLeaseIdleEnd (cl : Nat) (s : State) : Out :=
  s.act
    (let l := (s.cluster cl).lease
     match l.holder, l.idle with
     | some _, some t => if 64 ≤ s.now - t then some (s.modCluster cl fun c => { c with lease := l.stop }) else none
     | _, _ => none)

/-- The array takes a command of a core that holds the lease: counted, and the lease ends with the 16th; `n` cycles of
the array are counted for the die (R258, R416). -/
def State.leaseTake (s : State) (cl n : Nat) : State :=
  (s.modCluster cl fun c =>
    let l := { c.lease with started := c.lease.started + 1, idle := none }
    { c with lease := if 16 ≤ l.started then l.stop else l }).count (cl / 16) 0x09 n

/-- A command of a core leaves the array: the idle cycles of its lease begin. -/
def State.leaseIdle (s : State) (cl core : Nat) : State :=
  s.modCluster cl fun c => { c with lease := if c.lease.holder == some (core % 8) then { c.lease with idle := some s.now } else c.lease }

/-- The array is free and leased to the core of a task. -/
def State.mayUseArray (s : State) (p : Nat) : Bool :=
  let seat := s.seat p
  (s.cluster (clusterOf seat)).lease.holder == some (memberOf seat) && s.arrayFree (clusterOf seat)

/-! ### Multiplies (R255–R257) -/

/-- A little-endian element of tile slots laid one after another. -/
def Cluster.elem (c : Cluster) (tiles : List Nat) (off es : Nat) : Nat :=
  ofBytes (c.spBytes (4096 * tiles.getD (off / 4096) 0 + off % 4096) es)

/-- Sum of products of integers added to a cell (R108). -/
def intCell (ab : List (Int × Int)) (c : W32) : W32 := c + BitVec.ofInt 32 (ab.foldl (fun t x => t + x.1 * x.2) 0)

/-- One cell of a multiply: its new value and flags (R256). -/
def Cluster.mmaCell (k : Cluster) (opc : Nat) (ta tb : List Nat) (i n : Nat) (c : W32) : W32 × Fp.Flags :=
  let es := if opc == 3 then 2 else 1
  let ks := List.range (mmaK opc)
  let a (j : Nat) : Nat := k.elem ta (es * (mmaK opc * i + j)) es
  let b (j : Nat) : Nat := k.elem tb (4096 * (n / 64) + es * (64 * j + n % 64)) es
  let fp (F : Fp.Fmt) : W32 × Fp.Flags :=
    let r := Fp.dot (ks.map fun j => (F.val (a j), F.val (b j))) c.toNat
    (BitVec.ofNat 32 r.1, r.2)
  match opc with
  | 1 => fp Fp.e4m3
  | 2 => fp Fp.e5m2
  | 3 => fp Fp.bf16
  | 4 => (intCell (ks.map fun j => (Fp.int8 (a j), Fp.int8 (b j))) c, 0)
  | _ =>
    let t (j : Nat) : Int × Fp.Flags := Fp.ternary (k.elem ta (16 * i + j / 4) 1 / 4 ^ (j % 4) % 4)
    (intCell (ks.map fun j => ((t j).1, Fp.int8 (b j))) c, (ks.map fun j => (t j).2).foldl (· ||| ·) 0)

/-- A bank after a multiply: every cell, and the flags of all (R256). -/
def Cluster.mmaBank (k : Cluster) (opc : Nat) (ta tb : List Nat) (b : Bank) : Bank :=
  let r := (List.range 65536).map fun i => (i, k.mmaCell opc ta tb (i / 256) (i % 256) (b.cells.getD i 0))
  { b with cells := r.filterMap fun x => if x.2.1 == 0 then none else some (x.1, x.2.1),
           flags := r.foldl (fun f x => f ||| x.2.2) b.flags }

/-- A multiply command (R256): it is taken with its operands published, for a core that holds the lease; tiles are popped
as it ends. One that meets a poisoned or retired operand tile fails with the cells unchanged and pops nothing (entry 69). -/
def mma (opc : Nat) (p : Nat) (s : State) : Out :=
  s.engStep p .m (fun c => c.opc == opc) fun c =>
    let cl := clusterOf (s.seat p)
    let k := s.cluster cl
    match s.bankHeld p with
    | none => s.refuseCmd p .m 0xA2
    | some b =>
      if c.started then none
      else if !k.mmaRings c then s.refuseCmd p .m 0xA1
      else if !s.mayUseArray p || !k.mmaReady c then none
      else
        let ta := (k.ring c.ringA).front (mmaTiles opc)
        let tb := (k.ring c.ringB).front 4
        let t := (s.leaseTake cl (if opc == 5 then 32 else 64)).startCmd p .m fun c => { c with loaded := true }
        if (ta ++ tb).any fun x => k.spBad (4096 * x) 4096 || k.spGone (4096 * x) 4096 then some (t.engFail p .m 0x45)
        else
          let pa := if bit (c.w 0) 20 then [] else [(c.ringA, mmaTiles opc)]
          let pb := if bit (c.w 0) 21 then [] else [(c.ringB, 4)]
          some ((t.modCluster cl fun y => { y with banks := y.banks.set b (k.mmaBank opc ta tb (k.bank b)) }).modCmd p .m fun c =>
            { c with pops := pa ++ pb })

/-- `mma.e4m3` (R255). -/
def execMmaE4m3 (p : Nat) (s : State) : Out := mma 1 p s
/-- `mma.e5m2` (R255). -/
def execMmaE5m2 (p : Nat) (s : State) : Out := mma 2 p s
/-- `mma.bf16` (R255). -/
def execMmaBf16 (p : Nat) (s : State) : Out := mma 3 p s
/-- `mma.i8` (R255). -/
def execMmaI8 (p : Nat) (s : State) : Out := mma 4 p s
/-- `mma.t2` (R255). -/
def execMmaT2 (p : Nat) (s : State) : Out := mma 5 p s

/-- `mzero` (R257). -/
def execMzero (p : Nat) (s : State) : Out :=
  s.engStep p .m (fun c => c.opc == 0x08) fun c =>
    let cl := clusterOf (s.seat p)
    match s.bankHeld p with
    | none => s.refuseCmd p .m 0xA2
    | some b =>
      if c.started || !s.mayUseArray p then none
      else
        some (((s.leaseTake cl 16).startCmd p .m fun c => { c with loaded := true }).modCluster cl fun y =>
          { y with banks := y.banks.set b { y.bank b with cells := [] } })

/-! ### Draining (R259, R260) -/

/-- The scratchpad words of row `r` at the destination of an `mdrain`. -/
def Cmd.rowWords (c : Cmd) (k : Cluster) (r : Nat) : List Nat :=
  let st := c.w 2
  (List.range (st / 4)).map fun j =>
    let off := r * st + 4 * j
    if bit (c.w 0) 14 then
      match c.claims[off / 4096]? with
      | some (ring, i) => ((k.ring ring).base + i) * 1024 + off % 4096 / 4
      | none => 0
    else (c.w 1 + off) / 4

/-- The cores to which the rows of an `mdrain` go in turn (R259). -/
def State.fanCores (s : State) (h : Nat) (fan : Bool) : List Nat :=
  let p := s.seat h
  let x := s.holder h
  let own := coreOf p
  if fan && x.crew then
    ((List.range 8).map fun j => (memberOf p + j) % 8).filterMap fun m =>
      let k := clusterOf p * 8 + m
      if (s.crew (s.crewKeyOf h)).live.getLsbD m && s.coreHasBank k then some k else none
  else [own]

/-- `mdrain`: its checks and its destination, and then, for a core that holds the lease, the order of its rows (R259). -/
def execMdrain (p : Nat) (s : State) : Out :=
  s.engStep p .m (fun c => c.opc == 0x09) fun c =>
    let seat := s.seat p
    let cl := clusterOf seat
    let k := s.cluster cl
    let x := s.holder p
    let st := c.w 2
    let dk := bit (c.w 0) 14
    let dest := c.w 1
    let n := (256 * st + 4095) / 4096
    let r := k.ring dest
    if s.bankHeld p == none then s.refuseCmd p .m 0xA2
    else if !c.started then
      if dk && (!r.conf || decide (r.len < n)) then s.refuseCmd p .m 0xA1
      else if st % 64 != 0 || st == 0 || decide (1024 < st) || (!dk && (dest % 4 != 0 || decide (2 ^ 23 < dest + 256 * st))) then
        s.refuseCmd p .m 0xA5
      else match s.kernel (dieOf seat) x.asid.toNat (c.w 3) with
        | none => s.refuseCmd p .m 0xA4
        | some kd =>
          if !kd.skim then s.refuseCmd p .m 0xA4
          else if dk then
            if r.room < n || (r.tail n).any k.locked then none
            else
              let ix := (List.range n).map fun j => r.idx (r.avail + r.claim + j)
              let t := s.modCluster cl fun y =>
                let y := y.claim dest n
                { y with rings := y.rings.set dest { y.ring dest with kept := (y.ring dest).kept ++ ix } }
              some (t.startCmd p .m fun c => { c with claims := ix.map fun i => (dest, i) })
          else if (List.range ((dest % 4096 + 256 * st + 4095) / 4096)).any fun j => k.locked (dest / 4096 + j) then none
          else some ((s.modCluster cl fun y => y.emptyRange dest (256 * st)).startCmd p .m id)
    else if c.loaded || !s.mayUseArray p then none
    else
      let cores := s.fanCores p (bit (c.w 0) 13)
      let rows := (List.range 256).map fun r => (r, cores.getD (r % cores.length) (coreOf seat))
      some ((s.leaseTake cl 1024).modCmd p .m fun c => { c with loaded := true, rows := rows })

/-- A skim handler starts on slot 14 of a core with a row (R260). -/
def State.startSkim (s : State) (core : Nat) (k : Kernel) (h kdesc : Nat) (m : Skim) (row : List W32) : State :=
  let p := core * 16 + 14
  let x : Slot :=
    { Slot.init with
      use := .skim, v := Vector.ofFn fun j => if j.val < 16 then ofLanes fun l => row.getD (16 * j.val + l) 0 else 0,
      pc := BitVec.ofNat 64 k.pc, rm := BitVec.ofNat 3 k.rm, asid := (s.holder h).asid, kdesc := BitVec.ofNat 16 kdesc, tid := s.seq + 1,
      skim := some m, cimg := if k.clen == 0 then none else some (k.cimg, k.clen), issued := (s.slot p).issued }
  (s.setSlot p x).bump

/-- `MDRAIN_ROW_READ`: the array reads the next row for a skim slot that is free, and its handler starts (R259). A
descriptor that is no longer valid fails the row as a handler that ends at once. -/
def execMdrainRowRead (p : Nat) (s : State) : Out :=
  s.act do
    let c ← ((s.holder p).engine .m).queue.head?
    let (r, core) ← c.rows.head?
    let b ← s.bankHeld p
    let cl := clusterOf c.pos
    if c.opc != 0x09 || s.ctrl.quiet || (s.die (dieOf c.pos)).quiet || !(s.slot (core * 16 + 14)).vacant then none
    else
      let bank := (s.cluster cl).bank b
      let row := (List.range 256).map fun j => bank.cells.getD (256 * r + j) 0
      let words := c.rowWords (s.cluster cl) r
      let t := if bit (c.w 0) 12 then
          s.modCluster cl fun y => { y with banks := y.banks.set b { bank with cells := bank.cells.filter fun e => e.1 / 256 != r } }
        else s
      let t := t.modCmd p .m fun c => { c with rows := c.rows.tail }
      let t := if c.rows.length == 1 then t.leaseIdle cl (coreOf c.pos) else t
      let m : Skim := { owner := p, bank := b, row := r, tag := BitVec.ofNat 64 (c.w 4), dest := words }
      if let some a := s.farTable (dieOf c.pos) (s.holder p).asid.toNat c.tables then return s.askFar (dieOf c.pos) a
      some (match s.kernel (dieOf c.pos) (s.holder p).asid.toNat (c.w 3) with
        | some k => t.startSkim core k p (c.w 3) m row
        | none =>
          let zeros := words.map fun w => ({ sp := true, dst := 4 * w, n := 4, src := .bytes (List.replicate 4 0) } : Put)
          t.modCmd p .m fun c => { c with out := c.out ++ zeros, fail := c.fail.or (some (0xA4, 0)) })

/-- `skim.row` (R261). -/
def execSkimRow (d : SReg) (s : State) : Out :=
  let q := form0 [.s d]
  s.gate q <|
    match s.me.skim with
    | some k => .next ((s.put d (BitVec.ofNat 64 (k.tag.toNat * 2 ^ 32 + k.row))).retire q)
    | none => s.trap 0xA4 0 false

/-- A handler whose row is written ends as at `texit`; its flags join the drain's (R262, R217). -/
def State.endSkim (s : State) : Out :=
  let p := s.cur
  if !s.quietTask p then s.waits
  else
    let x := s.me
    let y := { x with eng := x.eng.map x.discardFrom }
    let t := s.setSlot p y
    if y.eng.toList.any fun e => !e.queue.isEmpty then .next t
    else
      let t := t.retire (form0 [])
      let t := match x.skim with
        | some k => t.modCmd k.owner .m fun c => { c with flags := c.flags ||| x.flags }
        | none => t
      .next (t.freeSkim p)

/-- `skim.end` (R262); a row in a retired tile slot traps (R395). -/
def execSkimEnd (a : VReg) (b : SOpd) (s : State) : Out :=
  if s.me.replied then s.endSkim
  else
    let q0 := formB [] b
    s.gate q0 <|
      let n := (s.bval q0 0 .zext b).toNat
      match s.me.skim with
      | none => s.trap 0xA4 0 q0.lit
      | some k =>
        if n == 0 || decide (16 < n) || decide (32 < a.val + n) || decide (4 * k.dest.length < 64 * n) then s.trap 0xA4 0 q0.lit
        else
          let v (j : Nat) : VReg := Fin.ofNat 32 (a.val + j)
          let q : Form := { srcs := brefS b ++ (List.range n).map fun j => .v (v j) false, dsts := [], lit := isLit b }
          s.gate q <|
            if k.dest.any fun w => s.myCl.retired.contains (w / 1024) then s.trap 0x45 (BitVec.ofNat 64 (4 * k.dest.headD 0)) q0.lit
            else if k.dest.any fun w => s.myCl.locked (w / 1024) then s.waits
            else
              let word (j : Nat) : W32 := if j / 16 < n then lane s.me.v[v (j / 16)] (j % 16) else 0
              let t := (s.pops q).modCluster (clusterOf s.cur) fun c =>
                (k.dest.zipIdx).foldl (fun c (w, j) => (c.putWord w (word j)).fillWord w) c
              (t.modMe fun x => { x with replied := true }).endSkim

end Sys2Proof.Machine
end

