-- ==== Sys2Proof/Machine/Copy.lean ====
section
/-!
DEFINITION. Commands of the copy engine (R264–R267, R391) and of the gather engine (R268–R270), and the end of every
command (R240, R248, R259).
-/

namespace Sys2Proof.Machine

/-! ### Ranges (R264) -/

/-- A locator is permitted, aligned, and its range of `n` bytes lies in its space (step 6 of R247). -/
def span (l n : Nat) (spaces : List Nat) : Bool :=
  let a := addrOf l
  spaces.contains (space l) &&
    match space l with
    | 4 => decide (a < 16)
    | 2 => true
    | 1 => a % 4 == 0 && decide (a < 2 ^ 23 ∧ a + n ≤ 2 ^ 23)
    | _ => a % 4 == 0 && decide (a + n ≤ 2 ^ 56)

/-- A scratchpad range given by an offset alone. -/
def spSpan (off n : Nat) : Bool := off % 4 == 0 && decide (off + n ≤ 2 ^ 23)

/-- The source of a locator, `k` bytes further on. -/
def srcAt (l k : Nat) : From :=
  match space l with | 1 => .sp (addrOf l + k) | 2 => .later k | _ => .mem (addrOf l + k)

/-- The writes of `n` bytes from an address on, cut at line boundaries. -/
def puts (sp : Bool) (dst n : Nat) (src : Nat → From) : List Put :=
  (linePieces dst n).map fun x => { sp := sp, dst := x.1, n := x.2, src := src (x.1 - dst) }

/-- The pieces of a write list that lie in memory. -/
def memPieces (l : List Put) : List (Nat × Nat) := (l.filter fun p => !p.sp).map fun p => (p.dst, p.n)

/-- Commands of an engine that perform on a cluster, those left out that wait for a page (R239, R248). -/
def State.running (s : State) (cl : Nat) (e : Engine) : Nat :=
  let on (x : Slot) : Bool := (x.engine e).queue.head?.any fun c => c.started && !c.paused && clusterOf c.pos == cl
  (s.slots.filter fun y => on y.2).length + (s.saved.filter fun y => on y.2.x).length

/-- The copy engine takes a command of one more slot: up to 32 at once (R239). -/
def State.copyRoom (s : State) (p : Nat) : Bool := decide (s.running (clusterOf (s.seat p)) .c < 32)
/-- The gather engine runs one command at a time (R239). -/
def State.gatherRoom (s : State) (p : Nat) : Bool := s.running (clusterOf (s.seat p)) .g == 0

/-- Some tile slot that a write list touches is locked (R198). -/
def Cluster.lockedBy (c : Cluster) (l : List Put) : Bool := l.any fun p => p.sp && c.locked (p.dst / 4096)

/-- A command starts with its writes listed: scratchpad words become empty at once, pieces of memory one by one (R265). -/
def State.startPuts (s : State) (h : Nat) (e : Engine) (l : List Put) (f : Cmd → Cmd) : State :=
  (s.modCluster (clusterOf (s.seat h)) fun c => l.foldl (fun k p => if p.sp then k.emptyRange p.dst p.n else k) c).startCmd h e fun c =>
    f { c with marks := memPieces l, out := l }

/-! ### NVMe extents (R390, R391) -/

/-- A word of an NVMe entry. -/
def State.nvmeWord (s : State) (dev k : Nat) : Nat := (((s.nvmeTab.getD dev (Vector.replicate 4 0)).toList).getD k 0).toNat

/-- An extent may be read (R391). -/
def State.nvmeOk (s : State) (l n : Nat) : Bool :=
  let dev := fld l 48 8
  let off := l % 2 ^ 48
  let w0 := s.nvmeWord dev 0
  let sh := fld w0 36 4
  bit w0 63 && fld w0 57 6 == 0 && s.nvmeWord dev 3 / 2 ^ 32 == 0 && (sh == 9 || sh == 12) && off % 2 ^ sh == 0 && n % 2 ^ sh == 0 &&
    decide (off + n ≤ s.nvmeWord dev 2 * 2 ^ sh)

/-- Landing pages that no read uses (R390). -/
def State.freePages (s : State) : List Nat := (List.range 12288).filter fun k => !s.nvme.any fun e => e.2.pages.contains k

/-- The words of an NVMe Read (entry 46): opcode 0x02 and its number, namespace, PRP1 and PRP2, first block, blocks less 1. -/
def State.nvmeCommand (s : State) (x : Nvme) (place : Nat) (pages : List Nat) : List Nat :=
  let w0 := s.nvmeWord x.entry 0
  let sh := fld w0 36 4
  let bus (k : Nat) : Nat := (Config.windowBus (fld w0 56 1) + 4096 * pages.getD k 0) % 2 ^ 64
  let prp2 := if pages.length ≤ 1 then 0 else if pages.length == 2 then bus 1 else (Config.prpList s.tick).toNat
  [2 + place % 512 * 2 ^ 16 + w0 % 2 ^ 32 * 2 ^ 32, 0, 0, bus 0, prp2, x.off / 2 ^ sh, x.len / 2 ^ sh - 1, 0]

/-- The list of the landing pages after the first is written where PRP2 of a read of more than two pages names it (R391; entry 46). -/
def State.nvmeList (s : State) (port : Nat) (pages : List Nat) : State :=
  if pages.length ≤ 2 then s
  else s.postHost port (Config.prpList s.tick).toNat (pages.tail.flatMap fun k => toBytes 8 ((Config.windowBus port + 4096 * k) % 2 ^ 64))

/-- A read is submitted, where its queue has a place and there are landing pages for it: its command is written, with the list of
its pages, and its doorbell rung (R391). -/
def State.nvmeSubmit (s : State) (n : Nat) (x : Nvme) : State :=
  let w0 := s.nvmeWord x.entry 0
  let free := s.freePages
  let need := (x.len + 4095) / 4096
  let k := Config.landing s.tick % free.length
  let pages := (free.drop k ++ free.take k).take need
  let place := s.nvmeTail.getD x.entry 0
  let bell := s.nvmeWord x.entry 1 + 8 * fld w0 40 16 * 2 ^ fld w0 32 4
  let under := (s.nvme.filter fun e => e.2.entry == x.entry && e.2.pages != []).length
  if x.pages != [] || !bit w0 63 || 511 ≤ under || free.length < need then s
  else
    let t : State :=
      { s with
        nvme := s.nvme.set n { x with since := s.now, pages := pages }, nvmeTail := s.nvmeTail.set x.entry (place + 1),
        bar2 := s.bar2.putBytes (0x3000000 + 0x10000 * x.entry + 64 * (place % 512)) ((s.nvmeCommand x place pages).flatMap (toBytes 8)) }
    (t.nvmeList (fld w0 56 1) pages).postHost (fld w0 56 1) (bell % 2 ^ 64) (toBytes 4 ((place + 1) % 512))

/-- Every read that can be submitted is, oldest first. -/
def State.nvmeGo (s : State) : State := s.nvme.foldl (fun t e => t.nvmeSubmit e.1 e.2) s

/-- An extent is split into reads of up to 128 KiB, which are submitted (R391). -/
def State.nvmeRead (s : State) (h : Nat) (ticket : W32) (l n : Nat) : State :=
  ((List.range ((n + 2 ^ 17 - 1) / 2 ^ 17)).foldl (fun (t : State) k =>
    let rel := 2 ^ 17 * k
    let x : Nvme := { owner := (t.holder h).tid, ticket := ticket, entry := fld l 48 8, off := l % 2 ^ 48 + rel, rel := rel,
                      len := Nat.min (2 ^ 17) (n - rel), since := t.now, pages := [] }
    { t with nvme := t.nvme.set t.seq x }.bump) s).nvmeGo

/-- A command has reads under way. -/
def State.nvmePending (s : State) (h : Nat) (c : Cmd) : Bool :=
  s.nvme.any fun e => e.2.owner == (s.holder h).tid && e.2.ticket == c.ticket

/-! ### `copy`, `copy2`, `tfill` (R264, R265) -/

/-- The barrier locator of `copy` is permitted, and its object is aligned (R264, R234). -/
def Cmd.barrierOk (c : Cmd) : Bool := fld (c.w 0) 12 2 == 0 || (span (c.loc 6) 16 [0, 1] && addrOf (c.loc 6) % 16 == 0)

/-- The start of `copy` (R264, R265). -/
def State.startCopy (s : State) (p : Nat) (c : Cmd) : Option State :=
  let cl := clusterOf (s.seat p)
  let k := s.cluster cl
  let src := c.loc 1
  let dst := c.loc 3
  let n := c.w 5
  let r := k.ring (addrOf dst)
  let tiles := n / 4096
  if space dst == 4 && decide (addrOf dst < 16) && (!r.conf || decide (4096 * r.len < n)) then s.refuseCmd p .c 0xA1
  else if n % 4 != 0 || n == 0 || decide (2 ^ 24 < n) || !span src n [0, 1, 2] || !span dst n [0, 1, 4] || !c.barrierOk ||
      (space dst == 4 && n % 4096 != 0) || (space src == 2 && !s.nvmeOk src n) then s.refuseCmd p .c 0xA5
  else
    let chunk := if space src == 2 then 2 ^ 17 else n
    let parts := (List.range ((n + chunk - 1) / chunk)).map fun j => (chunk * j, Nat.min chunk (n - chunk * j))
    let l := if space dst == 4 then
        (r.tail tiles).zipIdx.flatMap fun (t, j) => puts true (4096 * t) 4096 fun o => srcAt src (4096 * j + o)
      else parts.flatMap fun x => puts (space dst == 1) (addrOf dst + x.1) x.2 fun o => srcAt src (x.1 + o)
    if (space dst == 4 && decide (r.room < tiles)) || k.lockedBy l then none
    else
      let t := if space dst == 4 then s.modCluster cl fun y => y.claim (addrOf dst) tiles else s
      let t := t.startPuts p .c l fun c => { c with loaded := true }
      some (if space src == 2 then t.nvmeRead p c.ticket (addrOf src) n else t)

/-- The start of `copy2` (R264, R265). -/
def State.startCopy2 (s : State) (p : Nat) (c : Cmd) : Option State :=
  let src := c.loc 1
  let dst := c.loc 3
  let n := c.w 5
  let ss := fld (c.w 6) 0 16
  let ds := fld (c.w 6) 16 16
  let rows := c.w 7
  let last := rows - 1
  if n % 4 != 0 || n == 0 || rows == 0 || ss % 4 != 0 || ds % 4 != 0 || !span src (ss * last + n) [0, 1] ||
      !span dst (ds * last + n) [0, 1] || (decide (1 < rows) && decide (ds < n)) then s.refuseCmd p .c 0xA5
  else
    let l := (List.range rows).flatMap fun i => puts (space dst == 1) (addrOf dst + ds * i) n fun o => srcAt src (ss * i + o)
    if (s.cluster (clusterOf (s.seat p))).lockedBy l then none
    else some (s.startPuts p .c l fun c => { c with loaded := true })

/-- The start of `tfill` (R264, R265). -/
def State.startTfill (s : State) (p : Nat) (c : Cmd) : Option State :=
  let dst := c.loc 1
  let n := c.w 3
  if n % 4 != 0 || n == 0 || decide (2 ^ 24 < n) || !span dst n [0, 1] then s.refuseCmd p .c 0xA5
  else
    let l := (linePieces (addrOf dst) n).map fun x =>
      ({ sp := space dst == 1, dst := x.1, n := x.2,
         src := .bytes ((List.range (x.2 / 4)).flatMap fun _ => toBytes 4 (c.w 4)) } : Put)
    if (s.cluster (clusterOf (s.seat p))).lockedBy l then none
    else some (s.startPuts p .c l fun c => { c with loaded := true })

/-! ### Versions (R266, R267) -/

/-- The checks of a handle that an engine makes: its descriptor, or the cause (R34). -/
def State.engHandle (s : State) (cd asid : Nat) (h : Word) : Except Nat Desc :=
  match s.ctx cd asid with
  | .invalid => .error 0x46
  | .poisoned => .error 0x45
  | .far _ => .error 0x63
  | .ok _ _ _ _ =>
    match s.desc cd asid (tensorOf h) with
    | none => .error 0x63
    | some d => if d.tiles ≤ tileOf h then .error 0x64 else .ok d

/-- The head command makes a tile request. -/
def State.engRequest (s : State) (h : Nat) (e : Engine) (kind : TileKind) (v : Word) (d : Desc) : State :=
  let x := s.holder h
  let pos := (((x.engine e).queue.head?).map (·.pos)).getD 0
  let r : TileReq :=
    { kind := kind, h := v, asid := x.asid.toNat, user := x.priv == 0, slot := pos, tid := x.tid, st := .sent, since := s.now,
      reported := false, inc := (s.die (dieOf pos)).incarn, poison := false, home := homeOf v d, frame := none }
  let n := s.seq
  (s.sendRequest n r).bump.modCmd h e fun c => { c with tile := some n }

/-- The request of the head command has failed with a cause: a page is waited for and the request then made again, and
any other cause fails the command (R248, R267). -/
def State.engTileBad (s : State) (h : Nat) (e : Engine) (id c addr : Nat) : Option State :=
  let t := { s with tiles := s.tiles.del id }.modCmd h e fun x => { x with tile := none }
  t.engBad h e (if c == 0x40 then 0 else c) addr false

/-- The head command's request has ended; `k` goes on with its answer. -/
def State.engAnswer (s : State) (h : Nat) (e : Engine) (c : Cmd) (k : State → List Byte → List Byte → State) : Option State :=
  match c.tile with
  | none => none
  | some id =>
    match s.tiles.get? id with
    | none => none
    | some r =>
      match r.st with
      | .answered _ d b => some (k ({ s with tiles := s.tiles.del id }.modCmd h e fun x => { x with tile := none }) d b)
      | .bad x a => s.engTileBad h e id x a
      | _ => none

/-- Handle of a command at words `k`, `k + 1`. -/
def Cmd.handle (c : Cmd) (k : Nat) : Word := BitVec.ofNat 64 (c.loc k)

/-- Rows of 64 FP32 values quantised: elements, row scales, flags (R112, R113, R266). -/
def quantTile (q : QTy) (b : Int) (data : List Byte) : List Byte × List Byte × Fp.Flags :=
  let rows := (List.range 64).map fun i =>
    Fp.quantRow q ((List.range 64).map fun j => ofBytes (slice data (256 * i + 4 * j) 4)) b
  (rows.flatMap fun r => r.2.1.map (BitVec.ofNat 8), rows.map fun r => BitVec.ofInt 8 r.1, rows.foldl (fun f r => f ||| r.2.2) 0)

/-- The start of `copy.q` (R266). -/
def State.startCopyQ (s : State) (p : Nat) (c : Cmd) : Option State :=
  if !span (c.loc 1) 16384 [0, 1] || c.w 5 == 0 then s.refuseCmd p .c 0xA5 else some (s.startCmd p .c id)

/-- `copy.q` goes on: its source is read, quantised, and stored as a version (R266). -/
def State.goCopyQ (s : State) (p : Nat) (c : Cmd) : Option State :=
  let h := c.handle 3
  if c.loaded then none
  else if c.tile.isSome then s.engAnswer p .c c fun t _ _ => t.modCmd p .c fun x => { x with loaded := true }
  else
    match s.engHandle (dieOf c.pos) (s.holder p).asid.toNat h with
    | .error e => some (s.engFail p .c e)
    | .ok d =>
      if !d.scaled || !(d.fmt == 3 || d.fmt == 4) || d.rows != 64 then some (s.engFail p .c 0x63)
      else if verOf h == 0 then some (s.engFail p .c 0x60)
      else match s.engRead p .c c.pos (srcAt (c.loc 1) 0) 16384 with
        | (t, .error (e, a)) => t.engBad p .c e a false
        | (t, .ok b) =>
          let r := quantTile (if d.fmt == 3 then .e4m3 else .e5m2) (BitVec.ofNat 8 d.sbase).toInt b
          let side := r.2.1 ++ List.replicate 192 0
          some ((t.engRequest p .c (.engStore .c c.ticket (c.w 5) none none r.1 side) h d).modCmd p .c fun x => { x with flags := r.2.2 })

/-- Data and scales of a loaded version given to the writes that await them. -/
def Put.give (data : List Byte) (rel len : Nat) (p : Put) : Put :=
  match p.src with
  | .later k => if rel ≤ k && k < rel + len then { p with src := .bytes (slice data (k - rel) p.n) } else p
  | _ => p

/-- The scale block that a `copy.v` names: offset and bytes, for a tensor of `rows` rows (R267). -/
def Cmd.scaleBlock (c : Cmd) (rows : Nat) : Option (Nat × Nat) :=
  if bit (c.w 6) 31 then some (c.w 6 % 2 ^ 23, rows) else none

/-- A load of `copy.v` (R267). -/
def Cmd.loads (c : Cmd) : TileKind := .engLoad .c c.ticket (bit (c.w 0) 12)

/-- The start of a load of `copy.v` (R267). -/
def State.startCopyVLoad (s : State) (p : Nat) (c : Cmd) : Option State :=
  let cl := clusterOf (s.seat p)
  let k := s.cluster cl
  let dst := c.loc 3
  let r := k.ring (addrOf dst)
  let d := s.engHandle (dieOf (s.seat p)) (s.holder p).asid.toNat (c.handle 1)
  let sc := match d with | .ok d => c.scaleBlock d.rows | .error _ => none
  if space dst == 4 && decide (addrOf dst < 16) && (!r.conf || r.len == 0) then s.refuseCmd p .c 0xA1
  else if !span dst 4096 [1, 4] || (space dst == 1 && addrOf dst % 4096 != 0) || (bit (c.w 6) 31 && c.w 6 % 4 != 0) ||
      (sc.any fun x => !spSpan x.1 x.2) then s.refuseCmd p .c 0xA5
  else
    let tile := if space dst == 4 then 4096 * (r.tail 1).headD 0 else addrOf dst
    let l := (puts true tile 4096 fun o => .later o) ++
      (match sc with | some (off, n) => puts true off n fun o => .later (4096 + o) | none => [])
    if (space dst == 4 && r.room == 0) || k.lockedBy l then none
    else
      let t := if space dst == 4 then s.modCluster cl fun y => y.claim (addrOf dst) 1 else s
      let t := t.startPuts p .c l fun c => { c with scale := sc }
      some (match d with
        | .error e => t.engFail p .c e
        | .ok d => t.engRequest p .c c.loads (c.handle 1) d)

/-- A load of `copy.v` goes on: its version arrives and its writes are performed (R267). -/
def State.goCopyVLoad (s : State) (p : Nat) (c : Cmd) : Option State :=
  if c.loaded then s.work p .c c
  else if c.tile.isNone then
    match s.engHandle (dieOf c.pos) (s.holder p).asid.toNat (c.handle 1) with
    | .error e => some (s.engFail p .c e)
    | .ok d => some (s.engRequest p .c c.loads (c.handle 1) d)
  else
    s.engAnswer p .c c fun t d b =>
      let n := d ++ b ++ List.replicate ((c.scale.map (·.2)).getD 0) 0
      t.modCmd p .c fun x => { x with loaded := true, out := x.out.map (Put.give n 0 n.length) }

/-- A store of `copy.v` makes its version request, from a tile slot or of data, with its scale block (R267). -/
def State.storeV (s : State) (p pos : Nat) (c : Cmd) (tile : Option Nat) (data : List Byte) : State :=
  match s.engHandle (dieOf pos) (s.holder p).asid.toNat (c.handle 1) with
  | .error e => s.engFail p .c e
  | .ok d =>
    let k := s.cluster (clusterOf pos)
    let sc := if d.scaled then c.scaleBlock d.rows else none
    if verOf (c.handle 1) == 0 then s.engFail p .c 0x60
    else if c.w 5 == 0 then s.engFail p .c 0x66
    else if sc.any fun x => k.spGone x.1 x.2 || (tile.isNone && k.spBad x.1 x.2) then s.engFail p .c 0x45
    else
      let side := match sc with | some (o, n) => (k.spBytes o n).map scaleByte | none => []
      let t := match tile with
        | some x => s.modCluster (clusterOf pos) fun y => { y with locks := x :: y.locks }
        | none => s
      t.engRequest p .c (.engStore .c c.ticket (c.w 5) tile sc data (side ++ List.replicate (256 - side.length) 0)) (c.handle 1) d

/-- The start of a store of `copy.v` (R267). The ring tile that it consumes is popped at its end, also where it fails in its
execution (entry 69). -/
def State.startCopyVStore (s : State) (p : Nat) (c : Cmd) : Option State :=
  let k := s.cluster (clusterOf (s.seat p))
  let src := c.loc 3
  let r := k.ring (addrOf src)
  let rows := match s.engHandle (dieOf (s.seat p)) (s.holder p).asid.toNat (c.handle 1) with | .ok d => d.rows | .error _ => 0
  if space src == 4 && decide (addrOf src < 16) && (!r.conf || r.len == 0) then s.refuseCmd p .c 0xA1
  else if !span src 4096 [1, 2, 4] || (space src == 1 && addrOf src % 4096 != 0) || (bit (c.w 6) 31 && !spSpan (c.w 6 % 2 ^ 23) rows) ||
      (space src == 2 && !s.nvmeOk (addrOf src) 4096) then s.refuseCmd p .c 0xA5
  else if space src == 2 then
    some ((s.startCmd p .c fun c => { c with out := [{ sp := true, dst := 0, n := 4096, src := .later 0 }] }).nvmeRead p c.ticket
      (addrOf src) 4096)
  else if space src == 4 && r.avail == 0 then none
  else
    let tile := if space src == 4 then (r.front 1).headD 0 else addrOf src / 4096
    let t := s.startCmd p .c fun c => { c with pops := if space src == 4 then [(addrOf src, 1)] else [] }
    some (if k.spGone (4096 * tile) 4096 then t.engFail p .c 0x45 else t.storeV p (s.seat p) c (some tile) [])

/-- A store of `copy.v` goes on: its version has been stored, or its data has arrived from the controller (R267). -/
def State.goCopyVStore (s : State) (p : Nat) (c : Cmd) : Option State :=
  if c.loaded then none
  else if c.tile.isSome then s.engAnswer p .c c fun t _ _ => t.modCmd p .c fun x => { x with loaded := true }
  else
    match c.out.head?.map fun (p : Put) => p.src with
    | some (From.bytes b) => some ((s.modCmd p .c fun x => { x with out := [] }).storeV p c.pos c none b)
    | _ => none

/-! ### The gather engine (R268–R270) -/

/-- A 32-bit scratchpad word. -/
def Cluster.word32 (c : Cluster) (off : Nat) : Nat := (c.spWord (off / 4)).toNat

/-- The start of `gather` (R268). -/
def State.startGather (s : State) (p : Nat) (c : Cmd) : Option State :=
  let k := s.cluster (clusterOf (s.seat p))
  let tab := c.loc 1
  let idx := c.w 3
  let n := c.w 4
  let rb := c.w 5
  let dst := c.w 6
  if n == 0 || decide (4096 < n) || rb % 4 != 0 || rb == 0 || decide (4096 < rb) || !span tab 0 [0, 1] || !spSpan idx (4 * n) ||
      !spSpan dst (n * rb) then s.refuseCmd p .g 0xA5
  else
    let l := (List.range n).flatMap fun i => puts true (dst + rb * i) rb fun o => srcAt tab (k.word32 (idx + 4 * i) * rb + o)
    if k.lockedBy l then none
    else
      let t := s.startPuts p .g l fun c => { c with loaded := true }
      some (if k.spBad idx (4 * n) || k.spGone idx (4 * n) then t.engFail p .g 0x45 else t)

/-- An entry of a top-k list: score and index. -/
abbrev TopK := List (Nat × Nat)

/-- `x` stands before `y`: a higher score, or an equal one and a lower index (R269). -/
def topBefore (x y : Nat × Nat) : Bool :=
  match Fp.cmpNum (Fp.f32.val x.1) (Fp.f32.val y.1) with
  | .gt => true
  | .lt => false
  | .eq => decide (x.2 < y.2)

/-- Insertion in list order. -/
def topInsert (x : Nat × Nat) : TopK → TopK
  | [] => [x]
  | y :: t => if topBefore x y then x :: y :: t else y :: topInsert x t

/-- An unused entry (R269). -/
def topUnused : Nat × Nat := (0xFF800000, 0xFFFFFFFF)

/-- A list of `k` entries in list order without NaN scores. -/
def topOk : TopK → Bool
  | [] => true
  | [x] => !(Fp.f32.val x.1).isNan
  | x :: y :: t => !(Fp.f32.val x.1).isNan && !topBefore y x && topOk (y :: t)

/-- The list of `k` entries at a scratchpad offset. -/
def Cluster.topAt (c : Cluster) (off k : Nat) : TopK :=
  (List.range k).map fun j => (c.word32 (off + 8 * j), c.word32 (off + 8 * j + 4))

/-- The writes of a list at an offset: `k` entries, unused ones last; a list made from one that is not sorted is free
(entry 12). -/
def topPuts (tick off k : Nat) (ok : Bool) (l : TopK) : List Put :=
  (List.range k).flatMap fun j =>
    let e := l.getD j topUnused
    let w (i v : Nat) : Put :=
      { sp := true, dst := off + 8 * j + 4 * i, n := 4, src := .bytes (toBytes 4 (if ok then v else (Config.looseList tick (2 * j + i)).toNat)) }
    [w 0 e.1, w 1 e.2]

/-- Element of a query or row as a value (R269). -/
def gdistElem (ef : Nat) (b : List Byte) (i : Nat) : Fp.Val :=
  if ef == 0 then Fp.bf16.val (ofBytes (slice b (2 * i) 2)) else (if ef == 1 then Fp.e4m3 else Fp.e5m2).val (ofBytes (slice b i 1))

/-- The candidates of `gdist` read and scored one after another: scores, indexes and flags, or the first failure. A row outside its space
fails as it is read, with SUB 0x43 (entry 82). -/
def State.gdistRows (s : State) (p : Nat) (c : Cmd) (ef d : Nat) (q : List Byte) : List Nat → State × Except (Nat × Nat) (TopK × Fp.Flags)
  | [] => (s, .ok ([], 0))
  | x :: t =>
    let rb := d * (if ef == 0 then 2 else 1)
    match s.engRead p .g c.pos (srcAt (c.loc 1) (x * rb)) rb with
    | (u, .error e) => (u, .error e)
    | (u, .ok b) =>
      let r := Fp.dot ((List.range d).map fun i => (gdistElem ef q i, gdistElem ef b i)) 0
      match u.gdistRows p c ef d q t with
      | (v, .error e) => (v, .error e)
      | (v, .ok (l, f)) => (v, .ok ((r.1, x) :: l, r.2 ||| f))

/-- Offset and bytes of the query of `gdist`, its dimension, and the entries of its list (R269). -/
def Cmd.query (c : Cmd) : Nat × Nat :=
  (c.w 4, 16 * (c.w 5 / 2 ^ 16) * (if fld (c.w 0) 12 2 == 0 then 2 else 1))
/-- Entries of the list of `gdist`. -/
def Cmd.listLen (c : Cmd) : Nat := fld (c.w 6) 23 8 + 1

/-- The start of `gdist` (R269). -/
def State.startGdist (s : State) (p : Nat) (c : Cmd) : Option State :=
  let dg := c.w 5 / 2 ^ 16
  let n := c.w 5 % 2 ^ 16
  if n == 0 || dg == 0 || decide (256 < dg) || !span (c.loc 1) 0 [0, 1] || (!bit (c.w 3) 31 && !spSpan (c.w 3 % 2 ^ 23) (4 * n)) ||
      !spSpan c.query.1 c.query.2 || !spSpan (c.w 6 % 2 ^ 23) (8 * c.listLen) then s.refuseCmd p .g 0xA5
  else some (s.startCmd p .g id)

/-- `gdist` goes on: the candidates are scored and the list is written (R269). -/
def State.goGdist (s : State) (p : Nat) (c : Cmd) : Option State :=
  let ef := fld (c.w 0) 12 2
  let init := bit (c.w 0) 14
  let seqi := bit (c.w 3) 31
  let idx := c.w 3 % 2 ^ 23
  let n := c.w 5 % 2 ^ 16
  let k := c.listLen
  let dst := c.w 6 % 2 ^ 23
  if c.loaded then s.work p .g c
  else
    let cl := s.cluster (clusterOf c.pos)
    let bad (o m : Nat) : Bool := cl.spBad o m || cl.spGone o m
    if bad c.query.1 c.query.2 || (!seqi && bad idx (4 * n)) || (!init && bad dst (8 * k)) then some (s.engFail p .g 0x45)
    else
      let xs := (List.range n).map fun i => if seqi then (c.w 7 + i) % 2 ^ 32 else cl.word32 (idx + 4 * i)
      match s.gdistRows p c ef (16 * (c.w 5 / 2 ^ 16)) (cl.spBytes c.query.1 c.query.2) xs with
      | (t, .error (e, a)) => t.engBad p .g e a false
      | (t, .ok (l, f)) =>
        let old := if init then [] else cl.topAt dst k
        let new := (l.filter fun x => !(Fp.f32.val x.1).isNan).foldl (fun b x => topInsert x b) old
        some (t.modCmd p .g fun x => { x with loaded := true, flags := f, out := topPuts t.tick dst k (topOk old) new })

/-- The start of `topk.merge`: both lists are read (R270). -/
def State.startTopkMerge (s : State) (p : Nat) (c : Cmd) : Option State :=
  let ka := fld (c.w 4) 0 8 + 1
  let kb := fld (c.w 4) 8 8 + 1
  let ko := fld (c.w 4) 16 8 + 1
  if !spSpan (c.w 1) (8 * ka) || !spSpan (c.w 2) (8 * kb) || !spSpan (c.w 3) (8 * ko) then s.refuseCmd p .g 0xA5
  else
    let cl := s.cluster (clusterOf (s.seat p))
    let bad (o m : Nat) : Bool := cl.spBad o m || cl.spGone o m
    let a := cl.topAt (c.w 1) ka
    let b := cl.topAt (c.w 2) kb
    if bad (c.w 1) (8 * ka) || bad (c.w 2) (8 * kb) then some ((s.startCmd p .g id).engFail p .g 0x45)
    else
      some (s.startCmd p .g fun x =>
        { x with loaded := true, out := topPuts s.tick (c.w 3) ko (topOk a && topOk b) (b.foldl (fun l x => topInsert x l) a) })

/-! ### The choice of a slot (R239) -/

/-- What the copy or the gather engine does with a command that it takes up; `none` where the command has to wait for a ring or
for a tile slot. -/
def State.begin (s : State) (h : Nat) (e : Engine) (c : Cmd) : Option State :=
  match c.opc with
  | 0x10 => s.ringCfg h e c
  | 0x11 => s.ringAdv h e c
  | 0x12 => s.ringReset h e c
  | 0x20 => s.startCopy h c
  | 0x21 => s.startCopy2 h c
  | 0x22 => s.startCopyQ h c
  | 0x23 => if bit (c.w 0) 13 then s.startCopyVStore h c else s.startCopyVLoad h c
  | 0x24 => s.startTfill h c
  | 0x30 => s.startGather h c
  | 0x31 => s.startGdist h c
  | 0x32 => s.startTopkMerge h c
  | _ => none

/-- An engine could take up the head command of a task: to start it, or to go on with it after it has waited for a page. -/
def State.readyHead (s : State) (e : Engine) (h : Nat) : Bool :=
  match s.headCmd h e with
  | .go c => c.page == none && (if c.started then c.paused else (s.begin h e c).isSome)
  | _ => false

/-- Tasks of a cluster in slot order from a slot on; those that have left a slot stand before the one in it. -/
def State.tasksFrom (s : State) (cl k : Nat) : List Nat :=
  (List.range 128).flatMap fun j =>
    let p := cl * 128 + (k + j) % 128
    ((s.saved.filter fun e => e.2.pos == p).map (·.1)) ++ [p]

/-- Where an engine begins its next search. -/
def Cluster.turn (c : Cluster) (e : Engine) : Nat := match e with | .g => c.gatherTurn | _ => c.copyTurn

/-- It is a task's turn at the copy or the gather engine: there is room, and it is the first with a ready head (R239). -/
def State.myTurn (s : State) (h : Nat) (e : Engine) : Bool :=
  let cl := clusterOf (s.seat h)
  (if e == .g then s.gatherRoom h else s.copyRoom h) && (s.tasksFrom cl ((s.cluster cl).turn e)).find? (s.readyHead e) == some h

/-- The engine's next search begins after a slot. -/
def State.passTurn (s : State) (h : Nat) (e : Engine) : State :=
  let k := (s.seat h % 128 + 1) % 128
  s.modCluster (clusterOf (s.seat h)) fun c => match e with | .g => { c with gatherTurn := k } | _ => { c with copyTurn := k }

/-- An engine goes on with a command that has waited for a page (R239, R248). -/
def State.resumeCmd (s : State) (h : Nat) (e : Engine) : Option State :=
  if s.myTurn h e then some ((s.modCmd h e fun c => { c with paused := false }).passTurn h e) else none

/-- The row step of a command of the copy or the gather engine: in its turn it is taken up, and then goes on by `go`. -/
def State.serve (s : State) (h : Nat) (e : Engine) (mine : Cmd → Bool) (go : Cmd → Option State) : Out :=
  s.engStep h e mine fun c =>
    if c.paused then s.resumeCmd h e
    else if c.started then go c
    else if s.myTurn h e then (s.begin h e c).map (·.passTurn h e)
    else none

/-- The row step of a ring command: at the matrix engine it is performed at the head of its queue, at the others in its turn (R239,
R251). -/
def State.serveRing (s : State) (h : Nat) (e : Engine) (mine : Cmd → Bool) (go : Cmd → Option State) : Out :=
  if e == .m then s.engStep h e mine go else s.serve h e mine go

/-- `ring.cfg` (R251). -/
def execRingCfg (p : Nat) (e : Engine) (s : State) : Out := s.serveRing p e (fun c => c.opc == 0x10) (s.ringCfg p e)
/-- `ring.adv` (R251). -/
def execRingAdv (p : Nat) (e : Engine) (s : State) : Out := s.serveRing p e (fun c => c.opc == 0x11) (s.ringAdv p e)
/-- `ring.reset` (R251). -/
def execRingReset (p : Nat) (e : Engine) (s : State) : Out := s.serveRing p e (fun c => c.opc == 0x12) (s.ringReset p e)

/-- `copy` (R264, R265). -/
def execCopy (p : Nat) (s : State) : Out := s.serve p .c (fun c => c.opc == 0x20) (s.work p .c)
/-- `copy2` (R264, R265). -/
def execCopy2 (p : Nat) (s : State) : Out := s.serve p .c (fun c => c.opc == 0x21) (s.work p .c)
/-- `tfill` (R264, R265). -/
def execTfill (p : Nat) (s : State) : Out := s.serve p .c (fun c => c.opc == 0x24) (s.work p .c)
/-- `copy.q` (R266). -/
def execCopyQ (p : Nat) (s : State) : Out := s.serve p .c (fun c => c.opc == 0x22) (s.goCopyQ p)
/-- `copy.v`, a load (R267). -/
def execCopyVLoad (p : Nat) (s : State) : Out := s.serve p .c (fun c => c.opc == 0x23 && !bit (c.w 0) 13) (s.goCopyVLoad p)
/-- `copy.v`, a store (R267). -/
def execCopyVStore (p : Nat) (s : State) : Out := s.serve p .c (fun c => c.opc == 0x23 && bit (c.w 0) 13) (s.goCopyVStore p)
/-- `gather` (R268). -/
def execGather (p : Nat) (s : State) : Out := s.serve p .g (fun c => c.opc == 0x30) (s.work p .g)
/-- `gdist` (R269). -/
def execGdist (p : Nat) (s : State) : Out := s.serve p .g (fun c => c.opc == 0x31) (s.goGdist p)
/-- `topk.merge` (R270). -/
def execTopkMerge (p : Nat) (s : State) : Out := s.serve p .g (fun c => c.opc == 0x32) (s.work p .g)

/-! ### The end of a command (R240) -/

/-- A handler of an `mdrain` runs. -/
def State.handlersOf (s : State) (h : Nat) : Bool :=
  s.slots.any fun e => match e.2.skim with | some k => k.owner == h | none => false

/-- Nothing is left of a started command but its end. -/
def State.cmdDone (s : State) (h : Nat) (c : Cmd) : Bool :=
  c.marks.isEmpty && c.out.isEmpty && c.wrote.isEmpty && c.tile.isNone && (c.loaded || c.fail.isSome) &&
    (c.fail.isSome || !s.nvmePending h c) && (c.opc != 0x09 || (c.rows.isEmpty && !s.handlersOf h))

/-- What a command that ends changes besides its sequence: rings popped and published, the array free, flags merged
(R22, R248, R250, R256, R258, R259, R263, R266, R269). -/
def State.closeCmd (s : State) (h : Nat) (e : Engine) (c : Cmd) : State :=
  let cl := clusterOf c.pos
  let s := State.nvmeGo { s with nvme := s.nvme.filter fun x => !(x.2.owner == (s.holder h).tid && x.2.ticket == c.ticket && e == Engine.c) }
  let s := s.modCluster cl fun k =>
    let k := c.pops.foldl (fun (k : Cluster) x => { k with rings := k.rings.set x.1 ((k.ring x.1).pop x.2) }) k
    let k := c.claims.foldl (fun (k : Cluster) x =>
      { k with rings := k.rings.set x.1 { k.ring x.1 with kept := (k.ring x.1).kept.filter (· != x.2) } }) k
    (List.range 16).foldl (fun (k : Cluster) r => (List.range 256).foldl (fun (k : Cluster) _ => k.publish r) k) k
  if e == Engine.m then
    let s := if c.opc < 0x09 then s.leaseIdle cl (coreOf c.pos) else s
    if c.opc == 0x09 then
      match s.bankHeld h with
      | some b =>
        let bank := (s.cluster cl).bank b
        (s.modCluster cl fun k => { k with banks := k.banks.set b { bank with flags := 0 } }).modHolder h fun x =>
          { x with flags := x.flags ||| bank.flags ||| c.flags }
      | none => s
    else s
  else if c.fail == none then s.modHolder h fun x => { x with flags := x.flags ||| c.flags }
  else s

/-- `COMMAND_END`: the head command of a task is discarded, is illegal, performs what is left of its writes, or ends
(R240, R247, R248). -/
def execCommandEnd (p : Nat) (e : Engine) (s : State) : Out :=
  s.act <|
    let d := dieOf (s.seat p)
    if s.ctrl.quiet || (s.die d).quiet || !s.up.getLsbD d then none
    else match s.headCmd p e with
      | .discard => some (s.endCmd p e none)
      | .illegal => some (s.endCmd p e (some (0xA0, 0)))
      | .go c =>
        if !c.started || c.page != none then none
        else if c.paused then s.resumeCmd p e
        else if s.cmdDone p c then some ((s.closeCmd p e c).endCmd p e c.fail)
        else if c.fail.isSome || c.opc == 0x09 then s.work p e c
        else none
      | _ => none

end Sys2Proof.Machine
end

