-- ==== Sys2Proof/Machine/Faults.lean ====
section
/-!
DEFINITION. The fault tree (R355–R358): fault messages climb from a cluster router to the root of their fault home and
merge on the way; a wake descends by the same entries, and each die root re-queues tasks and retries engines (R362,
R363).
-/

namespace Sys2Proof.Machine

/-! ### Routers (R355, R356): clusters 0–127, roots of compute dies 128–135, base dies 136 and 137 -/

/-- Port of a cluster router for its engines, of a die root for its base die and for launch notices, of a base router for
the other one. -/
def engPort : Nat := 8
def basePort : Nat := 16
def noticePort : Nat := 17
def peerPort : Nat := 4

/-- Fault home of a page: the compute die in service from the one of R355 on (R355). -/
def State.faultHome (s : State) (asid page : Nat) : Nat :=
  let j := (page ^^^ (page / 8) ^^^ asid) % 8
  (((List.range 8).map fun k => (j + k) % 8).find? fun d => s.up.getLsbD d).getD j

/-- Entries that a router's merge table holds (R356). -/
def routerSize (r : Nat) : Nat := if r < 128 then 64 else if r < 136 then 256 else 1024

/-- The die of a router. -/
def routerDie (r : Nat) : Nat := if r < 128 then r / 16 else r - 128

/-- The next router of a message and its port there; none at the root of the fault home (R355). -/
def nextRouter (home r : Nat) : Option (Nat × Nat) :=
  if r < 128 then some (128 + r / 16, r % 16)
  else if r < 136 then
    (if r - 128 == home then none else some (136 + (r - 128) / 4, (r - 128) % 4))
  else if home / 4 == r - 136 then some (128 + home, basePort)
  else some (136 + (1 - (r - 136)), peerPort)

/-- A router's entry for a page. -/
def State.merge (s : State) (r asid page : Nat) : Option Merge :=
  s.merges.find? fun m => m.router == r && m.asid == asid && m.page == page

/-- A message's wait joins the entry of its first router (R357). -/
def State.noteWait (s : State) (m : FaultMsg) : State :=
  match m.who with
  | some (w, entry, seq) =>
    { s with merged := s.merged ++ [{ router := m.router, asid := m.asid, page := m.page, who := w, entry := entry, seq := seq }] }
  | none => s

/-- The page request of a message that creates an entry at the root of its fault home (R356, R359, R360). -/
def State.pageRequest (s : State) (d : Nat) (m : FaultMsg) : State :=
  (s.fqWrite d { kind := 1, page := m.page, asid := m.asid, eng := m.eng, acc := m.acc, cause := m.cause, addr := m.addr }).count d 0x08 1

/-- `FAULT_MESSAGE`: the first message on a port of a router merges into the entry of its page, or creates one and goes
one step up; at the root of the fault home it writes a page request. It waits while the table or the fault queue is full
(R355, R356, R360). -/
def execFaultMessage (n : Nat) (s : State) : Out :=
  s.act do
    let m ← s.faultMsgs.get? n
    let earlier := s.faultMsgs.any fun e => e.1 < n && e.2.router == m.router && e.2.port == m.port
    if earlier then none
    else
      let t : State := { s with faultMsgs := s.faultMsgs.del n }
      match s.merge m.router m.asid m.page with
      | some x =>
        let add (y : Merge) : Merge := if y == x && !x.ports.contains m.port then { y with ports := y.ports ++ [m.port] } else y
        some (({ t with merges := t.merges.map add } : State).noteWait m)
      | none =>
        if routerSize m.router ≤ (s.merges.filter fun y => y.router == m.router).length then none
        else
          let u : State := { t with merges := t.merges ++ [{ router := m.router, asid := m.asid, page := m.page, ports := [m.port], first := m }] }
          let u := u.noteWait m
          match nextRouter (s.faultHome m.asid m.page) m.router with
          | some (r, p) => some { u with faultMsgs := u.faultMsgs.set u.seq { m with router := r, port := p, who := none } }.bump
          | none =>
            let d := m.router - 128
            if (s.die d).fqFull then none else some (u.pageRequest d m)

/-! ### Requests of the tree after a die has reset or is lost (R373, R398) -/

/-- A message came to a router from another die. -/
def FaultMsg.fromOther (m : FaultMsg) : Bool := decide (136 ≤ m.router) || (decide (128 ≤ m.router) && m.port == basePort)

/-- A wake came to a router from another die; it starts at the root of its fault home. -/
def State.wakeFromOther (s : State) (w : WakeMsg) : Bool :=
  decide (136 ≤ w.router) || (decide (128 ≤ w.router) && w.router - 128 != s.faultHome w.asid w.page)

/-- What the routers of a die held is gone; the messages and wakes that other dies had sent to them remain under way. -/
def State.clearRouters (s : State) (d : Nat) : State :=
  { s with merges := s.merges.filter fun e => routerDie e.router != d, merged := s.merged.filter fun e => routerDie e.router != d,
           faultMsgs := s.faultMsgs.filter fun e => routerDie e.2.router != d || e.2.fromOther,
           wakes := s.wakes.filter fun e => routerDie e.2.router != d || s.wakeFromOther e.2 }

/-- A router sends the message of an entry again, unless one is under way (R398). -/
def State.retryFault (s : State) (m : Merge) : State :=
  match nextRouter (s.faultHome m.asid m.page) m.router with
  | none => s
  | some (r, p) =>
    if s.faultMsgs.any fun e => e.2.router == r && e.2.port == p && e.2.asid == m.asid && e.2.page == m.page then s
    else { s with faultMsgs := s.faultMsgs.set s.seq { m.first with router := r, port := p, who := none } }.bump

/-- Every request that a router has forwarded to a router of a die is sent again (R398). -/
def State.retryFaults (s : State) (d : Nat) : State :=
  let lost (m : Merge) : Bool := match nextRouter (s.faultHome m.asid m.page) m.router with | some (r, _) => routerDie r == d | none => false
  (s.merges.filter lost).foldl State.retryFault s

/-- Every request whose fault home was a die that is lost is sent to the home that takes its place (R355, R399). -/
def State.moveFaults (s : State) (d : Nat) : State :=
  let before : State := { s with up := s.up ||| BitVec.twoPow 16 d }
  (s.merges.filter fun m => before.faultHome m.asid m.page == d).foldl State.retryFault s

/-! ### Wakes (R357, R358, R362, R363) -/

/-- A wake starts on its way to a router. -/
def State.sendWake (s : State) (r asid page : Nat) (ref : Bool) : State :=
  { s with wakes := s.wakes.set s.seq { router := r, asid := asid, page := page, ref := ref } }.bump

/-- A wake starts at the root of a die, if that has an entry for the page (R358). -/
def State.startWake (s : State) (d asid page : Nat) (ref : Bool) : State :=
  if (s.merge (128 + d) asid page).isSome then s.sendWake (128 + d) asid page ref else s

/-- A saved task with the outcome of its page (R364). -/
def Saved.answered (v : Saved) (ref : Bool) : Saved := { v with fault := v.fault.map fun f => { f with refused := ref } }

/-- An engine command that waits for a page goes on, or fails with it (R362). -/
def State.wakeEngine (s : State) (tid : Nat) (e : Engine) (ticket : W32) (ref : Bool) : State :=
  match s.findTask tid with
  | none => s
  | some h =>
    let cut (c : Cmd) : Cmd :=
      if c.ticket != ticket then c
      else match c.page with
        | none => c
        | some (_, wr, _, _) => if ref then c.failWith 0xA3 (if wr then 0x41 else 0x40) else { c with page := none }
    s.modCmd h e cut

/-- One wait ends: its entry is marked, and its task re-queued, its command retried or failed, its notice tried again or
dropped (R362, R363). -/
def State.wakeOne (s : State) (ref : Bool) (m : Merged) : State :=
  let s := s.fqWoken m.entry ref
  match m.who with
  | .task cb =>
    match s.saved.get? cb with
    | some v => { s with saved := s.saved.set cb (v.answered ref) }.requeue cb
    | none => s
  | .eng tid e ticket => s.wakeEngine tid e ticket ref
  | .notice cb =>
    match s.launches.get? cb with
    | some l => { s with launches := s.launches.set cb { l with wait := none, refused := l.refused || ref } }
    | none => s

/-- Insertion by sequence number. -/
def insertMerged (m : Merged) : List Merged → List Merged
  | [] => [m]
  | y :: t => if m.seq < y.seq then m :: y :: t else y :: insertMerged m t

/-- A die root has every list of its cluster routers: the waits end in ascending sequence number (R363). -/
def State.finishCollect (s : State) (c : Collect) : State :=
  (c.got.foldr insertMerged []).foldl (fun t m => t.wakeOne c.ref m) s

/-- The waits that merged into an entry, which leave it. -/
def State.takeMerged (s : State) (r asid page : Nat) : State × List Merged :=
  let mine (m : Merged) : Bool := m.router == r && m.asid == asid && m.page == page
  ({ s with merged := s.merged.filter fun m => !mine m }, s.merged.filter mine)

/-- A cluster router returns its list to its die root (R357). -/
def State.returnList (s : State) (w : WakeMsg) (l : List Merged) : State :=
  let mine (c : Collect) : Bool := c.die == w.router / 16 && c.asid == w.asid && c.page == w.page && c.pending.contains w.router
  match s.collects.find? mine with
  | none => s
  | some c =>
    let c' := { c with pending := c.pending.erase w.router, got := c.got ++ l }
    let rest := s.collects.erase c
    if c'.pending.isEmpty then { s with collects := rest }.finishCollect c' else { s with collects := c' :: rest }

/-- A die root forwards a wake to its cluster routers, and gathers their lists. -/
def State.rootWake (s : State) (w : WakeMsg) (m : Merge) (l : List Merged) : State :=
  let d := w.router - 128
  let cs := (m.ports.filter (· < 16)).map fun p => d * 16 + p
  let s := cs.foldl (fun t c => t.sendWake c w.asid w.page w.ref) s
  let s := if m.ports.contains basePort then s.sendWake (136 + d / 4) w.asid w.page w.ref else s
  let c : Collect := { die := d, asid := w.asid, page := w.page, ref := w.ref, pending := cs, got := l }
  if cs.isEmpty then s.finishCollect c else { s with collects := s.collects ++ [c] }

/-- A base-die router forwards a wake to every port of its entry. -/
def State.baseWake (s : State) (w : WakeMsg) (m : Merge) : State :=
  let b := w.router - 136
  m.ports.foldl (fun t p => t.sendWake (if p == peerPort then 136 + (1 - b) else 128 + b * 4 + p) w.asid w.page w.ref) s

/-- `WAKE`: a wake reaches a router, which forwards it to the ports of its entry and frees the entry (R357). -/
def execWake (n : Nat) (s : State) : Out :=
  s.act do
    let w ← s.wakes.get? n
    let s := { s with wakes := s.wakes.del n }
    match s.merge w.router w.asid w.page with
    | none => some s
    | some m =>
      let (s, l) := { s with merges := s.merges.erase m }.takeMerged w.router w.asid w.page
      some (if w.router < 128 then s.returnList w l
            else if w.router < 136 then s.rootWake w m l
            else s.baseWake w m)

end Sys2Proof.Machine
end

