-- ==== Sys2Proof/Machine/Ctl.lean ====
section
/-!
DEFINITION. The ctl registers (R45–R52, R140–R142 and the chapters that define each): which there are, what a read
gives, and what a write does: TLB invalidation (R351), page resolution (R358), the purge of a tensor (R289), the tile
pool share (R288), migration descriptors (R304), the fault queue (R360), resumption (R340), cluster copies for a debugger
(R415) and every other register.
-/

namespace Sys2Proof.Machine

/-! ### Which registers there are (R45, R285, R314, R334, R351, R372, R393) -/

/-- Access at a privilege level. -/
inductive Level where | no | ro | rw
deriving DecidableEq, Repr

/-- Access of a task and of the supervisor to a listed index; `none` where no table lists it. -/
def ctlLevel (c : Nat) : Option (Level × Level) :=
  if c == 0x001 then some (.rw, .rw)
  else if c ≤ 0x00B then some (.ro, .ro)
  else if c == 0x010 || c == 0x011 || (0x040 ≤ c && c ≤ 0x044) then some (.no, .rw)
  else if c == 0x110 then some (.ro, .rw)
  else if c == 0x200 then some (.no, .ro)
  else if c == 0x302 then some (.ro, .ro)
  else if c == 0x323 then some (.no, .ro)
  else if (0x300 ≤ c && c ≤ 0x305) || (0x310 ≤ c && c ≤ 0x315) || (0x320 ≤ c && c ≤ 0x324) ||
      (0x330 ≤ c && c ≤ 0x333) then some (.no, .rw)
  else if 0x340 ≤ c && c ≤ 0x345 then some (.ro, .ro)
  else if 0x350 ≤ c && c ≤ 0x353 then some (.ro, .rw)
  else if c == 0x360 || c == 0x361 || (0x370 ≤ c && c ≤ 0x375) || (0x380 ≤ c && c ≤ 0x383) then some (.no, .rw)
  else none

/-- Registers with a field that is written 1 to clear (R141). -/
def ctlW1c (c : Nat) : Bool := [0x010, 0x011, 0x110, 0x301, 0x305, 0x360, 0x361].contains c

/-- The access of the issuing slot's level to an index. -/
def State.ctlAccess (s : State) (c : Nat) : Level :=
  match ctlLevel c with
  | some (t, v) => if s.me.priv = 0 then t else v
  | none => .no

/-- Steps 1 and 2 of R45: an index of no table, and one above the slot's level; the controller's range is above every
level of a compute die. -/
def State.ctlChecks (s : State) (c : Nat) (w : Word) (k : Out) : Out :=
  if ctlLevel c == none && c < 0xF00 then s.trap 0x02 w false
  else if s.ctlAccess c == .no then s.trap 0x03 w false
  else k

/-! ### Reads -/

/-- The slot that CLUSTER, CORE and SLOT of a register name on a die (R338, R412). -/
def slotField (d : Nat) (w : Word) : Nat := d * 2048 + fld w.toNat 2 11

/-- FLAGS of every slot of a cluster (R23). -/
def State.cflags (s : State) (cl : Nat) : BitVec 5 :=
  (List.range 128).foldl (fun f k => f ||| (s.slot (cl * 128 + k)).flags) 0

/-- `ctl.crewstat` of a slot's crew (R51); 0 outside a crew. -/
def State.crewstat (s : State) (p : Nat) : Word :=
  let c := s.crew (s.crewKey p)
  if (s.slot p).crew then
    BitVec.ofNat 64 (s.leaderField c.att * 2 ^ 32 + c.lock.toNat * 2 ^ 24 + c.wdet.toNat * 2 ^ 16 + c.att.toNat * 2 ^ 8 + c.live.toNat)
  else 0

/-- A slot of a die waits in a write of `ctl.tlbinv` (R351). -/
def State.tlbBusy (s : State) (d : Nat) : Bool :=
  s.slots.any fun e => dieOf e.1 == d && e.2.wait == .invalidate

/-- Slot registers. -/
def State.ctlSlot (s : State) (c : Nat) : Word :=
  let x := s.me
  let p := s.cur
  match c with
  | 0x000 => s.stat p
  | 0x001 => x.fpcsr
  | 0x002 => x.key
  | 0x003 => x.path
  | 0x004 => x.asid.zeroExtend 64
  | 0x005 => (x.engine .m).sq.zeroExtend 64
  | 0x006 => (x.engine .c).sq.zeroExtend 64
  | 0x007 => (x.engine .g).sq.zeroExtend 64
  | 0x008 => BitVec.ofNat 64 ((s.core (coreOf p)).chan.toList.foldr (fun ch acc => acc * 2 ^ 16 + ch.word) 0)
  | 0x009 => BitVec.ofNat 64 x.guardsWord
  | 0x00A => BitVec.ofNat 64 (s.cycle (dieOf p))
  | 0x00B => x.kdesc.zeroExtend 64
  | 0x010 => x.dirtyS
  | 0x011 => x.dirtyV.zeroExtend 64
  | 0x040 => x.epc
  | 0x041 => x.cause.zeroExtend 64
  | 0x042 => x.tval
  | 0x043 => x.estat.zeroExtend 64
  | 0x044 => x.escratch
  | 0x110 => s.crewstat p
  | 0x200 => (s.cflags (clusterOf p)).zeroExtend 64
  | _ => 0

/-- The stack of a memory die that an address lies in: each HBM4E stack has 2^36 addresses, and the LPDDR-6 of a die is one; CXL
memory lies in none (R374, R395). -/
def rowStack (a : Nat) : Option Nat := if a < 2 ^ 39 then some (a / 2 ^ 36 % 2) else if a < 2 ^ 41 then some 0 else none
/-- Spare DRAM rows left in a stack of a memory die. -/
def State.stackRows (s : State) (d k : Nat) : Nat := Config.spareRows d k % 2 ^ 15 - (s.die d).rowsUsed.getD k 0
/-- Spare DRAM rows left on a memory die's memory, summed (R396); a compute or base die has none. -/
def State.spareRows (s : State) (d : Nat) : Nat :=
  if d < 10 then 0 else s.stackRows d 0 + if d < 14 then s.stackRows d 1 else 0

/-- `ctl.ras` of a die (R396). -/
def State.rasWord (s : State) (d : Nat) : Word :=
  let x := s.die d
  BitVec.ofNat 64 (x.corr.toNat * 2 ^ 48 + x.trans.toNat * 2 ^ 32 + x.last.toNat * 2 ^ 16 + s.spareRows d)

/-- Registers of a die and of the package. -/
def State.ctlDie (s : State) (d c : Nat) : Word :=
  let x := s.die d
  match c with
  | 0x300 => x.wdog.zeroExtend 64
  | 0x301 => x.undeliv.zeroExtend 64
  | 0x302 => x.incarn.zeroExtend 64
  | 0x303 => x.tvec
  | 0x304 => x.asctx
  | 0x305 => x.stale.zeroExtend 64
  | 0x310 => x.vdir
  | 0x311 => x.vstore
  | 0x312 => x.memcfg
  | 0x313 => x.vpurge
  | 0x314 => x.migq
  | 0x315 => BitVec.ofNat 64 (x.migHead.toNat * 2 ^ 16 + x.migTail.toNat)
  | 0x320 => x.panovf
  | 0x321 => x.cbpool
  | 0x322 => x.preempt
  | 0x323 => x.pres
  | 0x324 => x.resume
  | 0x330 => if s.tlbBusy d then x.tlbinv ||| BitVec.twoPow 64 63 else x.tlbinv
  | 0x331 => x.fq
  | 0x332 => BitVec.ofNat 64 (x.fqTail.toNat * 2 ^ 16 + x.fqHead.toNat)
  | 0x333 => x.fres
  | 0x340 => s.up.zeroExtend 64
  | 0x341 => BitVec.ofNat 64 (s.pkgSet.toNat * 2 ^ 63 + s.pkg % 1024)
  | 0x342 => s.feat.extractLsb' 0 64
  | 0x343 => s.feat.extractLsb' 64 64
  | 0x344 => s.feat.extractLsb' 128 64
  | 0x345 => s.feat.extractLsb' 192 64
  | 0x350 => s.repl[0]
  | 0x351 => s.repl[1]
  | 0x352 => s.repl[2]
  | 0x353 => s.repl[3]
  | 0x360 => s.rasWord d
  | 0x361 => BitVec.ofNat 64 (s.alarms.toNat * 4 + s.pol.toNat)
  | 0x370 => if (s.slot (slotField d x.dbgctl)).halted then x.dbgctl ||| BitVec.twoPow 64 13 else x.dbgctl
  | 0x371 => x.dbgbp[0]
  | 0x372 => x.dbgbp[1]
  | 0x373 => x.dbgbp[2]
  | 0x374 => x.dbgbp[3]
  | 0x375 => x.dbgcopy
  | 0x380 => x.pmc[0]
  | 0x381 => x.pmc[1]
  | 0x382 => x.pmc[2]
  | 0x383 => x.pmc[3]
  | _ => 0

/-- What the issuing slot reads from a register (R140). -/
def State.ctlRead (s : State) (c : Nat) : Word := if c < 0x300 then s.ctlSlot c else s.ctlDie (dieOf s.cur) c

/-- `ctl.rd` (R140). -/
def execCtlRd (d : SReg) (c : BitVec 12) (s : State) : Out :=
  let q := form0 [.s d]
  s.ctlChecks c.toNat (wordOf (.ctlRd d c)) <| s.gate q <| .next ((s.put d (s.ctlRead c.toNat)).retire q)

/-! ### Writes -/

/-- The instruction of a write. -/
def ctlInstr (op : CtlOp) (a : SSrc) (c : BitVec 12) : Instr :=
  match op with | .wr => .ctlWr a c | .set => .ctlSet a c | .clr => .ctlClr a c

/-- The value that a write of a register gives to its field rules (R140). -/
def State.ctlValue (s : State) (op : CtlOp) (a : SSrc) (c : BitVec 12) : Word :=
  let v := s.sval (formA [] a) 0
  let old := s.ctlRead c.toNat
  match op with | .wr => v | .set => old ||| v | .clr => old &&& ~~~v

/-- A write of a register: the checks of R45 and R141, then `k` with the new value, in a state in which the source has
been read; where the register is read-only at the slot's level, nothing (R45). -/
def State.ctlWrite (s : State) (op : CtlOp) (a : SSrc) (c : BitVec 12) (k : Word → State → Out) : Out :=
  let q := formA [] a
  let w := wordOf (ctlInstr op a c)
  s.ctlChecks c.toNat w <| s.gate q <|
    if op != .wr && ctlW1c c.toNat then s.trap 0x02 w false
    else if s.ctlAccess c.toNat == .ro then .next ((s.pops q).retire q)
    else k (s.ctlValue op a c) s

/-- A write that is done. -/
def State.ctlDone (s : State) (a : SSrc) : Out := .next ((s.pops (formA [] a)).retire (formA [] a))
/-- A write of a value that the register's map answers with a trap (step 4 of R45). -/
def State.ctlTrap (s : State) (op : CtlOp) (a : SSrc) (c : BitVec 12) : Out := s.trap 0x02 (wordOf (ctlInstr op a c)) false
/-- A write of a value that is kept under a mask in a register of the die. -/
def keep (v : Word) (mask : Nat) : Word := v &&& BitVec.ofNat 64 mask
/-- A field of a word. -/
def wf (v : Word) (lo n : Nat) : Nat := fld v.toNat lo n
/-- The bits `hi` to `lo` of 64. -/
def bitsOf (hi lo : Nat) : Nat := 2 ^ (hi + 1) - 2 ^ lo

/-- An atomic may still merge flags of its sum (R195). -/
def Access.raises (a : Access) : Bool :=
  match a.kind with | .atomic (.fadd _) _ => a.parts.any fun y => (match y.st with | .done _ => false | .bad _ => false | _ => true) | _ => false

/-- `FPCSR_WRITE`: it waits until every earlier instruction of the slot has merged its flags (R20, R21, R48). -/
def execFpcsrWrite (op : CtlOp) (a : SSrc) (s : State) : Out :=
  s.ctlWrite op a 0x001 fun v t =>
    if t.me.accs.any Access.raises then .next t
    else match t.me.setFpcsr v with
    | none => t.ctlTrap op a 0x001
    | some x => (t.modMe fun _ => x).ctlDone a

/-- Every earlier write of the issuing slot is performed with respect to every observer of the package (R351, R358). -/
def State.storesDone (s : State) : Bool :=
  (s.me.accs.all fun a => a.isLoad || a.sp || a.complete) && s.me.borrowed.isEmpty

/-! ### `ctl.tlbinv` (R351) -/

/-- What an invalidation names: one page of an address space, all of it, or every one other than 0. -/
structure Range where
  scope : Nat
  asid : Nat
  page : Nat
deriving DecidableEq, Repr

/-- The range that a value of `ctl.tlbinv` names. -/
def rangeOf (v : Word) : Range := { scope := wf v 60 2, asid := wf v 0 12, page := wf v 16 40 }
/-- A page of an address space lies in a range. -/
def Range.has (r : Range) (asid page : Nat) : Bool :=
  if r.scope == 2 then asid != 0 else asid == r.asid && (r.scope == 1 || page == r.page)
/-- A TLB entry covers a page of a range. -/
def Range.covers (r : Range) (e : TlbEntry) : Bool :=
  r.has e.asid (if r.scope == 0 then (if r.page / 2 ^ e.log2 * 2 ^ e.log2 == e.page then r.page else e.page + 2 ^ 40) else e.page)
/-- An on-chip line lies in a range. -/
def Range.line (r : Range) (key : Nat) : Bool := r.has (key / 2 ^ 50) (key % 2 ^ 50 * 64 / 2 ^ 16)

/-- A line of the range has a write or an invalidation under way: its write-back waits. -/
def State.flushBusy (s : State) (r : Range) : Bool :=
  s.lines.any fun e => r.line e.1 && (e.2.upd != none || !e.2.stale.isEmpty)

/-- A line written back and dropped; one that holds an empty word stays in its home slice (R185). -/
def State.flushLine (s : State) (key : Nat) (l : Line) : State :=
  let t := s.writeBack l
  if l.empties.isEmpty then { t with lines := t.lines.del key } else { t with lines := t.lines.set key { l with dirty := false } }

/-- Lines of a range written back and invalidated on every die, code among them. -/
def State.flush (s : State) (r : Range) : State :=
  let t := (s.lines.filter fun e => r.line e.1).foldl (fun t e => t.flushLine e.1 e.2) s
  { t with clusters := t.clusters.map fun e => (e.1, { e.2 with code := e.2.code.filter fun l => !r.line l.1 }),
           cores := t.cores.map fun e => (e.1, { e.2 with code := e.2.code.filter fun l => !r.line l.1 }) }

/-- A walk is of a page of a range, or has an answer that covers one. -/
def Range.walk (r : Range) (w : Walk) : Bool :=
  r.has w.asid w.page || match w.answer with
    | some (.leaf pg l f a) => r.covers { mdie := w.mdie, asid := w.asid, page := pg, log2 := l, frame := f, attr := a }
    | _ => false

/-- Walks of a range begin again, since every later translation reads the tables as they then stand (R351). -/
def State.dropWalks (s : State) (r : Range) : State :=
  let ws := s.walks.filter fun e => r.walk e.2
  ws.foldl (fun (t : State) e =>
    { t with walks := t.walks.del e.1,
             mail := t.mail.map fun (m : Nat × List Nat) => (m.1, m.2.filter (· != e.1)) }.answerWalk e.1 none fun _ => .todo) s

/-- The entries of a range leave every memory-side TLB; with FL, its lines leave every die. -/
def State.invalidate (s : State) (r : Range) (fl : Bool) : State :=
  let s := { s.dropWalks r with tlb := s.tlb.filter fun e => !r.covers e }
  if fl then s.flush r else s

/-- A write of `ctl.tlbinv` whose SCOPE is `scope`; another SCOPE is none of this step's (R351). -/
def tlbinv (scope : Nat) (op : CtlOp) (a : SSrc) (s : State) : Out :=
  s.ctlWrite op a 0x330 fun v t =>
    let r := rangeOf v
    if r.scope == 3 || (r.scope < 2 && r.asid == 0) then t.ctlTrap op a 0x330
    else if r.scope != scope then .next t
    else if !t.storesDone || (v.getLsbD 62 && t.flushBusy r) then .next (t.modMe fun x => { x with wait := .invalidate })
    else
      let u := (t.invalidate r (v.getLsbD 62)).modDie (dieOf t.cur) fun d => { d with tlbinv := keep v (bitsOf 62 60 + bitsOf 55 16 + bitsOf 11 0) }
      (u.modMe fun x => { x with wait := .none }).ctlDone a

/-- `TLBINV_PAGE` (R351). -/
def execTlbinvPage (op : CtlOp) (a : SSrc) (s : State) : Out := tlbinv 0 op a s
/-- `TLBINV_ASID` (R351). -/
def execTlbinvAsid (op : CtlOp) (a : SSrc) (s : State) : Out := tlbinv 1 op a s
/-- `TLBINV_ALL` (R351). -/
def execTlbinvAll (op : CtlOp) (a : SSrc) (s : State) : Out := tlbinv 2 op a s

/-! ### `ctl.fres` (R358) -/

/-- A write of `ctl.fres` whose REF is `ref` (R358). -/
def fres (ref : Bool) (op : CtlOp) (a : SSrc) (s : State) : Out :=
  s.ctlWrite op a 0x333 fun v t =>
    if wf v 0 12 == 0 then t.ctlTrap op a 0x333
    else if v.getLsbD 61 != ref then .next t
    else if !t.storesDone then t.waits
    else
      let d := dieOf t.cur
      ((t.modDie d fun x => { x with fres := keep v (2 ^ 61 + bitsOf 55 16 + bitsOf 11 0) }).startWake d (wf v 0 12) (wf v 16 40) ref).ctlDone a

/-- `FRES_RESIDENT` (R358). -/
def execFresResident (op : CtlOp) (a : SSrc) (s : State) : Out := fres false op a s
/-- `FRES_REFUSED` (R358). -/
def execFresRefused (op : CtlOp) (a : SSrc) (s : State) : Out := fres true op a s

/-! ### Version homes and migration (R288, R289, R304) -/

/-- `VPURGE_START`: a purge begins; a write while one runs waits (R289). -/
def execVpurgeStart (op : CtlOp) (a : SSrc) (s : State) : Out :=
  s.ctlWrite op a 0x313 fun v t =>
    let d := dieOf t.cur
    if (t.die d).vpurge.getLsbD 63 then t.waits
    else (t.modDie d fun x =>
      { x with vpurge := BitVec.ofNat 64 (2 ^ 63 + wf x.vpurge 24 20 * 2 ^ 24 + wf v 0 12) }).ctlDone a

/-- `VPURGE_DONE`: every entry of the tensor without a used slot or a waiter is freed, the others are counted, and names
that the die took over from a lost one are lost no longer (R289, R399). A store that waits for a slot counts as a waiter, so
its entry stays (entry 61). -/
def execVpurgeDone (die : Nat) (s : State) : Out :=
  s.act
    (let x := s.die die
     let tensor := wf x.vpurge 0 12
     if !x.vpurge.getLsbD 63 then none
     else
       let es := s.names.filter fun e => e.2.die == die && e.2.tensor == tensor
       let free := es.filter fun e => e.2.slots.isEmpty && e.2.waiters.isEmpty && e.2.stores.isEmpty
       let t := free.foldl (fun t e => t.delName e.1 e.2) s
       let skip := Nat.min 0xFFFFF (es.length - free.length)
       let gone := ((List.range 8).filter fun k => !s.up.getLsbD k).map fun k => (k, tensor)
       some (t.modDie die fun y =>
         { y with vpurge := BitVec.ofNat 64 (skip * 2 ^ 24 + tensor), purged := gone ++ y.purged }))

/-- Versions of a die in pool frames at or beyond a number of frames (R278, R288). -/
def State.displaced (s : State) (die size : Nat) : List (Nat × Nat × Frame) :=
  s.names.flatMap fun e =>
    if e.2.die == die then
      (e.2.slots.filter fun v => v.2.loc == 0 && size ≤ v.2.frame).map fun v => (e.1, v.1, e.2.frameOf v.2)
    else []

/-- Displaced versions moved below the tile pool; `none` where one has a delivery under way or no frame is free. -/
def State.moveDisplaced (s : State) (die : Nat) (l : List (Nat × Nat × Frame)) : Option State :=
  l.foldl (fun o x => o.bind fun t =>
    if t.tiles.any fun r => r.2.frame == some x.2.2 then none
    else (t.lowerFrame die (Config.pick t.tick)).map fun f => t.moveVersion x.1 x.2.1 f) (some s)

/-- The slices of a die hold no more lines than a pool of `n` eighths leaves room for (R271, R288). -/
def State.l2Fits (s : State) (d n : Nat) : Bool :=
  let x := { s.die d with memcfg := BitVec.ofNat 64 n }
  (List.range 16).all fun k => decide ((s.lines.filter fun e => sliceOf e.1 == k && e.2.inL2 d).length ≤ x.sliceLines k)

/-- `MEMCFG_WRITE`: displaced versions move, and lines beyond what is left of the slices leave, before the write completes
(R271, R288). -/
def execMemcfgWrite (op : CtlOp) (a : SSrc) (s : State) : Out :=
  s.ctlWrite op a 0x312 fun v t =>
    let d := dieOf t.cur
    if 5 ≤ wf v 0 3 then t.ctlTrap op a 0x312
    else if !t.l2Fits d (wf v 0 3) then t.waits
    else
      match t.moveDisplaced d (t.displaced d (wf v 0 3 * 128)) with
      | none => t.waits
      | some u => (u.modDie d fun x => { x with memcfg := BitVec.ofNat 64 (wf x.memcfg 8 1 * 256 + wf v 0 3) }).ctlDone a

/-- `MIGTL_TAIL_WRITE` (R304). -/
def execMigtlTailWrite (op : CtlOp) (a : SSrc) (s : State) : Out :=
  s.ctlWrite op a 0x315 fun v t =>
    let d := dieOf t.cur
    if 2 ^ wf (t.die d).migq 0 4 ≤ wf v 0 16 then t.ctlTrap op a 0x315
    else (t.modDie d fun x => { x with migTail := v.extractLsb' 0 16 }).ctlDone a

/-! ### The fault queue, security, resumption (R360, R411, R340) -/

/-- `FQTL_HEAD_WRITE`: entries are released; a HEAD that would pass TAIL traps (R360). -/
def execFqtlHeadWrite (op : CtlOp) (a : SSrc) (s : State) : Out :=
  s.ctlWrite op a 0x332 fun v t =>
    let d := dieOf t.cur
    let x := t.die d
    let h : BitVec 16 := v.extractLsb' 0 16
    if (x.fqTail - x.fqHead).toNat < (h - x.fqHead).toNat then t.ctlTrap op a 0x332
    else ((t.modDie d fun x => { x with fqHead := h }).flushReports d).ctlDone a

/-- `SECPOL_WRITE`: POL only rises, SRC bits are cleared (R411). -/
def execSecpolWrite (op : CtlOp) (a : SSrc) (s : State) : Out :=
  s.ctlWrite op a 0x361 fun v t =>
    let p : BitVec 2 := v.extractLsb' 0 2
    State.ctlDone { t with pol := if p != 3 && t.pol.ult p then p else t.pol, alarms := t.alarms &&& ~~~(v.extractLsb' 2 8) } a

/-- A block of a die's pool. -/
def Die.inPool (x : Die) (cb : Nat) : Bool :=
  x.poolBase != 0 && decide (x.poolBase ≤ cb ∧ cb < x.poolBase + x.blocks * x.blockSize) && (cb - x.poolBase) % x.blockSize == 0

/-- `RESUME_REQUEST`: a pre-empted task is re-queued (R340, R438). -/
def execResumeRequest (op : CtlOp) (a : SSrc) (s : State) : Out :=
  s.ctlWrite op a 0x324 fun v t =>
    let d := dieOf t.cur
    let w := keep v (bitsOf 55 6)
    if !(t.die d).inPool w.toNat || t.physNum (w.toNat + 0x20) 1 % 16 != 2 then t.ctlTrap op a 0x324
    else ((t.modDie d fun x => { x with resume := w }).requeue w.toNat).ctlDone a

/-! ### Copies for a debugger (R415) -/

/-- Bytes written where their addresses name memory. -/
def State.putMem (s : State) (a : Nat) (l : List Byte) : State :=
  l.zipIdx.foldl (fun t b => if t.isMem (a + b.2) then t.putPhysByte (a + b.2) b.1 else t) s

/-- The 256 KiB of a bank (R415). -/
def Bank.bytes (b : Bank) : List Byte := (List.range 65536).flatMap fun k => toBytes 4 (b.cells.getD k 0).toNat
/-- The sixteen bytes of a rendezvous point. -/
def Point.bytes (p : Point) : List Byte :=
  toBytes 16 (p.init.toNat * 2 ^ 64 + p.gen.toNat * 2 ^ 32 + p.arrived % 2 ^ 16 * 2 ^ 16 + p.e.toNat)
/-- The eight bytes of a ring. -/
def Ring.bytes (r : Ring) : List Byte :=
  toBytes 8 (r.claim * 2 ^ 37 + r.avail * 2 ^ 28 + r.head * 2 ^ 20 + r.len * 2 ^ 11 + r.base)
/-- A mailbox entry (R353). -/
def Walk.word (n : Nat) (w : Walk) : Nat :=
  (w.inc.toNat * 2 ^ 48 + w.mdie * 2 ^ 44 + (Config.walkId n).toNat) * 2 ^ 64 + w.page * 2 ^ 16 + w.asid

/-- A write of `ctl.dbgcopy` whose SRC is `src` (R415). -/
def dbgcopy (src : Nat) (ready : State → Nat → Nat → Bool) (data : State → Nat → Nat → List Byte) (op : CtlOp)
    (a : SSrc) (s : State) : Out :=
  s.ctlWrite op a 0x375 fun v t =>
    let d := dieOf t.cur
    let k := wf v 60 3
    let i := wf v 0 12
    if 5 ≤ k || (k == 0 && 4 ≤ i) || (k == 1 && 2048 ≤ i) || (k == 4 && 8 ≤ i) then t.ctlTrap op a 0x375
    else if k != src then .next t
    else if !ready t (d * 16 + wf v 56 4) i then t.waits
    else
      ((t.putMem (wf v 12 44 * 4096) (data t (d * 16 + wf v 56 4) i)).modDie d fun x =>
        { x with dbgcopy := keep v (bitsOf 62 0) }).ctlDone a

/-- A bank is between two of its commands (R415). -/
def State.bankQuiet (s : State) (cl i : Nat) : Bool :=
  match ((s.cluster cl).bank i).owner with
  | none => true
  | some h => match ((s.holder h).engine .m).queue.head? with | some c => !c.started | none => true

/-- `DBGCOPY_BANK` (R415). -/
def execDbgcopyBank (op : CtlOp) (a : SSrc) (s : State) : Out :=
  dbgcopy 0 State.bankQuiet (fun t cl i => ((t.cluster cl).bank i).bytes) op a s
/-- `DBGCOPY_TILE_SLOT` (R415). -/
def execDbgcopyTileSlot (op : CtlOp) (a : SSrc) (s : State) : Out :=
  dbgcopy 1 (fun _ _ _ => true) (fun t cl i => (t.cluster cl).tileBytes i) op a s
/-- `DBGCOPY_RENDEZVOUS` (R415). -/
def execDbgcopyRendezvous (op : CtlOp) (a : SSrc) (s : State) : Out :=
  dbgcopy 2 (fun _ _ _ => true) (fun t cl _ => (List.range 24).flatMap fun j => ((t.cluster cl).point j).bytes) op a s
/-- `DBGCOPY_RINGS` (R415). -/
def execDbgcopyRings (op : CtlOp) (a : SSrc) (s : State) : Out :=
  dbgcopy 3 (fun _ _ _ => true) (fun t cl _ => (List.range 16).flatMap fun j => ((t.cluster cl).ring j).bytes) op a s
/-- `DBGCOPY_MAILBOX` (R415). -/
def execDbgcopyMailbox (op : CtlOp) (a : SSrc) (s : State) : Out :=
  dbgcopy 4 (fun _ _ _ => true) (fun t cl i =>
    let l := (t.mail.getD (cl * 8 + i) []).map fun n => ((t.walks.get? n).map (Walk.word n)).getD 0
    (l.take 8 ++ List.replicate (8 - l.length) 0).flatMap (toBytes 16)) op a s

/-! ### Every other register -/

/-- A register of the issuing slot takes a value. -/
def Slot.ctlSet (x : Slot) (c : Nat) (v : Word) : Slot :=
  match c with
  | 0x010 => { x with dirtyS := x.dirtyS &&& ~~~v }
  | 0x011 => { x with dirtyV := x.dirtyV &&& ~~~(v.extractLsb' 0 32) }
  | 0x040 => { x with epc := v }
  | 0x041 => { x with cause := v.extractLsb' 0 8 }
  | 0x042 => { x with tval := v }
  | 0x043 => { x with estat := v.extractLsb' 0 5 }
  | 0x044 => { x with escratch := v }
  | _ => x

/-- A counter of 16 bits after bits written 1 (R396). -/
def w1c16 (x : BitVec 16) (v : Word) (lo : Nat) : BitVec 16 := x &&& ~~~(v.extractLsb' lo 16)

/-- A register of a die takes a value that its map accepts. -/
def Die.ctlSet (x : Die) (c : Nat) (v : Word) : Die :=
  match c with
  | 0x300 => { x with wdog := v.extractLsb' 0 32 }
  | 0x301 => { x with undeliv := x.undeliv &&& ~~~(v.extractLsb' 0 32) }
  | 0x303 => { x with tvec := v &&& ~~~(3 : Word) }
  | 0x304 => { x with asctx := v }
  | 0x305 => { x with stale := x.stale &&& ~~~(v.extractLsb' 0 32) }
  | 0x310 => { x with vdir := keep v (bitsOf 55 16 + bitsOf 4 0) }
  | 0x311 => { x with vstore := keep v (bitsOf 55 0) }
  | 0x314 => { x with migq := keep v (bitsOf 55 12 + bitsOf 3 0) }
  | 0x320 => { x with panovf := keep v (bitsOf 55 12 + bitsOf 4 0) }
  | 0x321 => { x with cbpool := keep v (bitsOf 63 57 + bitsOf 55 16 + bitsOf 12 8 + bitsOf 4 0) }
  | 0x322 => { x with preempt := keep v (bitsOf 26 25 + bitsOf 12 2), pres := BitVec.twoPow 64 63 }
  | 0x331 => { x with fq := keep v (bitsOf 55 12 + bitsOf 3 0) }
  | 0x360 => { x with corr := w1c16 x.corr v 48, trans := w1c16 x.trans v 32, last := w1c16 x.last v 16 }
  | 0x371 => { x with dbgbp := x.dbgbp.set 0 (keep v (bitsOf 63 62 + bitsOf 55 2)) }
  | 0x372 => { x with dbgbp := x.dbgbp.set 1 (keep v (bitsOf 63 62 + bitsOf 55 2)) }
  | 0x373 => { x with dbgbp := x.dbgbp.set 2 (keep v (bitsOf 63 62 + bitsOf 55 2)) }
  | 0x374 => { x with dbgbp := x.dbgbp.set 3 (keep v (bitsOf 63 62 + bitsOf 55 2)) }
  | 0x380 => { x with pmc := x.pmc.set 0 v }
  | 0x381 => { x with pmc := x.pmc.set 1 v }
  | 0x382 => { x with pmc := x.pmc.set 2 v }
  | 0x383 => { x with pmc := x.pmc.set 3 v }
  | _ => x

/-- A value that a register's map answers with a trap (R286, R314, R335, R403, R412, R416). -/
def ctlBad (c : Nat) (v : Word) : Bool :=
  match c with
  | 0x310 => 20 < wf v 0 5
  | 0x320 => 20 < wf v 0 5
  | 0x321 => decide (64 < wf v 57 7) || wf v 8 5 < 16 || decide (24 < wf v 8 5) || decide (20 < wf v 0 5)
  | 0x350 | 0x351 | 0x352 | 0x353 => v.getLsbD 63 && wf v 30 2 < 2
  | 0x370 => 4 < wf v 60 3
  | 0x380 | 0x381 | 0x382 | 0x383 => 0x0A < wf v 56 8
  | _ => false

/-- A register ignores writes now (R285, R314, R335, R360). -/
def State.ctlIgnores (s : State) (d c : Nat) : Bool :=
  match c with
  | 0x310 | 0x311 => s.names.any fun e => e.2.die == d
  | 0x320 => (s.die d).pan.any fun r => r.spill != none
  | 0x321 => s.poolUsed d
  | 0x331 => (s.die d).fqTail != (s.die d).fqHead
  | _ => false

/-- A write waits while an operation that the register started runs (R338, R412). -/
def State.ctlWaits (s : State) (d c : Nat) : Bool :=
  match c with
  | 0x322 => (s.die d).pres.getLsbD 63
  | 0x370 => (s.die d).dbgctl.getLsbD 63
  | _ => false

/-- A write of `ctl.dbgctl` (R412): an operation on a rake slot or on the issuing slot ends at once with STATUS 2. -/
def State.dbgctlSet (s : State) (v : Word) : State :=
  let d := dieOf s.cur
  let p := slotField d v
  let w := keep v (bitsOf 62 59 + bitsOf 12 2)
  let st : Nat := if wf v 60 3 == 0 then fld (s.die d).dbgctl.toNat 56 3 else if p == s.cur || p % 16 == 15 then 2 else 0
  let busy := wf v 60 3 != 0 && p != s.cur && p % 16 != 15
  s.modDie d fun x => { x with dbgctl := w ||| BitVec.ofNat 64 (st * 2 ^ 56 + busy.toNat * 2 ^ 63) }

/-- WDET bits of the issuing slot's crew are cleared (R51). -/
def State.crewstatSet (s : State) (v : Word) : State :=
  if s.me.crew then s.modCrew (s.crewKey s.cur) fun c => { c with wdet := c.wdet &&& ~~~(v.extractLsb' 16 8) } else s

/-- A replica group takes a value (R403). -/
def State.replSet (s : State) (g : Fin 4) (v : Word) : State :=
  { s with repl := s.repl.set g (keep v (2 ^ 63 + bitsOf 31 0)) }

/-- The write of a value that a register accepts. -/
def State.ctlSet (s : State) (c : Nat) (v : Word) : State :=
  if c < 0x110 then s.modMe fun x => x.ctlSet c v
  else if c == 0x110 then s.crewstatSet v
  else if c == 0x370 then s.dbgctlSet v
  else if 0x350 ≤ c && c ≤ 0x353 then s.replSet (Fin.ofNat 4 c) v
  else s.modDie (dieOf s.cur) fun x => x.ctlSet c v

/-- Registers whose writes are steps of their own. -/
def ctlOwn (c : Nat) : Bool := [0x001, 0x312, 0x313, 0x315, 0x324, 0x330, 0x332, 0x333, 0x361, 0x375].contains c

/-- `CTL_REGISTER_WRITE`: any other register (R45, R46, R50, R51, R285–R287, R304, R314, R335, R338, R360, R393, R396,
R403, R412, R414, R416). -/
def execCtlRegisterWrite (op : CtlOp) (c : BitVec 12) (a : SSrc) (s : State) : Out :=
  if ctlOwn c.toNat then .next s
  else s.ctlWrite op a c fun v t =>
    let d := dieOf t.cur
    if ctlBad c.toNat v then t.ctlTrap op a c
    else if t.ctlIgnores d c.toNat then t.ctlDone a
    else if t.ctlWaits d c.toNat then t.waits
    else (t.ctlSet c.toNat v).ctlDone a

/-- A write of the register with an index: the step that the register and the value name. -/
def ctlStep (op : CtlOp) (a : SSrc) (c : BitVec 12) (s : State) : Out :=
  let v := s.ctlValue op a c
  match c.toNat with
  | 0x001 => execFpcsrWrite op a s
  | 0x312 => execMemcfgWrite op a s
  | 0x313 => execVpurgeStart op a s
  | 0x315 => execMigtlTailWrite op a s
  | 0x324 => execResumeRequest op a s
  | 0x330 => if wf v 60 2 == 1 then execTlbinvAsid op a s else if wf v 60 2 == 2 then execTlbinvAll op a s else execTlbinvPage op a s
  | 0x332 => execFqtlHeadWrite op a s
  | 0x333 => if v.getLsbD 61 then execFresRefused op a s else execFresResident op a s
  | 0x361 => execSecpolWrite op a s
  | 0x375 =>
    match wf v 60 3 with
    | 1 => execDbgcopyTileSlot op a s
    | 2 => execDbgcopyRendezvous op a s
    | 3 => execDbgcopyRings op a s
    | 4 => execDbgcopyMailbox op a s
    | _ => execDbgcopyBank op a s
  | _ => execCtlRegisterWrite op c a s

/-- `ctl.wr` (R140). -/
def execCtlWr (a : SSrc) (c : BitVec 12) (s : State) : Out := ctlStep .wr a c s
/-- `ctl.set` (R140, R141). -/
def execCtlSet (a : SSrc) (c : BitVec 12) (s : State) : Out := ctlStep .set a c s
/-- `ctl.clr` (R140, R141). -/
def execCtlClr (a : SSrc) (c : BitVec 12) (s : State) : Out := ctlStep .clr a c s

end Sys2Proof.Machine
end

