-- ==== Sys2Proof/Machine/Debug.lean ====
section
/-!
DEFINITION. Pre-emption (R338, R339) and the debugger's operations (R412, R413).
-/

namespace Sys2Proof.Machine

/-! ### Pre-emption -/

/-- A request of `ctl.preempt` ends with a STATUS and a control block (R338). -/
def State.endPreempt (s : State) (d status cb : Nat) : State :=
  s.modDie d fun x => { x with pres := BitVec.ofNat 64 (status * 2 ^ 60 + fld cb 6 50 * 64) }

/-- A slot can be pre-empted now: PRIV 0, not halted, its accesses settled (R339). -/
def State.preemptible (s : State) (p : Nat) : Bool := (s.slot p).priv == 0 && !(s.slot p).halted && s.canLeave p

/-- The slots of a pre-emption: the target, or every member of its crew that stands in its slot (R338). -/
def State.victims (s : State) (p : Nat) (whole : Bool) : List Nat :=
  if whole then
    ((List.range 8).map (crewSlot (s.crewKey p))).filter fun q => (s.slot q).use == .task && (s.crew (s.crewKey p)).live.getLsbD (memberOf q)
  else [p]

/-- Dirty tile slots of a task, in order, up to a number; none where there are more (R339). -/
def Slot.saveTiles (x : Slot) (sp : Bool) (max : Nat) : List Nat :=
  if sp && decide (x.dirtyT.length ≤ max) then (List.range 2048).filter x.dirtyT.contains else []

/-- A saved task of a crew that was pre-empted together (R340). -/
def State.setMates (s : State) (cb : Nat) (mates : List Nat) : State :=
  match s.saved.get? cb with
  | some v => { s with saved := s.saved.set cb { v with mates := mates } }
  | none => s

/-- `PREEMPT_REQUEST`: the request of a die ends at once where its target cannot be pre-empted, waits for an instruction
boundary at PRIV 0, and writes the images and frees the slots (R338, R339). -/
def execPreemptRequest (die : Nat) (s : State) : Out :=
  s.act
    (let x := s.die die
     let v := x.preempt
     let p := slotField die v
     let y := s.slot p
     let sp := v.getLsbD 26
     let whole := v.getLsbD 25
     if !x.pres.getLsbD 63 then none
     else if p % 16 == 15 || p % 2048 == 13 || y.use == .skim then some (s.endPreempt die 2 0)
     else if y.use != .task then some (s.endPreempt die 1 0)
     else if whole && !y.crew then some (s.endPreempt die 4 y.block)
     else
       let vs := s.victims p whole
       if !vs.all s.preemptible then none
       else
         let tooMany := sp && vs.any fun q => decide (x.poolTiles < (s.slot q).dirtyT.length)
         let blocks := vs.map fun q => (s.slot q).block
         let t := vs.foldl (fun (t : State) q => t.leave q 2 none none ((t.slot q).saveTiles sp x.poolTiles)) s
         let cb := blocks.headD 0
         let t := if whole then t.setMates cb blocks.tail else t
         some (t.endPreempt die (if tooMany then 3 else 0) cb))

/-! ### The debugger -/

/-- An operation of `ctl.dbgctl` ends with a STATUS (R412). -/
def State.endDebug (s : State) (d status : Nat) : State :=
  s.modDie d fun x =>
    { x with dbgctl := x.dbgctl &&& BitVec.ofNat 64 (bitsOf 62 59 + bitsOf 13 2) ||| BitVec.ofNat 64 (status * 2 ^ 56) }

/-- An operation of a die that is under way, on the slot that it names: STATUS 1 where that holds no task, STATUS 3 where
it should be halted and is not (R412). -/
def debugOp (op : Nat) (halted : Bool) (die : Nat) (k : Nat → Bool → State → State) (s : State) : Out :=
  s.act
    (let v := (s.die die).dbgctl
     let p := slotField die v
     if !v.getLsbD 63 || wf v 60 3 != op then none
     else if !(s.slot p).live then some (s.endDebug die 1)
     else if halted && !(s.slot p).halted then some (s.endDebug die 3)
     else some ((k p (v.getLsbD 59) s).endDebug die 0))

/-- `DEBUG_HALT` (R413). -/
def execDebugHalt (die : Nat) (s : State) : Out :=
  debugOp 1 false die (fun p eh t => (t.modSlot p fun x => { x with halted := true, stepOne := false, ehold := eh }).rewait p) s

/-- `DEBUG_RESUME` (R413). -/
def execDebugResume (die : Nat) (s : State) : Out :=
  debugOp 2 true die (fun p eh t => (t.modSlot p fun x => { x with halted := false, stepOne := false, ehold := eh }).rewait p) s

/-- `DEBUG_STEP` (R413). -/
def execDebugStep (die : Nat) (s : State) : Out :=
  debugOp 3 true die (fun p eh t => (t.modSlot p fun x => { x with halted := false, stepOne := true, ehold := eh }).rewait p) s

/-- The image of a halted slot, in its control block (R336, R413): STATE 0, nothing withdrawn, its dirty bits cleared. -/
def State.snap (s : State) (p : Nat) : State :=
  let x := s.slot p
  let gen := (s.physNum (x.block + 0x50) 8 + 1) % 2 ^ 64
  let ids := sortIds (x.accs.map (·.id) ++ (x.redo.map (·.id)).toList ++ ((s.withdrawals x.tid).filter fun e => !e.2.transient).map (·.1))
  (s.putFields x.block (s.imageHead p 0 gen 0 ids (s.bankOf p) ++ x.imageRegs ++ s.imageChans p)).modSlot p fun y =>
    { y with dirtyS := 0, dirtyV := 0 }

/-- `DEBUG_SNAP` (R413); a slot without a control block has no image, and counts as one without a task. -/
def execDebugSnap (die : Nat) (s : State) : Out :=
  let v := (s.die die).dbgctl
  if v.getLsbD 63 && wf v 60 3 == 4 && (s.slot (slotField die v)).block == 0 then .next (s.endDebug die 1)
  else debugOp 4 true die (fun p _ t => t.snap p) s

end Sys2Proof.Machine
end

