-- ==== Sys2Proof/Machine/Remote.lean ====
section
/-!
DEFINITION. Messages that arrive from other packages (R297, R378–R382), but for replica digests.
-/

namespace Sys2Proof.Machine

/-! ### Versions -/

/-- The request of another package that a message names. -/
def TileReq.isFrom (r : TileReq) (m : LinkMsg) (tag : Nat) : Bool :=
  match r.kind with | .remote q d t _ _ => q == m.spkg && d == m.sdie && t.toNat == tag | _ => false

/-- A request of another package at its home here: a descriptor that this package cannot use is answered 0x43. -/
def State.remoteArrives (s : State) (m : LinkMsg) (kind : TileKind) : State :=
  match s.desc m.ddie m.asid (tensorOf m.q2) with
  | none => s.answer m 0x06 m.q2 0x43 (List.replicate 32 0)
  | some d =>
    let r : TileReq :=
      { kind := kind, h := m.q2, asid := m.asid, user := false, slot := m.ddie * 2048, tid := 0, st := .sent, since := s.now, reported := false,
        inc := BitVec.ofNat 16 m.sinc, poison := false, home := { homeOf m.q2 d with pkg := none }, frame := none }
    { s with tiles := s.tiles.set s.seq r }.bump

/-- `VREQ`: a request for a version reaches its home (R378); kind 7 is reserved. -/
def execVreq (hdr : List Word) (body : List Byte) (s : State) : Out :=
  s.recv 0x01 hdr body fun m =>
    let k := fld m.q3.toNat 0 3
    if k == 7 then some (s.staleDrop m.ddie)
    else some (s.remoteArrives m (.remote m.spkg m.sdie (BitVec.ofNat 64 m.tag) k (fld m.q3.toNat 8 10)))

/-- `VCANCEL`: a request that another package withdraws leaves its home (R203, R378). -/
def execVcancel (hdr : List Word) (body : List Byte) (s : State) : Out :=
  s.recv 0x02 hdr body fun m =>
    match s.tiles.find? fun e => e.2.isFrom m (fld m.q3.toNat 0 32) with
    | some e => some (s.withdraw e.1 e.2)
    | none => some s

/-- `VNOTE`: the notice that goes before the answers for a version (R282, R378). -/
def execVnote (hdr : List Word) (body : List Byte) (s : State) : Out := s.recv 0x03 hdr body fun _ => some s

/-- `VSTORE`: a version store of another package reaches its home (R378). -/
def execVstore (hdr : List Word) (body : List Byte) (s : State) : Out :=
  s.recv 0x04 hdr body fun m =>
    some (s.remoteArrives m
      (.remoteStore m.spkg m.sdie (BitVec.ofNat 64 m.tag) (fld m.q3.toNat 0 16) (slice m.body 0 4096) (slice m.body 4096 256)))

/-- The request of this package that an answer names, still waiting for it. -/
def State.answered (s : State) (m : LinkMsg) : Option (Nat × TileReq) :=
  s.tiles.find? fun e => e.1 % 2 ^ 32 == m.tag && e.2.home.pkg == some m.spkg && e.2.h == m.q2 && dieOf e.2.slot == m.ddie &&
    (e.2.st == .queued || e.2.st == .away)

/-- `VDATA`: the answer to a load, with the version's data and side block (R378). -/
def execVdata (hdr : List Word) (body : List Byte) (s : State) : Out :=
  s.recv 0x05 hdr body fun m =>
    match s.answered m with
    | none => some s
    | some (id, r) =>
      let d := slice m.body 0 4096
      let b := slice m.body 4096 256
      some (s.answerTile id (r.kind.value d b) d b)

/-- A version store to another package has been answered. -/
def State.storeAnswered (s : State) (id : Nat) (r : TileReq) : State :=
  match r.kind with
  | .store _ _ => { s with tiles := s.tiles.del id }
  | _ => { s with tiles := s.tiles.set id { r with st := .answered 0 [] [] } }

/-- `VANS`: the answer to a request of another kind, or the status with which a request ended (R378). -/
def execVans (hdr : List Word) (body : List Byte) (s : State) : Out :=
  s.recv 0x06 hdr body fun m =>
    let c := fld m.q3.toNat 0 8
    match s.answered m with
    | none => some s
    | some (id, r) =>
      if !([0, 0x43, 0x60, 0x61] : List Nat).contains c then some (s.staleDrop m.ddie)
      else if c != 0 then some (s.failTile id c (if c == 0x61 then 0 else r.h.toNat))
      else if r.isStore then some (s.storeAnswered id r)
      else some (s.answerTile id (BitVec.ofNat 64 (ofBytes (slice m.body 0 8))) [] [])

/-! ### Records -/

/-- The record that an image gives; what no image holds is the model's: a record of a launch of another package belongs
to no launch of this one (entry 18). -/
def recOfImage (b : List Byte) : Rec :=
  let w (k : Nat) : Nat := ofBytes (slice b (8 * k) 8)
  { key := BitVec.ofNat 64 (w 0), path := BitVec.ofNat 64 (w 1), folds := fld (w 2) 48 16, sealed := false, nf := bit (w 2) 41,
    lr := bit (w 2) 40, acnt := fld (w 2) 32 5, aff := fld (w 2) 24 4, prio := fld (w 2) 22 2, cls := fld (w 2) 16 6,
    entry := fld (w 2) 0 16, stamp := 0, token := BitVec.ofNat 64 (w 4), asid := fld (w 5) 0 12, lnch := 0,
    payload := Vector.ofFn fun i => BitVec.ofNat 64 (w (8 + i.val)), spill := none, dev := true, resume := none, det := false,
    dom := none, inst := none }

/-- `REC`: a record from another package arrives as a local one, and is taken once its pan has room (R378); its task sees all code
written before (R71). An image with a reserved field that is not 0 is dropped and counted, as is a die that has no pan. -/
def execRecMsg (hdr : List Word) (body : List Byte) (s : State) : Out :=
  s.recv 0x08 hdr body fun m =>
    let w (k : Nat) : Nat := ofBytes (slice m.body (8 * k) 8)
    if 8 ≤ m.ddie || imageReserved (w 2) (w 5) (w 7) then some (s.staleDrop m.ddie)
    else match s.arrive m.ddie (recOfImage m.body) with
      | .ok t => some (t.launchCode (recOfImage m.body).asid)
      | .refused _ => none

/-! ### Pages and lines (R297) -/

/-- A page of another package's memory, by its number here. -/
def LinkMsg.page (m : LinkMsg) : Nat := (2 ^ 54 + m.spkg * 2 ^ 44 + m.q2.toNat) / 2 ^ 16

/-- `PGREQ`: another package asks for a mode of a page of this package's memory (R297). -/
def execPgreq (hdr : List Word) (body : List Byte) (s : State) : Out :=
  s.recv 0x10 hdr body fun m =>
    some (s.askOwn (m.q2.toNat / 2 ^ 16) { pkg := m.spkg, die := m.sdie, inc := m.sinc, tag := m.tag, write := m.q3 == 1 })

/-- `PGHAND`: a page is to be handed over (steps 2 to 5 of R297). -/
def execPghand (hdr : List Word) (body : List Byte) (s : State) : Out :=
  s.recv 0x11 hdr body fun m =>
    let x := s.farPage (m.page * 2 ^ 16)
    some ({ s with pages := s.pages.set m.page { x with hand := some (m.sdie, m.ddie, m.tag, m.q3 == 1) } }.giveUp m.page)

/-- `PGACK`: a package has given a page of this one's memory up (R297). -/
def execPgack (hdr : List Word) (body : List Byte) (s : State) : Out :=
  s.recv 0x12 hdr body fun m =>
    let page := m.q2.toNat / 2 ^ 16
    match s.pdir.get? page with
    | none => some s
    | some d =>
      if d.acks.contains m.spkg then some ({ s with pdir := s.pdir.set page (d.leaves m.spkg) }.serveAll page) else some s

/-- `PGGRANT`: a mode of a page has been granted (R297). -/
def execPggrant (hdr : List Word) (body : List Byte) (s : State) : Out :=
  s.recv 0x13 hdr body fun m =>
    let x := s.farPage (m.page * 2 ^ 16)
    let mode : PageMode := if m.q3 == 1 then .write else .read
    let asked := if x.asked.covers true then x.asked else mode
    some ({ s with pages := s.pages.set m.page { x with mode := mode, asked := asked } }.giveUp m.page)

/-- `LINERD`: another package reads a line of this package's memory (R378). -/
def execLinerd (hdr : List Word) (body : List Byte) (s : State) : Out :=
  s.recv 0x14 hdr body fun m => some (s.answer m 0x15 m.q2 0 (s.mem.bytes m.q2.toNat 64))

/-- `LINEDATA`: a line of another package's memory arrives, and comes on chip while its page is held and its caches have room; for an
access that bypasses the caches it passes through (R271, R274, R297, R378). One that is not taken is asked for again. -/
def execLinedata (hdr : List Word) (body : List Byte) (s : State) : Out :=
  s.recv 0x15 hdr body fun m =>
    match s.lineAsks.get? m.tag with
    | none => some s
    | some a =>
      if a.addr != 2 ^ 54 + m.spkg * 2 ^ 44 + m.q2.toNat then some s
      else
        let t : State := { s with lineAsks := s.lineAsks.del m.tag }
        let by_ := a.hint == .by
        let room := s.l2Room a.die a.key && s.l3Room (a.key % 2 ^ 50 * 64)
        if s.lines.has a.key || !s.hasMode a.addr false || s.handing a.addr || !(by_ || room) then some t
        else
          let l := { s.fillLine a.addr a.attr with cur := m.body, poison := false, present := [a.die], pass := by_ }
          some { t with lines := t.lines.set a.key (l.retain a.hint) }

/-- A word watch whose word lies in the line at a frame has a notice due (R389). -/
def State.wroteFrame (s : State) (f : Nat) : State :=
  let on (w : Watch) : Bool := w.armed && !w.w1.getLsbD 61 &&
    match s.look s.hostDie (w.w1.toNat % 4096) w.w0.toNat with
    | .ok a _ => a / 64 == f / 64
    | _ => false
  { s with watches := s.watches.map fun e => (e.1, if on e.2 then { e.2 with due := true } else e.2) }

/-- `LINEWB`: another package writes back a line of this package's memory (R378); a later fetch may still find what it replaces
(R71), and watches of its words have a notice due (R389). -/
def execLinewb (hdr : List Word) (body : List Byte) (s : State) : Out :=
  s.recv 0x16 hdr body fun m =>
    let a := m.q2.toNat
    match s.phys a with
    | .dram _ =>
      some ({ s.keepOld a (s.mem.bytes (a / 64 * 64) 64) with mem := s.mem.putBytes a m.body, memPoison := s.memPoison.del (a / 64) }.wroteFrame a)
    | _ => some s

/-! ### Multi-device barriers (R382) -/

/-- `BINIT`: a message to a switch, whose behaviour lies outside the package (R382). -/
def execBinit (hdr : List Word) (body : List Byte) (s : State) : Out := s.recv 0x20 hdr body fun _ => some s
/-- `BARR`: a message to a switch (R382). -/
def execBarr (hdr : List Word) (body : List Byte) (s : State) : Out := s.recv 0x21 hdr body fun _ => some s

/-- `BREL`: a switch sets the generation of the package's shadow of a barrier object (R382). -/
def execBrel (hdr : List Word) (body : List Byte) (s : State) : Out :=
  s.recv 0x22 hdr body fun m =>
    some { s with shadows := s.shadows.set (2 ^ 54 + m.spkg * 2 ^ 44 + m.q2.toNat) (fld m.q3.toNat 0 4) }

/-! ### Incarnations (R380) -/

/-- A page directory entry once a die of another package has reset: the modes that it held are released, and its
requests are gone. -/
def PageDir.reset (d : PageDir) (q die : Nat) : PageDir :=
  let h := q * 16 + die
  let left : PageDir :=
    { d with readers := d.readers.filter (· != h), writer := d.writer.filter (· != h),
             asks := d.asks.filter fun a => !(a.pkg == q && a.die == die) }
  { left with acks := if left.readers.any (· / 16 == q) || left.writer.any (· / 16 == q) then left.acks else left.acks.filter (· != q) }

/-- Lines of a page that were modified only in a lost die are poisoned in memory (R380, R399); which they are, no one
says (entry 19). -/
def State.poisonPage (s : State) (page : Nat) : State :=
  (List.range 1024).foldl (fun (t : State) k =>
    if Config.lostLine s.tick (page * 1024 + k) then { t with memPoison := t.memPoison.set (page * 1024 + k) true } else t) s

/-- Every page directory releases what a die of another package held (R380). -/
def State.releasePages (s : State) (q die : Nat) : State :=
  s.pdir.foldl (fun (t : State) e =>
    let t := if e.2.writer == some (q * 16 + die) then t.poisonPage e.1 else t
    { t with pdir := t.pdir.set e.1 (e.2.reset q die) }.serveAll e.1) s

/-- A request outstanding to a die of another package that has reset ends as for the loss of its home (R380, R399): with
POISON, or, for version 0, by asking again. -/
def State.lostRequest (s : State) (id : Nat) (r : TileReq) : State :=
  if verOf r.h == 0 && !r.isStore then s.sendRequest id r else s.failTile id 0x45 r.h.toNat

/-- `INCARN`: a die of another package has reset (R380). -/
def execIncarn (hdr : List Word) (body : List Byte) (s : State) : Out :=
  s.recv 0x30 hdr body fun m =>
    let die := fld m.q2.toNat 0 4
    let inc := BitVec.ofNat 16 m.q3.toNat
    let s : State := { s with peers := s.peers.set (m.spkg * 16 + die) inc }
    let old := s.tiles.filter fun e => match e.2.kind with | .remote q d _ _ _ => q == m.spkg && d == die && e.2.inc != inc | _ => false
    let s := old.foldl (fun (t : State) e => t.withdraw e.1 e.2) s
    let s := s.releasePages m.spkg die
    let mine := s.tiles.filter fun e =>
      e.2.home.pkg == some m.spkg && e.2.home.natural == die && (e.2.st == .queued || e.2.st == .away || (e.2.st == .sent && e.2.isStore))
    let s := mine.foldl (fun (t : State) e => t.lostRequest e.1 e.2) s
    let far (page : Nat) : Bool := page * 2 ^ 16 / 2 ^ 44 == 2 ^ 10 + m.spkg && pageDie page == die
    some { s with lineAsks := s.lineAsks.filter fun e => !far (e.2.addr / 2 ^ 16),
                  pages := s.pages.map fun e => (e.1, if far e.1 then { e.2 with asked := e.2.mode } else e.2) }

end Sys2Proof.Machine
end

