-- ==== Sys2Proof/Machine/Digest.lean ====
section
/-!
DEFINITION. Replica digests (R403–R407).
-/

namespace Sys2Proof.Machine

/-- `ctl.replg`. -/
def State.group4 (s : State) (g : Nat) : Nat := (s.repl.toList.getD (g % 4) 0).toNat
/-- The state with `ctl.replg` replaced. -/
def State.setRepl (s : State) (g w : Nat) : State :=
  { s with repl := s.repl.set (g % 4) (BitVec.ofNat 64 w) (Nat.mod_lt _ (by decide)) }
/-- Members of a group that is defined. -/
def replMembers (w : Nat) : List Nat :=
  if !bit w 63 then []
  else [fld w 0 10, fld w 10 10] ++ (if fld w 30 2 == 3 then [fld w 20 10] else [])

/-- Both instructions of row 0x66 need REPLICA and a group that names this package; `k` goes on with the group (R404). -/
def State.withGroup (s : State) (i : Instr) (lit : Bool) (b : Word) (k : Nat → Out) : Out :=
  let g := b.toNat % 4
  if (replMembers (s.group4 g)).contains s.pkg then k g else s.trap 0x02 (wordOf i) lit

/-- `digest.add` (R405). -/
def execDigestAdd (a : SSrc) (b : SOpd) (s : State) : Out :=
  let q := formR [] a b
  let h := s.sval q 0
  s.needFeature 9 (Instr.digestAdd a b) <| s.gate q <| s.withGroup (Instr.digestAdd a b) q.lit (s.bval q 1 .zext b) fun g =>
    s.handle h q.lit fun d =>
      if verOf h == 0 then s.trap 0x60 h q.lit
      else s.roomForAccess <| .next (((s.pops q).request (.digest g) h d).retire q)

/-- A report on every compute die in service; where a queue is full, it waits for space (R360). -/
def State.reportAll (s : State) (cause addr key : Nat) : State :=
  s.upDies.foldl (fun (t : State) d => t.report d { kind := 3, cause := cause, addr := addr, key := key }) s

/-- Digests kept: the newest four of each group and member (R406). -/
def keepDigests (l : List Digest) (x : Digest) : List Digest :=
  let mine := l.filter fun y => y.g == x.g && y.pkg == x.pkg && y.step != x.step
  (l.filter fun y => !(y.g == x.g && y.pkg == x.pkg)) ++ mine.drop (mine.length - 3) ++ [x]

/-- How a step ends for this package, by the other members and whether their digests equal its own: fill value, and the members that go
on; `none` where it stops (R406, R407). -/
def replVerdict (own : Nat) (ds : List (Nat × Bool)) : Option (Nat × List Nat) :=
  match ds with
  | [(_, true)] => some (0, [])
  | [(p, x), (q, y)] =>
    match x, y with
    | true, true => some (0, [])
    | true, false => some (1, [own, p])
    | false, true => some (1, [own, q])
    | false, false => none
  | _ => none

/-- `digest.end` decides once the digest of its step has arrived from every other member (R406): the register is filled,
and after a disagreement the group goes on with the two that agree (R407); or the package stops, and reports. `none` where it
has to wait. -/
def State.decideEnd (s : State) (e : DigestWait) : Option State :=
  let w := s.group4 e.g
  let ms := replMembers w
  let others := ms.erase s.pkg
  let got := others.filterMap fun p =>
    if p == s.pkg then some (p, true)
    else (s.digests.find? fun x => x.g == e.g && x.step == e.step && x.pkg == p).map fun x => (p, x.d == e.d)
  if !ms.contains s.pkg || got.length != others.length then none
  else
    let t := { s with ends := s.ends.erase e, digests := s.digests.filter fun x => !(x.g == e.g && x.step == e.step) }
    match replVerdict s.pkg got with
    | none =>
      let u : State := { t with stopped := if t.stopped.contains e.asid then t.stopped else e.asid :: t.stopped }
      some (u.reportAll 0xC3 e.step.toNat e.g)
    | some (v, keep) =>
      let two := ms.filter keep.contains
      let u := if keep == [] then t
        else t.setRepl e.g (2 ^ 63 + 2 * 2 ^ 30 + two.getD 1 0 * 2 ^ 10 + two.getD 0 0)
      match u.findTask e.tid with
      | some h => u.fillTask h e.dst (BitVec.ofNat 64 v)
      | none => some u

/-- Every `digest.end` that can decide does so, one after another. -/
def State.decideEnds (s : State) : Nat → Option State
  | 0 => some s
  | n + 1 =>
    match s.ends.find? fun e => (s.decideEnd e).isSome with
    | none => some s
    | some e => (s.decideEnd e).bind fun t => t.decideEnds n

/-- `digest.end` (R406). -/
def execDigestEnd (d : SReg) (a : SSrc) (b : SOpd) (s : State) : Out :=
  let q := formR [.fillS d] a b
  let step := s.sval q 0
  s.needFeature 9 (Instr.digestEnd d a b) <| s.gate q <| s.withGroup (Instr.digestEnd d a b) q.lit (s.bval q 1 .zext b) fun g =>
    if s.digesting s.me.tid s.seq then s.waits
    else
      let acc := (s.accum.toList.getD g 0).toNat
      let dg := sha256 (toBytes 8 step.toNat ++ toBytes 32 acc)
      let e : DigestWait :=
        { tid := s.me.tid, die := dieOf s.cur, asid := s.me.asid.toNat, g := g, step := step, d := BitVec.ofNat 256 (ofBytes dg), dst := d }
      let t := (s.pops q).modMe fun x => x.empty d
      let t := { t with accum := t.accum.set (g % 4) 0 (Nat.mod_lt _ (by decide)), ends := t.ends ++ [e] }
      let others := (replMembers (s.group4 g)).filter (· != s.pkg)
      let t := (others.foldl (fun (u : State) p => u.send 0x28 p 8 8 0 s.tag step (BitVec.ofNat 64 g) dg) t).bump
      match (t.retire q).decideEnds 1 with
      | some u => .next u
      | none => .next (t.retire q)

/-- `DIGEST`: the digest of another member arrives; each `digest.end` that waited for it decides (R406). Without REPLICA there is
no digest exchange, and the message is dropped and counted as one of a reserved type (R7, R8; entry 71). -/
def execDigest (hdr : List Word) (body : List Byte) (s : State) : Out :=
  s.recv 0x28 hdr body fun m =>
    if !s.feature 9 then some (s.staleDrop m.ddie) else
    let x : Digest := { g := fld m.q3.toNat 0 2, step := m.q2, pkg := m.spkg, d := BitVec.ofNat 256 (ofBytes m.body) }
    let t := { s with digests := keepDigests s.digests x }
    t.decideEnds (t.ends.length)

/-- `FILL_LAND`: the answer of a tile request, or the verdict of a `digest.end`, lands in its register; or a part of a load
binds its value, and the fill lands once every part is bound (R11, R15, R24, R178, R183, R202, R406). -/
def execFillLand (p id part : Nat) (s : State) : Out :=
  s.act (((s.landTile id).or (s.landPart p id part)).or
    ((s.ends.find? fun e => e.tid == (s.slot p).tid && (s.decideEnd e).isSome).bind s.decideEnd))

end Sys2Proof.Machine
end

