-- ==== Sys2Proof/Machine/HostBlock.lean ====
section
/-!
DEFINITION. What the host does through its ports: the register block, the record window, watches, CXL.mem, NVMe peer loads
(R383–R391).
-/

namespace Sys2Proof.Machine

/-- The host is answered: the controller runs and has not quiesced, and a host port is left (R399, R402, R408). -/
def State.serves (s : State) : Bool := s.ctrl.booted && !s.ctrl.quiet && (s.up.getLsbD 8 || s.up.getLsbD 9)

/-- A step of the host that is answered. -/
def State.byHost (s : State) (o : Option State) : Out := s.act (if s.serves then o else none)

/-! ### Features, package number, routes, switches, NVMe entries (R384, R385, R390) -/

/-- Published features FEATAV (R6, R385): bits 0–10 (R7). -/
def featAv : BitVec 256 := BitVec.ofNat 256 0x7FF

/-- A write of FEATACC0–2 stages the word (R385). -/
def State.stage (s : State) (k : Nat) (x : Word) : State := if h : k < 3 then { s with staged := s.staged.set k x h } else s

/-- The write of FEATACC3 commits the set once; messages that waited for DEVLINK leave (R385). -/
def State.commitFeatures (s : State) (x : Word) : State :=
  if s.accepted then s
  else
    let w := x ++ s.staged[2] ++ s.staged[1] ++ s.staged[0]
    State.release { s with feat := (w &&& featAv) ||| 1, accepted := true }

/-- `FEATACC_STAGE` (R385). -/
def execFeataccStage (k : Nat) (x : Word) (s : State) : Out := s.byHost (some (s.stage k x))
/-- `FEATACC_COMMIT` (R385). -/
def execFeataccCommit (x : Word) (s : State) : Out := s.byHost (some (s.commitFeatures x))

/-- PKGNUM is written once (R384); messages that waited for it leave (R385). -/
def State.writePkg (s : State) (x : Word) : State :=
  if s.pkgSet then s else State.release { s with pkg := x.toNat % 1024, pkgSet := true }
/-- `PKGNUM_WRITE` (R384). -/
def execPkgnumWrite (x : Word) (s : State) : Out := s.byHost (some (s.writePkg x))

/-- Four route masks are written; messages whose package has a route again leave (R376, R381). -/
def State.writeRoutes (s : State) (k : Nat) (x : Word) : State :=
  State.release { s with route := (List.range 4).foldl (fun t j => t.set (4 * k + j) (x.extractLsb' (16 * j) 16)) s.route }

/-- 64 switch marks are written (R382). -/
def State.writeSwitches (s : State) (k : Nat) (x : Word) : State :=
  { s with switches := (List.range 64).foldl (fun t j => if x.getLsbD j then t.set (64 * k + j) true else t.del (64 * k + j)) s.switches }

/-- A word of an NVMe entry is written; one that is made usable has a new queue pair, which begins at place 0 (R390,
R391). -/
def State.writeNvme (s : State) (n : Nat) (k : Fin 4) (x : Word) : State :=
  let s : State := { s with nvmeTab := s.nvmeTab.upd n (Vector.replicate 4 0) fun w => w.set k.val x k.isLt }
  if k.val == 0 && x.getLsbD 63 then { s with nvmeTail := s.nvmeTail.del n, nvmeDone := s.nvmeDone.del n } else s

/-! ### Watches (R388, R389) -/

/-- A watch. -/
def State.watch (s : State) (n : Nat) : Watch := s.watches.getD n Watch.init
/-- The state with a watch replaced. -/
def State.setWatch (s : State) (n : Nat) (w : Watch) : State := { s with watches := s.watches.set n w }

/-- A watch is disarmed: no notice begins any more (R389). -/
def State.disarm (s : State) (n : Nat) : State :=
  let w := s.watch n
  let mine := s.tiles.filter fun e => e.2.kind == .watch n
  let s := { s with unitWalks := s.unitWalks.filter fun u => u.who != .watch n }
  (mine.foldl (fun (t : State) e => t.withdraw e.1 e.2) s).setWatch n { w with w1 := clearTop w.w1, armed := false, due := false, checking := false }
where
  /-- V of w1 cleared. -/
  clearTop (x : Word) : Word := x &&& ~~~BitVec.twoPow 64 63

/-- A version watch waits at the home of its version, as `twait` does (R282, R389). -/
def State.watchVersion (s : State) (n : Nat) (w : Watch) (d : Desc) : State :=
  let r : TileReq :=
    { kind := .watch n, h := w.w0, asid := w.w1.toNat % 4096, user := false, slot := s.hostDie * 2048, tid := 0, st := .sent, since := s.now,
      reported := false, inc := (s.die s.hostDie).incarn, poison := false, home := homeOf w.w0 d, frame := none }
  (s.sendRequest s.seq r).bump

/-- The version of a watch is RETIRED at its home on this package. -/
def State.retired (s : State) (asid : Nat) (h : Word) (d : Desc) : Bool :=
  let m := homeOf h d
  d.pkg == none && verOf h != 0 && decide (asid < 4096) &&
    match s.names.get? (s.nameOf m h) with | some e => decide (verOf h ≤ e.floor) | none => false

/-- ST of a watch that is armed, and the descriptor of a version watch (R389); none while the check waits for a walk, or for another
package (R350, R375). A poisoned context or page table has no code of its own, and is refused as PROTECTION (entry 73). -/
def State.watchCheck (s : State) (n : Nat) (w : Watch) : State × Option (Nat × Option Desc) :=
  let cd := s.hostDie
  let asid := w.w1.toNat % 4096
  let ends (c : Nat) : State × Option (Nat × Option Desc) := (s, some (c, none))
  if !s.feature 7 then ends 0x04
  else if w.w1.getLsbD 61 then
    match s.farTable cd asid fun tdt _ _ => [tdt + 64 * tensorOf w.w0] with
    | some a => (s.askFar cd a, none)
    | none =>
    match s.ctx cd asid with
    | .invalid => ends 0x46
    | .poisoned => ends 0x43
    | .far _ => (s, none)
    | .ok _ _ _ _ =>
      match s.desc cd asid (tensorOf w.w0) with
      | none => ends 0x63
      | some d =>
        if d.tiles ≤ tileOf w.w0 then ends 0x64
        else if d.pkg.any fun q => !s.feature 10 || decide (1023 < q) || !s.routed q then ends 0x43
        else if s.retired asid w.w0 d then ends 0x61 else (s, some (0, some d))
  else if w.w0.toNat % 8 != 0 then ends 0x44
  else if 2 ^ 56 ≤ w.w0.toNat then ends 0x43
  else
    match s.xlate (.watch n) cd asid w.w0.toNat with
    | (t, .ok _ a) => (t, some (if a.r then 0 else 0x43, none))
    | (t, .miss) => (t, none)
    | (t, .fail c) => (t, some (if c == 0 then 0x40 else if c == 0x46 then 0x46 else 0x43, none))

/-- The bits of w1 that are written: V, ONE, VER, PORT and ASID; ST is read only, and the others are RSV (R3, R388). -/
def watchBits : Word := 0xF000000000000FFF

/-- The check of a watch goes on: it stays armed, or is refused with ST and left disarmed (R388, R389). -/
def State.checkWatch (s : State) (n : Nat) : State :=
  let w := s.watch n
  match s.watchCheck n w with
  | (t, none) => t
  | (t, some (0, d)) =>
    let t := t.setWatch n { w with checking := false }
    match d with
    | some d => t.watchVersion n w d
    | none => t
  | (t, some (c, _)) => t.setWatch n { w with st := BitVec.ofNat 8 c, armed := false, due := false, checking := false }

/-- A watch is armed and its check begins; writes of its word count from now on (R389). -/
def State.arm (s : State) (n : Nat) (w1 : Word) : State :=
  let s := s.disarm n
  (s.setWatch n { s.watch n with w1 := w1 &&& watchBits, st := 0, armed := true, due := false, checking := true }).checkWatch n

/-- A word of a watch entry is written; w1 arms or disarms it (R388). -/
def State.writeWatch (s : State) (n k : Nat) (x : Word) : State :=
  let w := s.watch n
  match k with
  | 0 => s.setWatch n { w with w0 := x }
  | 1 => if x.getLsbD 63 then s.arm n x else (s.disarm n).setWatch n { (s.disarm n).watch n with w1 := x &&& watchBits }
  | 2 => s.setWatch n { w with w2 := x }
  | _ => s.setWatch n { w with w3 := x }

/-- `WATCH_ARM`: a write of w1 with V = 1 (R389). -/
def execWatchArm (n : Nat) (s : State) : Out :=
  s.byHost (if n < 4096 then some (s.arm n ((s.watch n).w1 ||| BitVec.twoPow 64 63)) else none)
/-- `WATCH_DISARM`: a write of w1 with V = 0 (R389). -/
def execWatchDisarm (n : Nat) (s : State) : Out := s.byHost (if n < 4096 then some (s.disarm n) else none)

/-- Second word of a notice: the handle, or the watched word's value, once every write of the word is performed with respect
to the package (R389); it waits for a walk, or for another package. A word that can be read no more has a free value (entry 73). -/
def State.watchValue (s : State) (n : Nat) (w : Watch) : State × Option Nat :=
  let asid := w.w1.toNat % 4096
  let a := w.w0.toNat
  if w.w1.getLsbD 61 then (s, some a)
  else if (s.line asid a).any fun l => !l.stale.isEmpty || l.upd != none then (s, none)
  else
    match s.cohRead (.watch n) s.hostDie asid a 8 {} with
    | (t, .ok b) => (t, some (ofBytes b))
    | (t, .error 1) => (t, none)
    | (t, .error _) => (t, some (Config.lostWord s.tick).toNat)

/-- `WATCH_NOTICE`: a notice that is due is posted to the host; a watch whose check has waited is checked again first (R389). -/
def execWatchNotice (n : Nat) (s : State) : Out :=
  s.byHost do
    let w ← s.watches.get? n
    if w.checking then some (s.checkWatch n)
    else if !w.armed || !w.due then none
    else
      match s.watchValue n w with
      | (t, none) => some t
      | (t, some v) =>
        let t := (t.postHost (if w.w1.getLsbD 60 then 1 else 0) w.w2.toNat (toBytes 8 w.w3.toNat ++ toBytes 8 v)).setWatch n
          { w with due := false }
        some (if w.w1.getLsbD 62 then t.disarm n else t)

/-! ### The record window (R386, R387) -/

/-- A slot of the window. -/
def State.winSlot (s : State) (n : Nat) : WinSlot := s.window.getD n WinSlot.init
/-- The state with a slot of the window replaced. -/
def State.setWin (s : State) (n : Nat) (w : WinSlot) : State := { s with window := s.window.set n w }

/-- A word of a slot as a number. -/
def WinSlot.w (x : WinSlot) (k : Nat) : Nat := (x.words.toList.getD k 0).toNat

/-- A reserved field of the slot is not 0 (R386), those of the record image of KIND 1 among them (R307). -/
def WinSlot.reserved (x : WinSlot) : Bool :=
  fld (x.w 16) 17 47 != 0 || fld (x.w 16) 12 4 != 0 || ((List.range 13).any fun k => x.w (19 + k) != 0) ||
    (bit (x.w 16) 16 && imageReserved (x.w 2) (x.w 5) (x.w 7))

/-- The ring of a slot is over, with a code (R387). -/
def State.ringEnds (s : State) (n code : Nat) : State :=
  s.setWin n { s.winSlot n with done := true, code := BitVec.ofNat 8 code, post := none }

/-- The record of a slot of KIND 1 (R387). -/
def WinSlot.record (x : WinSlot) : Rec :=
  { recOfImage ((x.words.toList.take 16).flatMap fun w => toBytes 8 w.toNat) with
    folds := 1, nf := false, token := 0, asid := x.w 16 % 4096, dev := false }

/-- A slot whose doorbell has rung is processed; it waits while the control block pool of its launch has no free block
(R387, R320). -/
def State.ring (s : State) (n : Nat) : State :=
  let x := s.winSlot n
  let cd := s.hostDie
  let asid := x.w 16 % 4096
  let inv := match s.ctx cd asid with | .invalid => true | _ => false
  if x.reserved then s.ringEnds n 0x02
  else if asid == 0 || inv then s.ringEnds n 0x46
  else if !bit (x.w 16) 16 then
    let w : Vector Word 16 := Vector.ofFn fun i => x.words.toList.getD i.val 0
    if let some a := s.farTable cd asid (launchTables w) then s.askFar cd a
    else if !s.launchOk cd asid w then s.ringEnds n 0x88
    else
      let aff := fld (lw w 0) 24 4
      let key := w.toList.getD 1 0
      let die := if aff == 0xF then s.keyDie key else s.affDie aff cd key
      match s.freeBlock die with
      | none => s
      | some cb => (s.startLaunch w asid die cb (x.words.toList.getD 17 0) 16384 0).ringEnds n 0
  else
    let r := x.record
    if r.lr || badAff r.aff then s.ringEnds n 0x02
    else if let some a := s.farTable cd asid fun _ _ cls => [cls + 16 * r.cls] then s.askFar cd a
    else
      match s.cls cd asid r.cls with
      | none => s.ringEnds n 0x82
      | some c =>
        if r.acnt != 0 && (c.run == 8 || decide (c.area < r.acnt)) then s.ringEnds n 0x82
        else
          let die := if r.aff == 0xF then s.keyDie r.key else s.affDie r.aff cd r.key
          let m : RecMsg := { die := die, r := r, slot := 16384, tid := 0, dst := none, free := true }
          (s.setWin n { x with post := some s.seq }).post m

/-- `DOORBELL`: a slot is rung, unless its last ring is under way, and processed on the die that checks it, once the host's earlier
writes to device memory are performed (R387). -/
def execDoorbell (die slot : Nat) (s : State) : Out :=
  s.byHost
    (let x := s.winSlot slot
     if 256 ≤ slot || die != s.hostDie || s.upDies.isEmpty || (!x.done && x.post != none) || !s.farPuts.isEmpty then none
     else some ((s.setWin slot { x with done := false }).ring slot))

/-- A host write of a register of the block (R384): aligned words of 64 bits only; RO fields are left alone. -/
def State.hostWrite (s : State) (off : Nat) (x : Word) : State :=
  let k := off / 8
  if off < 0x20 then s
  else if off < 0x38 then s.stage (k - 4) x
  else if off == 0x38 then s.commitFeatures x
  else if off == 0x40 then s.writePkg x
  else if off == 0x1000 then
    let n := x.toNat % 256
    s.setWin n { s.winSlot n with done := false }
  else if off < 0x4000 then s
  else if off < 0x4800 then s.writeRoutes (k - 0x800) x
  else if off < 0x4880 then s.writeSwitches (k - 0x900) x
  else if off < 0x10000 then s
  else if off < 0x12000 then s.writeNvme ((k - 0x2000) / 4) (Fin.ofNat 4 k) x
  else if off < 0x20000 then s
  else if off < 0x40000 then s.writeWatch ((k - 0x4000) / 4) (k % 4) x
  else if off < 0x100000 then s
  else if off < 0x110000 then
    let n := (k - 0x20000) / 32
    if k % 32 == 18 then s
    else s.setWin n { s.winSlot n with words := (s.winSlot n).words.set (k % 32) x (Nat.mod_lt _ (by decide)) }
  else s

/-- What a host read of `size` bytes of the register block returns (R384): RO fields by the state, write-only and unlisted offsets and
every read that is not of an aligned word of 64 bits as 0. -/
def State.hostRead (s : State) (off size : Nat) : Nat :=
  let k := off / 8
  if size != 8 || off % 8 != 0 then 0
  else if off < 0x20 then (featAv.extractLsb' (64 * k) 64).toNat
  else if off < 0x40 then (s.feat.extractLsb' (64 * (k - 4)) 64).toNat
  else if off == 0x40 then s.pkg % 1024
  else if off == 0x48 then s.up.toNat
  else if off < 0x70 then ((List.range 4).map fun j => (s.die (4 * (k - 10) + j)).incarn.toNat * 2 ^ (16 * j)).sum
  else if off < 0x4000 then 0
  else if off < 0x4800 then ((List.range 4).map fun j => (s.route.getD (4 * (k - 0x800) + j) 0).toNat * 2 ^ (16 * j)).sum
  else if off < 0x4880 then ((List.range 64).map fun j => (s.switches.has (64 * (k - 0x900) + j)).toNat * 2 ^ j).sum
  else if off < 0x10000 then 0
  else if off < 0x12000 then s.nvmeWord ((k - 0x2000) / 4) (k % 4)
  else if off < 0x20000 then 0
  else if off < 0x40000 then
    let w := s.watch ((k - 0x4000) / 4)
    match k % 4 with
    | 0 => w.w0.toNat
    | 1 => w.w1.toNat + w.st.toNat * 2 ^ 52
    | 2 => w.w2.toNat
    | _ => w.w3.toNat
  else if off < 0x100000 then 0
  else if off < 0x110000 then
    let x := s.winSlot ((k - 0x20000) / 32)
    if k % 32 == 18 then x.done.toNat * 2 ^ 63 + x.code.toNat else x.w (k % 32)
  else 0

/-- `HOST_REGISTER_WRITE` (R384). -/
def execHostRegisterWrite (off size : Nat) (x : Word) (s : State) : Out :=
  s.byHost (if size == 8 && off % 8 == 0 then some (s.hostWrite off x) else none)

/-! ### CXL.mem (R383) -/

/-- `HOST_CXL_MEM_ACCESS`: an access of the physical window within one line (R272, R383); one that finds its page with another
package or its line taken waits, and is performed by a later step of its line (R297); a write of a byte that a write still waits for
joins it. -/
def execHostCxlMemAccess (addr : Nat) (wr : Bool) (bytes : List Byte) (s : State) : Out :=
  s.byHost
    (let n := bytes.length
     if 2 ^ 44 < addr + n || n == 0 || 64 < addr % 64 + n then none
     else if wr then
       let later (t : State) : State := { t with farPuts := bytes.zipIdx.foldl (fun m b => m.set (addr + b.2) b.1) t.farPuts }
       if s.farWrites addr n then some (later s) else
       match s.cohWrite (.slot 0) s.hostDie 0 addr bytes .keep { w := true } with
       | (t, .error 1) => some (later t)
       | (t, _) => some t
     else some ({ s with farGets := s.farGets ++ [(addr, n)] }.getFar s.hostDie (addr, n)))

/-! ### NVMe peer loads (R391) -/

/-- The copy command of a read changed. -/
def State.nvmeCmd (s : State) (x : Nvme) (f : Cmd → Cmd) : State :=
  let one (c : Cmd) : Cmd := if c.ticket == x.ticket then f c else c
  match s.findTask x.owner with
  | none => s
  | some h => s.modHolder h fun y => y.modEng .c fun e => { e with queue := e.queue.map one }

/-- A copy command whose read of an NVMe controller has failed fails with SUB 0x45 (R391). -/
def State.nvmeFails (s : State) (x : Nvme) : State := s.nvmeCmd x fun c => c.failWith 0xA3 0x45

/-- A controller writes a completion entry, after the data of a read in its landing pages (R390, R391). -/
def State.nvmeArrives (s : State) (x : Nvme) (bytes : List Byte) : State :=
  let k := s.nvmeDone.getD x.entry 0
  let m := x.pages.zipIdx.foldl (fun (m : Memory) e => m.putBytes (4096 * e.1) (slice bytes (4096 * e.2) 4096)) s.bar2
  { s with nvmeDone := s.nvmeDone.set x.entry (k + 1),
           bar2 := m.putBytes (0x3008000 + 0x10000 * x.entry + 16 * (k % 512)) ((List.range 16).map (Config.nvmeEntry s.tick)) }

/-- The data in the landing pages of a read is given to the writes of its command (R265, R391). -/
def State.nvmeLands (s : State) (x : Nvme) (bytes : List Byte) : State :=
  s.nvmeCmd x fun c => { c with out := c.out.map (Put.give bytes x.rel x.len) }

/-- An NVMe entry with V cleared (R391). -/
def nvmeOff (w : Vector Word 4) : Vector Word 4 := w.set 0 (w[0] &&& ~~~BitVec.twoPow 64 63)

/-- `NVME_COMPLETION`: a read of the NVMe controller has ended; its pages serve the next (R391). -/
def execNvmeCompletion (n : Nat) (ok : Bool) (bytes : List Byte) (s : State) : Out :=
  s.act do
    let x ← s.nvme.get? n
    let t : State := { s with nvme := s.nvme.del n }
    if s.ctrl.quiet || x.pages.isEmpty || (ok && bytes.length != x.len) then none
    else
      let t := t.nvmeArrives x (if ok then bytes else [])
      some (if ok then t.nvmeLands x bytes else t.nvmeFails x).nvmeGo

/-- `NVME_TIMEOUT`: a read has taken longer than TMO: its command fails, and its entry is no longer usable (R391). -/
def execNvmeTimeout (n : Nat) (s : State) : Out :=
  s.act do
    let x ← s.nvme.get? n
    let tmo := s.nvmeWord x.entry 3 % 2 ^ 32
    if s.ctrl.quiet || x.pages.isEmpty || tmo == 0 || s.now < x.since + tmo * 2 ^ 16 then none
    else
      let t : State := { s with nvme := s.nvme.del n, nvmeTab := s.nvmeTab.upd x.entry (Vector.replicate 4 0) nvmeOff }
      some (t.nvmeFails x)

end Sys2Proof.Machine
end

