-- ==== Sys2Proof/Machine/Migrate.lean ====
section
/-!
DEFINITION. Page migration (R303, R304): the far-tier engines of a die take descriptors from its migration queue, lock
the page, recall its modified lines, copy its frame, and switch.
-/

namespace Sys2Proof.Machine

/-- Descriptors that a migration queue holds, and the address of one. -/
def Die.migSize (x : Die) : Nat := 2 ^ wf x.migq 0 4
/-- Address of a descriptor. -/
def Die.migAddr (x : Die) (k : Nat) : Nat := wf x.migq 12 44 * 4096 + 32 * (k % x.migSize)

/-- A move ends: w2 is written, both its words full, and the engines go on to the next descriptor (R304). -/
def State.endMove (s : State) (d code : Nat) : State :=
  let x := s.die d
  let a := x.migAddr x.migHead.toNat
  (((s.putPhys64 (a + 16) (2 ^ 63 + code)).fillPhys (a + 16) 8).modDie d fun y =>
    { y with mig := none, migHead := BitVec.ofNat 16 ((y.migHead.toNat + 1) % y.migSize) })

/-- Physical address and value of the leaf entry of a page: its level, or none where the page is not mapped (R344, R354). -/
def State.leafOf (s : State) (cd asid page : Nat) : Option (Nat × Nat × Nat) :=
  if asid == 0 then none
  else match s.ctx cd asid with
  | .ok root _ _ _ =>
    let r : Except WalkAnswer (Nat × Nat × Nat) := do
      let e0 ← (s.walkLoad 16 (root + 8 * fld page 26 14)).bind (pteCheck 0)
      let a1 := fld e0 16 40 * 2 ^ 16 + 8 * fld page 13 13
      let e1 ← (s.walkLoad 16 a1).bind (pteCheck 1)
      if bit e1 5 then return (1, a1, e1)
      let a2 := fld e1 16 40 * 2 ^ 16 + 8 * fld page 0 13
      let e2 ← (s.walkLoad 16 a2).bind (pteCheck 2)
      return (2, a2, e2)
    match r with
    | .ok x => some x
    | .error _ => none
  | _ => none

/-- Every byte of a 64 KiB frame lies in the package's own memory (R304, R374). -/
def State.localFrame (s : State) (f : Nat) : Bool :=
  (match s.phys f with | .dram _ => !s.lostMem f | _ => false) && match s.phys (f + 65535) with | .dram _ => true | _ => false

/-- Codes with which a descriptor may fail (R304): without FARTIER 3 or 4 (R385); a page whose frame lies elsewhere than in the
package's memory fails with a code that the manual does not name. -/
def State.moveCodes (s : State) (d : Nat) (w0 w1 w3 : Nat) : List Nat :=
  let dest := fld w1 16 40 * 2 ^ 16
  let leaf := s.leafOf d (fld w0 0 12) (fld w0 16 40)
  let rsv := if fld w0 56 8 != 0 || fld w0 12 4 != 0 || fld w1 56 8 != 0 || fld w1 0 16 != 0 || w3 != 0 || !s.localFrame dest then [4] else []
  if !s.feature 4 then 3 :: rsv
  else rsv ++
    (match leaf with
     | none => [1]
     | some (l, _, e) =>
       if l == 1 || bit e 6 then [2] else if s.localFrame (fld e 16 40 * 2 ^ 16) then [] else [1, 2, 3, 4])

/-- Modified lines of a page recalled: written to their frame, and held for write by no die; a line that holds an empty
word stays with its home slice (R185, R303). -/
def State.recallPage (s : State) (asid page : Nat) : State :=
  let mine := s.lines.filter fun e => e.1 / 2 ^ 50 == asid && e.1 % 2 ^ 50 / 2 ^ 10 == page
  mine.foldl (fun (t : State) e =>
    let l := e.2
    let t := t.writeBack l
    { t with lines := t.lines.set e.1 { l with dirty := false, owner := if l.empties.isEmpty then none else l.owner, excl := none } }) s

/-- A write or an invalidation of a line of the page is under way. -/
def State.pageBusy (s : State) (asid page : Nat) : Bool :=
  s.lines.any fun e => e.1 / 2 ^ 50 == asid && e.1 % 2 ^ 50 / 2 ^ 10 == page && (e.2.upd != none || !e.2.stale.isEmpty)

/-- A frame copied, with its poison marks (R303). -/
def State.copyFrame (s : State) (old new : Nat) : State :=
  let s := { s with mem := s.mem.putBytes new (s.mem.bytes old 65536) }
  (List.range 1024).foldl (fun (t : State) k =>
    { t with memPoison := if t.memPoison.has (old / 64 + k) then t.memPoison.set (new / 64 + k) true else t.memPoison.del (new / 64 + k) }) s

/-- `MIGRATION_MOVE`: a descriptor is taken, and fails or locks its page; then, with no write of the page under way, its
modified lines are recalled and its frame is copied (steps 1 to 3 of R303). A die that is quiesced moves nothing (R402). -/
def execMigrationMove (die : Nat) (s : State) : Out :=
  s.act
    (let x := s.die die
     if x.quiet then none else
     match x.mig with
     | none =>
       if x.migHead == x.migTail || !s.up.getLsbD die then none
       else
         let a := x.migAddr x.migHead.toNat
         let w0 := s.physNum a 8
         let w1 := s.physNum (a + 8) 8
         let asid := fld w0 0 12
         let page := fld w0 16 40
         match s.choose (s.moveCodes die w0 w1 (s.physNum (a + 24) 8)) with
         | some c => some (s.endMove die c)
         | none =>
           if s.locked asid (page * 2 ^ 16) then none
           else
             let src := match s.leafOf die asid page with | some (_, _, e) => fld e 16 40 * 2 ^ 16 | none => 0
             let m : Move :=
               { desc := x.migHead.toNat, asid := asid, page := page, dest := fld w1 16 40 * 2 ^ 16, src := src, copied := false }
             some ({ s with locks := s.locks ++ [(asid, page, 1)] }.modDie die fun y => { y with mig := some m })
     | some m =>
       if m.copied || s.pageBusy m.asid m.page then none
       else
         match s.leafOf die m.asid m.page with
         | some (2, _, e) =>
           let t := (s.recallPage m.asid m.page).copyFrame (fld e 16 40 * 2 ^ 16) m.dest
           some (t.modDie die fun y => { y with mig := some { m with copied := true } })
         | _ => some ({ s with locks := s.locks.erase (m.asid, m.page, 1) }.endMove die 1))

/-- A walk answer for a page that has moved names its new frame (step 4 of R303). -/
def WalkAnswer.moved (page frame : Nat) : WalkAnswer → WalkAnswer
  | .leaf p 0 f a => .leaf p 0 (if p == page then frame else f) a
  | r => r

/-- The new frame in every memory-side TLB, in walk answers on their way, and behind every on-chip line (step 4 of R303;
lines are tagged by virtual address, so nothing else of them changes). -/
def State.moveFrame (s : State) (asid page frame : Nat) : State :=
  { s with
    tlb := s.tlb.map fun e => if e.asid == asid && e.page == page && e.log2 == 0 then { e with frame := frame } else e,
    walks := s.walks.map fun e => (e.1, if e.2.asid == asid then { e.2 with answer := e.2.answer.map (WalkAnswer.moved page frame) } else e.2),
    lines := s.lines.map fun e => (e.1, if here e.1 then { e.2 with frame := frame + e.1 % 2 ^ 10 * 64 } else e.2),
    clusters := s.clusters.map fun e => (e.1, { e.2 with code := move e.2.code }),
    cores := s.cores.map fun e => (e.1, { e.2 with code := move e.2.code }) }
where
  /-- The key of a line of the page. -/
  here (key : Nat) : Bool := key / 2 ^ 50 == asid && key % 2 ^ 50 / 2 ^ 10 == page
  /-- The code lines of the page lie in the new frame. -/
  move (l : SMap CodeLine) : SMap CodeLine :=
    l.map fun e => (e.1, if here e.1 then { e.2 with frame := frame + e.1 % 2 ^ 10 * 64 } else e.2)

/-- `MIGRATION_SWITCH`: the new frame takes the place of the old one in one step, the lock bit is cleared, and the
descriptor is answered (steps 4 and 5 of R303, R304); requests of other packages for the old frame go on (R297). -/
def execMigrationSwitch (die : Nat) (s : State) : Out :=
  s.act do
    let m ← (s.die die).mig
    if !m.copied || (s.die die).quiet then none
    else
      let t := { s with locks := s.locks.erase (m.asid, m.page, 1) }
      let u :=
        match s.leafOf die m.asid m.page with
        | some (2, a, e) =>
          ((t.putPhys64 a (e - fld e 16 40 * 2 ^ 16 + m.dest)).moveFrame m.asid m.page m.dest).endMove die 0
        | _ => t.endMove die 1
      some ((u.serveAll (m.src / 2 ^ 16)).giveOwn (m.src / 2 ^ 16))

end Sys2Proof.Machine
end

