-- ==== Sys2Proof/Machine/Ras.lean ====
section
/-!
DEFINITION. Start-up, errors, resets, lost dies and links, security and attestation (R31, R32, R381, R392–R402,
R408–R411).
-/

namespace Sys2Proof.Machine

/-! ### Start-up (R32, R408, R409) -/

/-- An image is measured into the register of its class (R409). -/
def Controller.extend (c : Controller) (k : Nat) (img : List Byte) : Controller :=
  let old := toBytes 32 ((c.m.toList.getD (k % 8) 0).toNat)
  { c with m := c.m.set (k % 8) (BitVec.ofNat 256 (ofBytes (sha256 (old ++ sha256 img)))) (Nat.mod_lt _ (by decide)) }

/-- An image of class `k` is checked, and measured before it runs, or refused: its dies stay out of service (R408). -/
def State.loadFirmware (s : State) (k : Nat) (img : List Byte) : State :=
  if Config.imageOk k img then { s with ctrl := s.ctrl.extend k img } else { s with up := s.up &&& ~~~Config.imageDies k }

/-- After a reset of a die the controller loads its images again: each is checked, and measured before it runs; a refused one leaves the
die out of service (R32, R408, R409). Which classes serve a die is free (entry 21). -/
def State.reloadDie (s : State) (d : Nat) : State :=
  let one (t : State) (k : Nat) : State :=
    let img := Config.imageAgain t.tick k
    if !(Config.imageDies k).getLsbD d then t
    else if Config.imageOk k img then { t with ctrl := t.ctrl.extend k img } else { t with up := t.up &&& ~~~BitVec.twoPow 16 d }
  if s.ctrl.booted then ((List.range 7).map (· + 1)).foldl one s else s

/-- The controller sets sequencer mode on every compute die, for start-up and recovery, or clears it (R302; entry 70). -/
def State.setSeq (s : State) (on : Bool) : State :=
  let w (x : Word) : Word := if on then x ||| BitVec.twoPow 64 8 else x &&& ~~~BitVec.twoPow 64 8
  (List.range 8).foldl (fun (t : State) d => t.modDie d fun x => { x with memcfg := w x.memcfg }) s

/-- `CONTROLLER_BOOT`: images of classes 0 to 7 in order, that of class 0 the controller's own; where that is refused the
device answers configuration reads only (R408). -/
def execControllerBoot (images : List (List Byte)) (s : State) : Out :=
  s.act
    (match images.take 8 with
     | [] => none
     | img :: rest =>
       if s.ctrl.booted || !Config.imageOk 0 img then none
       else
         let t : State := { s with ctrl := { s.ctrl.extend 0 img with booted := true, acting := some 8, standby := true } }
         some (rest.zipIdx.foldl (fun (u : State) e => u.loadFirmware (e.2 + 1) e.1) (t.setSeq true)))

/-- `SUPERVISOR_START` (R32): slot 13 of core 0 of cluster 0 starts the runtime, after the controller has written the
registers that its header names. With the last compute die in service started, sequencer mode ends (R302; entry 70). -/
def execSupervisorStart (die : Nat) (s : State) : Out :=
  s.act
    (if 8 ≤ die || !s.up.getLsbD die || !s.ctrl.booted || s.ctrl.quiet || !(s.die die).fresh then none
     else
       let r (k : Nat) : Nat := (Config.bootReg die k).toNat
       let word (k : Nat) : Word := Config.bootReg die k &&& ~~~3
       let x : Slot := { Slot.init with use := .supervisor, priv := 1, pc := word 0, tid := s.seq + 1 }
       let t := ((s.setSlot (die * 2048 + 13) x).bump).modDie die fun y =>
         { y with fresh := false, tvec := word 1,
                  vdir := BitVec.ofNat 64 (fld (r 2) 16 40 * 2 ^ 16 + Nat.min 20 (r 2 % 32)), vstore := BitVec.ofNat 64 (r 3 % 2 ^ 56) }
       some (if t.upDies.any fun d => (t.die d).fresh then t else t.setSeq false))

/-- `RAKE_START`: the rake of a core starts its walk routine (R32, R352). -/
def execRakeStart (p : Nat) (s : State) : Out :=
  s.act
    (if 1024 ≤ p || !s.up.getLsbD (p / 128) || !s.ctrl.booted || (s.slot (p * 16 + 15)).use == .rake then none
     else some (s.setSlot (p * 16 + 15) { Slot.init with use := .rake, priv := 1 }))

/-! ### Lines and requests of a die that is gone -/

/-- A line leaves the chip: writers no longer await its invalidations, and an update that had not been committed starts
again. -/
def State.dropLine (s : State) (key : Nat) (l : Line) : State :=
  let s : State := { s with lines := s.lines.del key, slots := s.slots.map fun e => (e.1, l.stale.foldl (fun x d => x.ack d.1 key) e.2) }
  match l.upd with
  | some u => s.modPart u.slot u.id u.part fun x => { x with st := .todo }
  | none => s

/-- The frame of a line is poisoned in memory. -/
def State.poisonFrame (s : State) (f : Nat) : State :=
  match s.phys f with | .dram _ => { s with memPoison := s.memPoison.set (f / 64) true } | _ => s

/-- The L2 of a compute die is gone: a line that was modified only there is poisoned in memory, and the die's copies of the
others are gone (R399). -/
def State.loseL2 (s : State) (d : Nat) : State :=
  let one (t : State) (e : Nat × Line) : State :=
    let l := e.2
    if l.owner == some d then (if l.dirty then t.poisonFrame l.frame else t).dropLine e.1 l
    else
      { t with
        lines := t.lines.set e.1 { l with present := l.present.filter (· != d), stale := l.stale.del d,
                                          l1 := l.l1.filter (· / 128 != d) },
        slots := t.slots.map fun x => (x.1, x.2.ack d e.1) }
  s.lines.foldl one s

/-- Lines whose L3 home was a base die: those whose single modified copy is gone, in that L3 or in an L2 that is lost with it, are
poisoned in memory; with `flush`, a modified line of a surviving L2 is written back, and every copy dropped (R400). -/
def State.loseL3 (s : State) (d : Nat) (flush : Bool) : State :=
  let one (t : State) (e : Nat × Line) : State :=
    let l := e.2
    if l3Natural (e.1 % 2 ^ 50 * 64) != d then t
    else if l.dirty && !l.owner.any t.up.getLsbD then (t.poisonFrame l.frame).dropLine e.1 l
    else if flush then (t.writeBack l).dropLine e.1 l
    else if l.owner == none && l.present.isEmpty then t.dropLine e.1 l
    else t
  s.lines.foldl one s

/-- Requests that slots of a die made are gone, and versions that they held RESERVED are ABSENT; a watch of the host asks
again from a die in service, the next one where there is one. -/
def State.dropRequests (s : State) (d : Nat) : State :=
  let one (t : State) (e : Nat × TileReq) : State :=
    let r := e.2
    match r.kind with
    | .remote .. => t
    | .remoteStore .. => t
    | .watch _ =>
      let h := (t.upDies.filter (· != d)).headD d
      let t := t.withdraw e.1 r
      { t with tiles := t.tiles.set e.1
                 { r with slot := h * 2048, inc := if h == d then (t.die d).incarn + 1 else (t.die h).incarn, st := .sent } }
    | _ => t.withdraw e.1 { r with home := { r.home with pkg := none } }
  (s.tiles.filter fun e => dieOf e.2.slot == d).foldl one s

/-- The version home on a die is gone: requests outstanding to it start again, those of other packages end with it, and its
names are gone (R398, R399). -/
def State.loseHome (s : State) (d : Nat) : State :=
  let before : State := { s with up := s.up ||| BitVec.twoPow 16 d }
  let at_ (r : TileReq) : Bool := r.home.pkg == none && before.homeDie r.home == d && (r.st == .sent || r.st == .queued || r.st == .copying)
  let gone (r : TileReq) : Bool := match r.kind with | .remote .. => at_ r | .remoteStore .. => at_ r | _ => false
  { s with names := s.names.filter fun e => e.2.die != d,
           tiles := (s.tiles.filter fun e => !gone e.2).map fun e => (e.1, if at_ e.2 then { e.2 with st := .sent } else e.2) }

/-- Walk requests that the rakes of a die held are held by their TLBs again (R398). -/
def State.loseRakes (s : State) (d : Nat) : State :=
  let free (w : Walk) : Walk := if w.box.any (· / 128 == d) && w.answer == none then { w with box := none } else w
  { s with mail := s.mail.filter fun e => e.1 / 128 != d, walks := s.walks.map fun e => (e.1, free e.2) }

/-- The TLB of a memory die is gone: its walks end, and the accesses and units that waited for them miss again (R349, R398). -/
def State.loseTlb (s : State) (d : Nat) : State :=
  let ws := (s.walks.filter fun e => e.2.mdie == d).map (·.1)
  let todo (a : Access) : Access := ws.foldl (fun b n => b.answer n fun _ => .todo) a
  { s with tlb := s.tlb.filter fun e => e.mdie != d, walks := s.walks.filter fun e => e.2.mdie != d,
           mail := s.mail.map fun e => (e.1, e.2.filter fun n => !ws.contains n),
           unitWalks := s.unitWalks.filter fun u => u.failed != none || !ws.contains u.walk,
           slots := s.slots.map fun e => (e.1, { e.2 with accs := e.2.accs.map todo }) }

/-- The page lock of a move that a die had begun is cleared. -/
def State.unlockMove (s : State) (d : Nat) : State :=
  match (s.die d).mig with | some m => { s with locks := s.locks.erase (m.asid, m.page, 1) } | none => s

/-! ### Reset of a die (R31, R373, R380, R398) -/

/-- The unit is a slot of a die. -/
def Who.on (w : Who) (d : Nat) : Bool := match w with | .slot p => dieOf p == d | _ => false

/-- Everything that a compute die held is gone. -/
def State.clearDie (s : State) (d : Nat) : State :=
  let s := (((s.unlockMove d).dropRequests d).loseHome d).loseRakes d
  let s := s.loseL2 d
  { s with
    slots := s.slots.filter fun e => dieOf e.1 != d, cores := s.cores.filter fun e => e.1 / 128 != d,
    crews := s.crews.filter fun e => crewDie e.1 != d, clusters := s.clusters.filter fun e => e.1 / 16 != d,
    saved := s.saved.filter fun e => dieOf e.2.pos != d, launches := s.launches.filter fun e => e.2.die != d,
    ends := s.ends.filter fun e => e.die != d, collects := s.collects.filter fun e => e.die != d,
    prefs := s.prefs.filter fun e => dieOf e.2.slot != d, unitWalks := s.unitWalks.filter fun u => !u.who.on d,
    recs := s.recs.filter fun e => !(e.2.die == d && dieOf e.2.slot == d) }.clearRouters d

/-- What a base die held is gone: lines that stood only in its L3, versions there, its router's entries, and what the host writes
once per incarnation of the base dies (R384, R385). -/
def State.clearBase (s : State) (d : Nat) : State :=
  let s := (s.loseL3 d false).clearRouters d
  let hurt (v : VSlot) : VSlot := if v.loc == 1 then { v with poison := true } else v
  { s with
    names := s.names.map fun e => (e.1, if e.2.die / 4 + 8 == d then { e.2 with slots := e.2.slots.map fun v => (v.1, hurt v.2) } else e.2),
    pkg := 0, pkgSet := false, feat := 1, staged := Vector.replicate 3 0, accepted := false }

/-- A new incarnation is broadcast to packages of the link group (R380); while traffic over the links has not started, as after the
reset of a base die, the messages wait (R385). -/
def State.broadcast (s : State) (d : Nat) (qs : List Nat) : State :=
  qs.foldl (fun (t : State) q => t.send 0x30 q 0 d 0 0 (BitVec.ofNat 64 d) ((t.die d).incarn.zeroExtend 64) []) s

/-- The answer to a request is on its way to the die of its slot, from a home elsewhere. -/
def State.answering (s : State) (d : Nat) (r : TileReq) : Bool :=
  dieOf r.slot == d && (r.home.pkg.isSome || s.homeDie r.home != d) &&
    (match r.st with | .delivering _ _ => true | .answered _ _ _ => true | _ => false)

/-- Messages of other dies under way to a die: records, version requests and their answers, invalidations, fault messages and wakes;
replies, walk answers and arrival notices are checked as they arrive. -/
def State.underWay (s : State) (d : Nat) : Nat :=
  (s.recs.filter fun e => e.2.die == d && dieOf e.2.slot != d).length +
    (s.tiles.filter fun e => e.2.st == .sent && e.2.home.pkg == none && s.homeDie e.2.home == d && dieOf e.2.slot != d).length +
    (s.tiles.filter fun e => s.answering d e.2).length + (s.lines.filter fun e => e.2.stale.has d).length +
    (s.faultMsgs.filter fun e => routerDie e.2.router == d && e.2.fromOther).length +
    (s.wakes.filter fun e => routerDie e.2.router == d && s.wakeFromOther e.2).length

/-- `DIE_RESET`: a die resets and returns with the next incarnation (R31, R398). Messages under way to it name its old incarnation: the
die drops and counts them (R373), and their senders retry them, so that they are under way again (R398; entry 47). Ways and lanes
stay fenced off, and spare rows used (R395). -/
def execDieReset (die : Nat) (s : State) : Out :=
  s.act
    (if 16 ≤ die || !s.up.getLsbD die then none
     else
       let x := s.die die
       let t := if die < 8 then s.clearDie die else if die < 10 then s.clearBase die else s.loseTlb die
       let t := t.modDie die fun _ =>
         { Die.init with incarn := x.incarn + 1, epoch := s.now, rowsUsed := x.rowsUsed, fenced := x.fenced,
                         stale := BitVec.ofNat 32 (s.underWay die) }
       let t := ((t.retryFaults die).broadcast die (s.group.filter (· != s.pkg))).reloadDie die
       some (if die < 8 then t.setSeq true else t))

/-! ### Lost dies (R399, R400) -/

/-- A slot of a lost die: its task never exits, and nothing of it goes on. -/
def Slot.dead (x : Slot) : Slot :=
  { x with accs := [], borrowed := [], late := [], eng := x.eng.map fun e => { e with queue := [] }, wait := .none }

/-- A compute die is lost (R399). -/
def State.loseCompute (s : State) (d : Nat) : State :=
  let s := (((s.unlockMove d).dropRequests d).loseHome d).loseRakes d
  let s := s.loseL2 d
  let s : State := { s with slots := s.slots.map fun e => (e.1, if dieOf e.1 == d then e.2.dead else e.2),
                            prefs := s.prefs.filter fun e => dieOf e.2.slot != d }
  ((s.modDie d fun x => { x with mig := none }).clearRouters d).moveFaults d

/-- A move that names a lost memory die ends with CODE 4 (R399). -/
def State.endLostMove (s : State) (d : Nat) : State :=
  match (s.die d).mig with
  | some m => if s.lostMem m.src || s.lostMem m.dest then (s.unlockMove d).endMove d 4 else s
  | none => s

/-- A memory die is lost: its TLB, and every line of its frames (R399). -/
def State.loseMemory (s : State) (d : Nat) : State :=
  let s := s.loseTlb d
  let s : State := { s with lines := s.lines.map fun e => (e.1, if s.lostMem e.2.frame then { e.2 with poison := true } else e.2) }
  (List.range 8).foldl (fun (t : State) k => t.endLostMove k) s

/-- Messages handed to links, newest first, parted at the newest `n` of link `k`: those that stay, and those, oldest first. -/
def flying (k : Nat) : Nat → List (Nat × LinkMsg) → List LinkMsg → List (Nat × LinkMsg) × List LinkMsg
  | _, [], back => ([], back)
  | 0, l, back => (l, back)
  | n + 1, (j, m) :: t, back =>
    if j == k then flying k n t (m :: back)
    else
      let r := flying k (n + 1) t back
      ((j, m) :: r.1, r.2)

/-- A link goes down: the messages in flight on it are sent again, on the links left (R379), and it is reported once (R381). How many
were in flight is free (entry 72). -/
def State.cutLink (s : State) (k : Nat) : State :=
  if s.linkDown.getLsbD k then s
  else
    let r := flying k (Config.inFlight s.tick k) s.sent.reverse []
    let t : State := { s with linkDown := s.linkDown ||| BitVec.twoPow 16 k, sent := r.1.reverse }
    let t := r.2.foldl State.dispatchMsg t
    match (t.upDies.find? fun d => d / 4 == k / 8).or t.upDies.head? with
    | some d => t.reportDie d 0xC5 (Config.reportAddr s.tick)
    | none => t

/-- The dies that go with a die: the compute dies bonded on a base die (R399). -/
def lostWith (d : Nat) : List Nat := if d / 2 == 4 then d :: (List.range 4).map fun k => 4 * (d - 8) + k else [d]

/-- What the loss of one die does, once `ctl.dies` no longer names it. -/
def State.loseOne (s : State) (d : Nat) : State :=
  if d < 8 then s.loseCompute d else if d < 10 then (s.loseL3 d true).clearRouters d else s.loseMemory d

/-- A controller quiesces the dies that it reaches (R402). -/
def State.quiesce (s : State) (ds : List Nat) : State :=
  (ds.filter (· < 16)).foldl (fun (t : State) d => t.modDie d fun x => { x with quiet := true }) s

/-- With neither controller going on, each asks the host for a reset through every port that it reaches: the fatal status is set, and
ERR_FATAL sent (R402). -/
def State.askReset (s : State) (ds : List Nat) : State :=
  let ports := ([0, 1] : List Nat).filter fun n => ds.contains (8 + n)
  { s.quiesce ds with
    ctrl := { s.ctrl with acting := none, standby := false, quiet := true,
                          aer := ports.foldl (fun a n => a ||| BitVec.twoPow 2 n) s.ctrl.aer },
    hostOut := s.hostOut ++ ports.map HostOut.fatal }

/-- Which controller goes on after a loss: the acting one while it reaches nine dies, else the standby where the acting one's die is lost
and the standby reaches nine; with neither, the dies are quiesced (R401, R402; entry 48). -/
def State.handOver (s : State) : State :=
  let up := (List.range 16).filter fun d => s.up.getLsbD d
  match s.ctrl.acting with
  | none => s
  | some a =>
    if s.up.getLsbD a && decide (9 ≤ up.length) then s
    else if !s.up.getLsbD a && s.ctrl.standby && s.up.getLsbD (17 - a) && decide (9 ≤ up.length) then
      { s with ctrl := { s.ctrl with acting := some (17 - a), standby := false } }
    else s.askReset up

/-- Dies are lost: their effects, one MACHINE_CHECK report for each, LINK_DOWN for the links of a lost base die, and the controller that
goes on (R399–R401). -/
def State.loseDies (s : State) (l : List Nat) : State :=
  let ds := ((l.flatMap lostWith).eraseDups).filter fun d => decide (d < 16) && s.up.getLsbD d
  let mask := ds.foldl (fun (a : BitVec 16) d => a ||| BitVec.twoPow 16 d) 0
  let t := ds.foldl (fun (u : State) d => u.loseOne d) { s with up := s.up &&& ~~~mask }
  let t := ds.foldl (fun (v : State) d => match v.upDies.head? with | some h => v.reportDie h 0xC0 d | none => v) t
  ((ds.filter fun d => d / 2 == 4).foldl (fun (u : State) d => (List.range 8).foldl (fun (w : State) k => w.cutLink (8 * (d - 8) + k)) u) t).handOver

/-- `DIE_LOSS` (R399). -/
def execDieLoss (die : Nat) (s : State) : Out := s.act (if 16 ≤ die || !s.up.getLsbD die then none else some (s.loseDies [die]))

/-! ### Splits of the package (R401, R402) -/

/-- The two groups of dies after a failure of die-to-die links: those that the acting controller reaches, and the others. -/
def State.sides (s : State) (reach : List Nat) : List Nat × List Nat :=
  let up := (List.range 16).filter fun d => s.up.getLsbD d
  (up.filter reach.contains, up.filter fun d => !reach.contains d)

/-- `D2D_LINK_FAILURE`: `reach` are the dies that the acting controller still reaches; which of the others the standby reaches, its own
among them, is free (R401; entry 48). The controller that goes on treats every die that it does not reach as lost. -/
def execD2dLinkFailure (reach : List Nat) (s : State) : Out :=
  s.act do
    let a ← s.ctrl.acting
    let (mine, rest) := s.sides reach
    let b := 17 - a
    let theirs := if s.ctrl.standby && rest.contains b then rest.filter fun d => d == b || (Config.standbyReach s.tick).getLsbD d else []
    if s.ctrl.quiet || !mine.contains a || rest.isEmpty then none
    else if 9 ≤ mine.length then some (s.loseDies rest)
    else if 9 ≤ theirs.length then
      let t := s.quiesce mine
      some ({ t with ctrl := { t.ctrl with acting := some b, standby := false } }.loseDies (mine ++ rest.filter fun d => !theirs.contains d))
    else some (s.askReset (mine ++ theirs))

/-! ### Links (R381) -/

/-- `LINK_DOWN` (R381). -/
def execLinkDown (link : Nat) (s : State) : Out := s.act (if 16 ≤ link then none else some (s.cutLink link))

/-- `LINK_UP`: a route that had none returns, and the messages that waited for it leave (R381). -/
def execLinkUp (link : Nat) (s : State) : Out :=
  s.act (if 16 ≤ link then none else some (State.release { s with linkDown := s.linkDown &&& ~~~BitVec.twoPow 16 link }))

/-! ### Errors (R394–R396) -/

/-- A counter of `ctl.ras` after one more fault (R396). -/
def ras (x : BitVec 16) : BitVec 16 := if x = BitVec.allOnes 16 then x else x + 1

/-- A tile pool frame is fenced off, and a version in it moves with its side block, poisoned (R278, R395). -/
def State.fencePool (s : State) (d addr : Nat) : State :=
  let f : Frame := { die := d, loc := 0, slice := addr / 512, n := addr % 512 }
  let hit := s.names.findSome? fun e => (e.2.slots.find? fun v => e.2.frameOf v.2 == f).map fun v => (e.1, v.1)
  match hit with
  | none => s
  | some (key, j) =>
    let hurt (n : Name) : Name := { n with slots := n.slots.map fun v => (v.1, if v.1 == j then { v.2 with poison := true } else v.2) }
    let t : State := { s with names := s.names.map fun e => (e.1, if e.1 == key then hurt e.2 else e.2) }
    match t.placeVersion d f.slice (Config.pick s.tick) with
    | some (u, g) => u.moveVersion key j g
    | none => t

/-- The die holds the unit (R394, R395). `unit` names it: 0 memory, by an address of its line; 1 scratchpad, by
cluster · 2^23 + offset; 2 an L1, by core · 2^62 + line; 3 and 4 L2 and L3, by line; 5 a tile pool frame, by slice · 512 + frame; 6 a
lane between dies; 7 a lane of a link, by link · 256 + lane; 8 a register file, queue bank or engine of the die. -/
def holdsUnit (d unit addr : Nat) : Bool :=
  match unit with
  | 0 => physMap addr == .dram d
  | 1 => decide (d < 8)
  | 2 => decide (d < 8 ∧ addr < 2 ^ 69)
  | 3 => decide (d < 8)
  | 4 => d / 2 == 4
  | 5 => decide (d < 8 ∧ addr < 8192)
  | 7 => decide (addr < 4096) && addr / 256 / 8 + 8 == d
  | _ => true

/-- The load parts that an error can meet: those that may be performed now, of the slots and lines that `on` names. -/
def State.readers (s : State) (on : Nat → Nat → Bool) : List (Nat × Nat × Nat) :=
  s.slots.flatMap fun e => e.2.accs.flatMap fun a => a.parts.zipIdx.filterMap fun (x, k) =>
    if !a.sp && a.isLoad && x.st == .todo && on e.1 (lineKey a.asid x.va) && s.ordered e.1 a x then some (e.1, a.id, k) else none

/-- The access that met a lasting error completes with poison (R394, R397); which of several it was is free, and an error may also meet
none. -/
def State.poisonAccess (s : State) (on : Nat → Nat → Bool) : State :=
  match s.choose (none :: (s.readers on).map some) with
  | some (some (p, id, k)) => s.setPart p id k (.bad 0x45)
  | _ => s

/-- A lasting error in a way of a cache that holds a line (R394, R395): contents that no other copy and no memory holds are lost, and the
line is poisoned; otherwise the cache's copy is dropped, and only the access that met the error completes with poison. -/
def State.loseWay (s : State) (unit d addr : Nat) : State :=
  let key := if unit == 2 then addr % 2 ^ 62 else addr
  match s.lines.get? key with
  | none => s
  | some l =>
    let put (t : State) (m : Line) : State := { t with lines := t.lines.set key m }
    let core := d * 128 + addr / 2 ^ 62 % 128
    let sole := l.dirty || !l.empties.isEmpty
    match unit with
    | 2 =>
      if l.excl == some core then put s { l with poison := true }
      else if l.l1.contains core then put (s.poisonAccess fun p k => coreOf p == core && k == key) { l with l1 := l.l1.filter (· != core) }
      else s
    | 3 =>
      if l.owner == some d && sole then put s { l with poison := true }
      else if l.inL2 d then
        put (s.poisonAccess fun p k => dieOf p == d && k == key)
          { l with present := l.present.filter (· != d), owner := if l.owner == some d then none else l.owner,
                   l1 := l.l1.filter fun c => c / 128 != d, excl := l.excl.filter fun c => c / 128 != d }
      else s
    | _ =>
      if s.l3Home (key % 2 ^ 50 * 64) != d then s
      else if l.owner == none && sole then put s { l with poison := true }
      else s.poisonAccess fun p k => !l.inL2 (dieOf p) && k == key

/-- The lane of a die, or of a device link, carried data for an access: that completes with poison (R394, R397). -/
def State.loseLane (s : State) (unit d : Nat) : State :=
  s.poisonAccess fun p k => if unit == 6 then dieOf p == d else s.lineAsks.any fun e => e.2.key == k

/-- The unit that holds a lasting fault is fenced off, and what could not be read is poisoned (R394, R395): a DRAM row is replaced by a
spare one of its stack while there is one. -/
def State.fence (s : State) (d unit addr : Nat) : State :=
  let note (t : State) : State := t.modDie d fun x =>
    { x with fenced := if x.fenced.contains (unit, addr) then x.fenced else (unit, addr) :: x.fenced }
  match unit with
  | 0 =>
    (match rowStack addr with
     | some k => if s.stackRows d k == 0 then s else s.modDie d fun x => { x with rowsUsed := x.rowsUsed.set k (x.rowsUsed.getD k 0 + 1) }
     | none => s).poisonFrame addr
  | 1 => s.modCluster (d * 16 + addr / 2 ^ 23 % 16) fun c =>
      let t := addr % 2 ^ 23 / 4096
      { c with retired := if c.retired.contains t then c.retired else t :: c.retired, spPoison := c.spPoison.set (addr % 2 ^ 23 / 4) true }
  | 5 => (note s).fencePool d addr
  | 6 => (note s).loseLane 6 d
  | 7 =>
    let t := (note s).loseLane 7 d
    let cut := ((t.die d).fenced.filter fun e => e.1 == 7 && e.2 / 256 == addr / 256).length
    if Config.linkLanes < cut + 4 then t.cutLink (addr / 256 % 16) else t
  | 8 => s.loseDies [d]
  | _ => (note s).loseWay unit d addr

/-- `ECC_ERROR`: an uncorrectable error, retried once (R394); `unit` is the unit of R395 plus 16 times its die; unit 9 stands for an
error of one bit, which is corrected and counted. -/
def execEccError (unit addr : Nat) (lasting : Bool) (s : State) : Out :=
  s.act
    (let d := unit / 16
     let k := unit % 16
     if 16 ≤ d || 9 < k || !s.up.getLsbD d || !holdsUnit d k addr then none
     else if k == 9 then some (s.modDie d fun x => { x with corr := ras x.corr })
     else if lasting then some ((s.fence d k addr).modDie d fun x => { x with last := ras x.last })
     else some (s.modDie d fun x => { x with trans := ras x.trans }))

/-! ### Security (R410, R411), clocks (R392) -/

/-- `SECURITY_ALARM`: sources 0 voltage, 1 clock, 2 temperature, 3 tamper (R411). -/
def execSecurityAlarm (src : Nat) (s : State) : Out :=
  s.act
    (if 4 ≤ src then none
     else
       let t := { s with alarms := s.alarms ||| BitVec.twoPow 8 src }.reportAll 0xC4 (Config.reportAddr s.tick) 0
       let t := if s.pol == 0 then t else (List.range 8).foldl (fun (u : State) d => u.modDie d fun x => { x with quiet := true }) t
       some (if s.pol == 2 then { t with ctrl := { t.ctrl with erased := true } } else t))

/-- `ctl.secpol` (R411). -/
def State.secpol (s : State) : Nat := s.alarms.toNat * 4 + s.pol.toNat

/-- `ATTESTATION_REQUEST`: the response holds the nonce, measurements, incarnations, features, policy, key and signature
(R410). -/
def execAttestationRequest (nonce : List Byte) (s : State) : Out :=
  s.byHost
    (if nonce.length != 32 then none
     else
       let facts := nonce ++ s.ctrl.m.toList.flatMap (fun d => toBytes 32 d.toNat) ++
         (List.range 16).flatMap (fun d => toBytes 2 (s.die d).incarn.toNat) ++ toBytes 32 s.feat.toNat ++ toBytes 8 s.secpol ++
         (List.range 32).map Config.identityKey
       let sign := (List.range 7856).map fun k => if s.ctrl.erased then 0 else Config.signature s.tick k
       some { s with hostOut := s.hostOut ++ [HostOut.attest (facts ++ sign)] })

/-- `CLOCK_THROTTLE`: no architectural state changes (R392). -/
def execClockThrottle (_low : Bool) (s : State) : Out := .next s

end Sys2Proof.Machine
end

