-- ==== Sys2Proof/Machine/Scalar.lean ====
section
/-!
DEFINITION. Integer and address instructions (R114–R121, R65): rows 0x01–0x0C of the opcode map.
-/

namespace Sys2Proof.Machine

/-- A two-source operation: the sources are read, the destination is awaited and written, PC advances (R114). -/
def alu (f : Word → Word → Word) (e : Ext) (d : SReg) (a : SSrc) (b : SOpd) (s : State) : Out :=
  let q := formR [.s d] a b
  s.gate q (.next (((s.pops q).put d (f (s.sval q 0) (s.bval q 1 e b))).retire q))

/-- A one-source operation. -/
def alu1 (f : Word → Word) (d : SReg) (a : SSrc) (s : State) : Out :=
  let q := formA [.s d] a
  s.gate q (.next (((s.pops q).put d (f (s.sval q 0))).retire q))

/-- 1 or 0 as a register value. -/
def boolWord (b : Bool) : Word := if b then 1 else 0
/-- A shift amount: bits [5:0] (R115). -/
def amount (b : Word) : Nat := b.toNat % 64
/-- High half of the signed product (R115). -/
def mulhSigned (a b : Word) : Word := BitVec.ofInt 64 (a.toInt * b.toInt / 2 ^ 64)
/-- High half of the unsigned product. -/
def mulhUnsigned (a b : Word) : Word := BitVec.ofNat 64 (a.toNat * b.toNat / 2 ^ 64)
/-- Signed quotient with the edge cases of R116. -/
def divSigned (a b : Word) : Word := if b = 0 then BitVec.allOnes 64 else BitVec.ofInt 64 (a.toInt.tdiv b.toInt)
/-- Unsigned quotient (R116). -/
def divUnsigned (a b : Word) : Word := if b = 0 then BitVec.allOnes 64 else BitVec.ofNat 64 (a.toNat / b.toNat)
/-- Signed remainder (R116). -/
def remSigned (a b : Word) : Word := if b = 0 then a else BitVec.ofInt 64 (a.toInt.tmod b.toInt)
/-- Unsigned remainder (R116). -/
def remUnsigned (a b : Word) : Word := if b = 0 then a else BitVec.ofNat 64 (a.toNat % b.toNat)
/-- Count of one bits of the low `n` bits. -/
def onesBelow (a : Nat) : Nat → Nat
  | 0 => 0
  | n + 1 => a % 2 + onesBelow (a / 2) n
/-- Count of trailing zeros among the low `n` bits. -/
def zerosBelow (a : Nat) : Nat → Nat
  | 0 => 0
  | n + 1 => if a % 2 == 1 then 0 else 1 + zerosBelow (a / 2) n
/-- Leading zeros of a 64-bit value; 64 for 0 (R118). -/
def leadingZeros (a : Word) : Word := if a = 0 then 64 else BitVec.ofNat 64 (63 - Nat.log2 a.toNat)
/-- Trailing zeros; 64 for 0 (R118). -/
def trailingZeros (a : Word) : Word := BitVec.ofNat 64 (zerosBelow a.toNat 64)
/-- Sign extension of the low `n` bits (R118). -/
def sextLow (n : Nat) (a : Word) : Word := (a.extractLsb' 0 n).signExtend 64
/-- Zero extension of the low `n` bits (R118). -/
def zextLow (n : Nat) (a : Word) : Word := (a.extractLsb' 0 n).zeroExtend 64
/-- A mask of `n` low bits. -/
def lowMask (n : Nat) : Word := BitVec.ofNat 64 (2 ^ n - 1)
/-- The field of length `n` at position `p` (R120). -/
def extractField (p n : Nat) (a : Word) : Word := (a >>> p) &&& lowMask n
/-- `old` with the field of length `n` at position `p` replaced by the low bits of `a` (R120). -/
def insertField (p n : Nat) (old a : Word) : Word :=
  (old &&& ~~~(lowMask n <<< p)) ||| ((a &&& lowMask n) <<< p)

/-- `Add` (R115). -/
def execAdd (d : SReg) (a : SSrc) (b : SOpd) (s : State) : Out :=
  alu (fun a b => a + b) .sext d a b s

/-- `Sub` (R115). -/
def execSub (d : SReg) (a : SSrc) (b : SOpd) (s : State) : Out :=
  alu (fun a b => a - b) .sext d a b s

/-- `Mul` (R115). -/
def execMul (d : SReg) (a : SSrc) (b : SOpd) (s : State) : Out :=
  alu (fun a b => a * b) .sext d a b s

/-- `MulhI64` (R115). -/
def execMulhI64 (d : SReg) (a : SSrc) (b : SOpd) (s : State) : Out :=
  alu (fun a b => mulhSigned a b) .sext d a b s

/-- `MulhN64` (R115). -/
def execMulhN64 (d : SReg) (a : SSrc) (b : SOpd) (s : State) : Out :=
  alu (fun a b => mulhUnsigned a b) .zext d a b s

/-- `DivI64` (R116). -/
def execDivI64 (d : SReg) (a : SSrc) (b : SOpd) (s : State) : Out :=
  alu (fun a b => divSigned a b) .sext d a b s

/-- `DivN64` (R116). -/
def execDivN64 (d : SReg) (a : SSrc) (b : SOpd) (s : State) : Out :=
  alu (fun a b => divUnsigned a b) .zext d a b s

/-- `RemI64` (R116). -/
def execRemI64 (d : SReg) (a : SSrc) (b : SOpd) (s : State) : Out :=
  alu (fun a b => remSigned a b) .sext d a b s

/-- `RemN64` (R116). -/
def execRemN64 (d : SReg) (a : SSrc) (b : SOpd) (s : State) : Out :=
  alu (fun a b => remUnsigned a b) .zext d a b s

/-- `And` (R115). -/
def execAnd (d : SReg) (a : SSrc) (b : SOpd) (s : State) : Out :=
  alu (fun a b => a &&& b) .sext d a b s

/-- `Or` (R115). -/
def execOr (d : SReg) (a : SSrc) (b : SOpd) (s : State) : Out :=
  alu (fun a b => a ||| b) .sext d a b s

/-- `Xor` (R115). -/
def execXor (d : SReg) (a : SSrc) (b : SOpd) (s : State) : Out :=
  alu (fun a b => a ^^^ b) .sext d a b s

/-- `Andn` (R115). -/
def execAndn (d : SReg) (a : SSrc) (b : SOpd) (s : State) : Out :=
  alu (fun a b => a &&& ~~~b) .sext d a b s

/-- `Shl` (R115). -/
def execShl (d : SReg) (a : SSrc) (b : SOpd) (s : State) : Out :=
  alu (fun a b => a <<< amount b) .zext d a b s

/-- `Shr` (R115). -/
def execShr (d : SReg) (a : SSrc) (b : SOpd) (s : State) : Out :=
  alu (fun a b => a >>> amount b) .zext d a b s

/-- `Sar` (R115). -/
def execSar (d : SReg) (a : SSrc) (b : SOpd) (s : State) : Out :=
  alu (fun a b => a.sshiftRight (amount b)) .zext d a b s

/-- `Rol` (R115). -/
def execRol (d : SReg) (a : SSrc) (b : SOpd) (s : State) : Out :=
  alu (fun a b => a.rotateLeft (amount b)) .zext d a b s

/-- `MinI64` (R115). -/
def execMinI64 (d : SReg) (a : SSrc) (b : SOpd) (s : State) : Out :=
  alu (fun a b => if a.slt b then a else b) .sext d a b s

/-- `MinN64` (R115). -/
def execMinN64 (d : SReg) (a : SSrc) (b : SOpd) (s : State) : Out :=
  alu (fun a b => if a < b then a else b) .zext d a b s

/-- `MaxI64` (R115). -/
def execMaxI64 (d : SReg) (a : SSrc) (b : SOpd) (s : State) : Out :=
  alu (fun a b => if a.slt b then b else a) .sext d a b s

/-- `MaxN64` (R115). -/
def execMaxN64 (d : SReg) (a : SSrc) (b : SOpd) (s : State) : Out :=
  alu (fun a b => if a < b then b else a) .zext d a b s

/-- `SetEq` (R118). -/
def execSetEq (d : SReg) (a : SSrc) (b : SOpd) (s : State) : Out :=
  alu (fun a b => boolWord (a == b)) .sext d a b s

/-- `SetNe` (R118). -/
def execSetNe (d : SReg) (a : SSrc) (b : SOpd) (s : State) : Out :=
  alu (fun a b => boolWord (a != b)) .sext d a b s

/-- `SetLt` (R118). -/
def execSetLt (d : SReg) (a : SSrc) (b : SOpd) (s : State) : Out :=
  alu (fun a b => boolWord (a.slt b)) .sext d a b s

/-- `SetGe` (R118). -/
def execSetGe (d : SReg) (a : SSrc) (b : SOpd) (s : State) : Out :=
  alu (fun a b => boolWord (!a.slt b)) .sext d a b s

/-- `SetLtn` (R118). -/
def execSetLtn (d : SReg) (a : SSrc) (b : SOpd) (s : State) : Out :=
  alu (fun a b => boolWord (decide (a < b))) .zext d a b s

/-- `SetGen` (R118). -/
def execSetGen (d : SReg) (a : SSrc) (b : SOpd) (s : State) : Out :=
  alu (fun a b => boolWord (decide (b ≤ a))) .zext d a b s

/-- `Lih` (R65). -/
def execLih (d : SReg) (a : SSrc) (b : SOpd) (s : State) : Out :=
  alu (fun a b => (b <<< 32) ||| zextLow 32 a) .zext d a b s

/-- `Clz` (R118). -/
def execClz (d : SReg) (a : SSrc) (s : State) : Out := alu1 (fun a => leadingZeros a) d a s

/-- `Ctz` (R118). -/
def execCtz (d : SReg) (a : SSrc) (s : State) : Out := alu1 (fun a => trailingZeros a) d a s

/-- `Popc` (R118). -/
def execPopc (d : SReg) (a : SSrc) (s : State) : Out := alu1 (fun a => BitVec.ofNat 64 (onesBelow a.toNat 64)) d a s

/-- `Mov` (R118). -/
def execMov (d : SReg) (a : SSrc) (s : State) : Out := alu1 (fun a => a) d a s

/-- `SextI8` (R118). -/
def execSextI8 (d : SReg) (a : SSrc) (s : State) : Out := alu1 (fun a => sextLow 8 a) d a s

/-- `SextI16` (R118). -/
def execSextI16 (d : SReg) (a : SSrc) (s : State) : Out := alu1 (fun a => sextLow 16 a) d a s

/-- `SextI32` (R118). -/
def execSextI32 (d : SReg) (a : SSrc) (s : State) : Out := alu1 (fun a => sextLow 32 a) d a s

/-- `ZextN8` (R118). -/
def execZextN8 (d : SReg) (a : SSrc) (s : State) : Out := alu1 (fun a => zextLow 8 a) d a s

/-- `ZextN16` (R118). -/
def execZextN16 (d : SReg) (a : SSrc) (s : State) : Out := alu1 (fun a => zextLow 16 a) d a s

/-- `ZextN32` (R118). -/
def execZextN32 (d : SReg) (a : SSrc) (s : State) : Out := alu1 (fun a => zextLow 32 a) d a s

/-- `AddImm` (R119). -/
def execAddImm (d : SReg) (a : SSrc) (imm : BitVec 12) (s : State) : Out := alu1 (fun a => a + imm.signExtend 64) d a s

/-- `AndImm` (R119). -/
def execAndImm (d : SReg) (a : SSrc) (imm : BitVec 12) (s : State) : Out := alu1 (fun a => a &&& imm.signExtend 64) d a s

/-- `OrImm` (R119). -/
def execOrImm (d : SReg) (a : SSrc) (imm : BitVec 12) (s : State) : Out := alu1 (fun a => a ||| imm.signExtend 64) d a s

/-- `XorImm` (R119). -/
def execXorImm (d : SReg) (a : SSrc) (imm : BitVec 12) (s : State) : Out := alu1 (fun a => a ^^^ imm.signExtend 64) d a s

/-- `ShlImm` (R119). -/
def execShlImm (d : SReg) (a : SSrc) (n : Fin 64) (s : State) : Out := alu1 (fun a => a <<< n.val) d a s

/-- `ShrImm` (R119). -/
def execShrImm (d : SReg) (a : SSrc) (n : Fin 64) (s : State) : Out := alu1 (fun a => a >>> n.val) d a s

/-- `SarImm` (R119). -/
def execSarImm (d : SReg) (a : SSrc) (n : Fin 64) (s : State) : Out := alu1 (fun a => a.sshiftRight n.val) d a s

/-- `RolImm` (R119). -/
def execRolImm (d : SReg) (a : SSrc) (n : Fin 64) (s : State) : Out := alu1 (fun a => a.rotateLeft n.val) d a s

/-- `Bfx` (R120). -/
def execBfx (d : SReg) (a : SSrc) (p n : Fin 64) (s : State) : Out := alu1 (extractField p.val n.val) d a s

/-- `Bfi`: the old sD is a source with wait bit 0 (R120). -/
def execBfi (d : SReg) (a : SSrc) (p n : Fin 64) (s : State) : Out :=
  let q : Form := { srcs := [sref a, .s d false], dsts := [.s d], lit := false }
  s.gate q (.next (((s.pops q).put d (insertField p.val n.val (s.sval q 1) (s.sval q 0))).retire q))

/-- `Sel`: the old sD is the condition, a third source with wait bit 0 (R117). -/
def execSel (d : SReg) (a : SSrc) (b : SOpd) (s : State) : Out :=
  let q : Form := { srcs := sref a :: brefS b ++ [.s d false], dsts := [.s d], lit := isLit b }
  let c := s.sval q (q.srcs.length - 1)
  s.gate q (.next (((s.pops q).put d (if c = 0 then s.bval q 1 .sext b else s.sval q 0)).retire q))

/-- `Li` (R121). -/
def execLi (d : SReg) (imm : BitVec 12) (s : State) : Out :=
  let q := form0 [.s d]
  s.gate q (.next ((s.put d (imm.signExtend 64)).retire q))

/-- `Lea`: a + (b << k), no access (R121). -/
def execLea (d : SReg) (a : SSrc) (b : SOpd) (k : Fin 4) (s : State) : Out :=
  alu (fun a b => a + (b <<< k.val)) .sext d a b s

end Sys2Proof.Machine
end

