-- ==== Sys2Proof/Machine/FloatInstr.lean ====
section
/-!
DEFINITION. Scalar floating-point instructions (R146, R150–R157): rows 0x28–0x2B.
-/

namespace Sys2Proof.Machine
open Sys2Proof.Fp (Fmt Val RM)

/-- The encoding in the low bits of a register (R146). -/
def fpBits (F : Fmt) (w : Word) : Nat := w.toNat % 2 ^ F.width

/-- A result, zero-extended to 64 bits (R146). -/
def fpWord (n : Nat) : Word := BitVec.ofNat 64 n

/-- Copies the sign of `b` onto `a` (R151). -/
def copySign (F : Fmt) (a b : Nat) : Nat := a % 2 ^ (F.eb + F.fb) + b / 2 ^ (F.eb + F.fb) % 2 * 2 ^ (F.eb + F.fb)

/-- A two-source operation on encodings, its result and flags (R151, R152). -/
abbrev FpOp := Fmt → RM → Nat → Nat → Nat × Fp.Flags

/-- Sum. -/
def opAdd : FpOp := fun F rm a b => Fp.add F rm (F.val a) (F.val b)
/-- Difference. -/
def opSub : FpOp := fun F rm a b => Fp.add F rm (F.val a) (F.val b).neg
/-- Product. -/
def opMul : FpOp := fun F rm a b => Fp.mul F rm (F.val a) (F.val b)
/-- Quotient. -/
def opDiv : FpOp := fun F rm a b => Fp.div F rm (F.val a) (F.val b)
/-- Minimum (R150). -/
def opMin : FpOp := fun F _ a b => Fp.minMax F true a b
/-- Maximum (R150). -/
def opMax : FpOp := fun F _ a b => Fp.minMax F false a b
/-- Sign copy. -/
def opSgn : FpOp := fun F _ a b => (copySign F a b, 0)
/-- Comparison (R153). -/
def opCmp : FpOp := fun F _ a b => Fp.cmp (F.val a) (F.val b)

/-- A fused operation: the product is negated where `np` says so and the addend where `nc` does (R152). -/
def fused (np nc : Bool) (F : Fmt) (rm : RM) (a b c : Nat) : Nat × Fp.Flags :=
  let x := if np then (F.val a).neg else F.val a
  Fp.fma F rm x (F.val b) (if nc then (F.val c).neg else F.val c)

/-- A two-source floating-point instruction (R151). -/
def fp2 (op : FpOp) (d : SReg) (a : SSrc) (b : SOpd) (t : FTy) (s : State) : Out :=
  let F := Fp.fmt t
  let q := formR [.s d] a b
  let r := op F s.rm (fpBits F (s.sval q 0)) (fpBits F (s.bval q 1 .zext b))
  s.gate q (.next (((s.pops q).put d (fpWord r.1)).retireFp q r.2))

/-- A one-source floating-point instruction (R152). -/
def fp1 (op : Fmt → RM → Nat → Nat × Fp.Flags) (d : SReg) (a : SSrc) (t : FTy) (s : State) : Out :=
  let F := Fp.fmt t
  let q := formA [.s d] a
  let r := op F s.rm (fpBits F (s.sval q 0))
  s.gate q (.next (((s.pops q).put d (fpWord r.1)).retireFp q r.2))

/-- A fused instruction: the old sD is the addend, read with wait bit 0 (R152). -/
def fp3 (np nc : Bool) (d : SReg) (a : SSrc) (b : SOpd) (t : FTy) (s : State) : Out :=
  let F := Fp.fmt t
  let q : Form := { srcs := sref a :: brefS b ++ [.s d false], dsts := [.s d], lit := isLit b }
  let c := fpBits F (s.sval q (q.srcs.length - 1))
  let r := fused np nc F s.rm (fpBits F (s.sval q 0)) (fpBits F (s.bval q 1 .zext b)) c
  s.gate q (.next (((s.pops q).put d (fpWord r.1)).retireFp q r.2))

/-- A two-source operation with a constant-bank entry as b (R157). -/
def fpCb (op : FpOp) (d : SReg) (a : SSrc) (t : CTy) (c : Fin 256) (s : State) : Out :=
  let F := Fp.fmt t.toFTy
  let q := formA [.s d] a
  let r := op F s.rm (fpBits F (s.sval q 0)) ((s.cbEntry c).toNat % 2 ^ F.width)
  s.gate q (.next (((s.pops q).put d (fpWord r.1)).retireFp q r.2))

/-- The value of a source of a conversion: a floating-point value, or an integer (R155). -/
def cvtFloat : CvtKind → Option Fmt
  | .f32 => some Fp.f32 | .f16 => some Fp.f16 | .bf16 => some Fp.bf16
  | .i64 => none | .n64 => none | .i32 => none | .n32 => none

/-- An integer source of a conversion (R155). -/
def cvtInt (j : CvtKind) (a : Word) : Int :=
  match j with
  | .i64 => a.toInt
  | .n64 => (a.toNat : Int)
  | .i32 => (a.extractLsb' 0 32).toInt
  | .n32 => ((a.toNat % 2 ^ 32 : Nat) : Int)
  | .f32 => 0 | .f16 => 0 | .bf16 => 0

/-- Floating point to an integer kind, as the 64-bit register value (R102, R155). -/
def cvtToInt (k : CvtKind) (rm : RM) (a : Val) : Word × Fp.Flags :=
  match k with
  | .i64 => let r := Fp.toInt rm true 64 a; (BitVec.ofNat 64 r.1, r.2)
  | .n64 => let r := Fp.toInt rm false 64 a; (BitVec.ofNat 64 r.1, r.2)
  | .i32 => let r := Fp.toInt rm true 32 a; ((BitVec.ofNat 32 r.1).signExtend 64, r.2)
  | .n32 => let r := Fp.toInt rm false 32 a; (BitVec.ofNat 64 r.1, r.2)
  | .f32 => (0, 0) | .f16 => (0, 0) | .bf16 => (0, 0)

/-- A conversion from kind `j` to kind `k` (R100, R102, R103, R155). -/
def convertWord (k j : CvtKind) (rm : RM) (a : Word) : Word × Fp.Flags :=
  match cvtFloat k, cvtFloat j with
  | some G, some F =>
    let r := if k == j then Fp.integral F rm (fpBits F a) else Fp.convert G rm (F.val (fpBits F a))
    (fpWord r.1, r.2)
  | some G, none => let r := Fp.ofInt G rm (cvtInt j a); (fpWord r.1, r.2)
  | none, some F => cvtToInt k rm (F.val (fpBits F a))
  | none, none => (a, 0)

/-- `fadd` (R151). -/
def execFadd (d : SReg) (a : SSrc) (b : SOpd) (t : FTy) (s : State) : Out := fp2 opAdd d a b t s

/-- `fsub` (R151). -/
def execFsub (d : SReg) (a : SSrc) (b : SOpd) (t : FTy) (s : State) : Out := fp2 opSub d a b t s

/-- `fmul` (R151). -/
def execFmul (d : SReg) (a : SSrc) (b : SOpd) (t : FTy) (s : State) : Out := fp2 opMul d a b t s

/-- `fdiv` (R151). -/
def execFdiv (d : SReg) (a : SSrc) (b : SOpd) (t : FTy) (s : State) : Out := fp2 opDiv d a b t s

/-- `fmin` (R150). -/
def execFmin (d : SReg) (a : SSrc) (b : SOpd) (t : FTy) (s : State) : Out := fp2 opMin d a b t s

/-- `fmax` (R150). -/
def execFmax (d : SReg) (a : SSrc) (b : SOpd) (t : FTy) (s : State) : Out := fp2 opMax d a b t s

/-- `fsgn` (R151). -/
def execFsgn (d : SReg) (a : SSrc) (b : SOpd) (t : FTy) (s : State) : Out := fp2 opSgn d a b t s

/-- `fcmp` (R153). -/
def execFcmp (d : SReg) (a : SSrc) (b : SOpd) (t : FTy) (s : State) : Out := fp2 opCmp d a b t s

/-- `fma` (R152). -/
def execFma (d : SReg) (a : SSrc) (b : SOpd) (t : FTy) (s : State) : Out := fp3 false false d a b t s

/-- `fms` (R152). -/
def execFms (d : SReg) (a : SSrc) (b : SOpd) (t : FTy) (s : State) : Out := fp3 false true d a b t s

/-- `fnma` (R152). -/
def execFnma (d : SReg) (a : SSrc) (b : SOpd) (t : FTy) (s : State) : Out := fp3 true false d a b t s

/-- `fsqrt` (R152). -/
def execFsqrt (d : SReg) (a : SSrc) (t : FTy) (s : State) : Out := fp1 (fun F rm a => Fp.sqrt F rm (F.val a)) d a t s

/-- `fclass` (R154). -/
def execFclass (d : SReg) (a : SSrc) (t : FTy) (s : State) : Out := fp1 (fun F _ a => (Fp.classify F a, 0)) d a t s

/-- `fcvt` (R155). -/
def execFcvt (d : SReg) (a : SSrc) (k j : CvtKind) (s : State) : Out :=
  let q := formA [.s d] a
  let r := convertWord k j s.rm (s.sval q 0)
  s.gate q (.next (((s.pops q).put d r.1).retireFp q r.2))

/-- `li.f32` (R156). -/
def execLiF32 (d : LReg) (imm : BitVec 20) (s : State) : Out :=
  let q := form0 [.s (lreg d)]
  s.gate q (.next ((s.put (lreg d) ((imm20 imm).zeroExtend 64)).retire q))

/-- `fadd` with a constant-bank entry (R157). -/
def execFaddCb (d : SReg) (a : SSrc) (t : CTy) (c : Fin 256) (s : State) : Out := fpCb opAdd d a t c s

/-- `fsub` with a constant-bank entry (R157). -/
def execFsubCb (d : SReg) (a : SSrc) (t : CTy) (c : Fin 256) (s : State) : Out := fpCb opSub d a t c s

/-- `fmul` with a constant-bank entry (R157). -/
def execFmulCb (d : SReg) (a : SSrc) (t : CTy) (c : Fin 256) (s : State) : Out := fpCb opMul d a t c s

/-- `fmin` with a constant-bank entry (R157). -/
def execFminCb (d : SReg) (a : SSrc) (t : CTy) (c : Fin 256) (s : State) : Out := fpCb opMin d a t c s

/-- `fmax` with a constant-bank entry (R157). -/
def execFmaxCb (d : SReg) (a : SSrc) (t : CTy) (c : Fin 256) (s : State) : Out := fpCb opMax d a t c s

/-- `fma` with a constant-bank multiplier; the old sD is the addend (R157). -/
def execFmaCb (d : SReg) (a : SSrc) (t : CTy) (c : Fin 256) (s : State) : Out :=
  let F := Fp.fmt t.toFTy
  let q : Form := { srcs := [sref a, .s d false], dsts := [.s d], lit := false }
  let r := fused false false F s.rm (fpBits F (s.sval q 0)) ((s.cbEntry c).toNat % 2 ^ F.width) (fpBits F (s.sval q 1))
  s.gate q (.next (((s.pops q).put d (fpWord r.1)).retireFp q r.2))

end Sys2Proof.Machine
end

