-- ==== Sys2Proof/Machine/Vector.lean ====
section
/-!
DEFINITION. Vector instructions (R147–R149, R158–R171): rows 0x2C–0x35.
-/

namespace Sys2Proof.Machine
open Sys2Proof.Fp (Fmt Val RM)

/-- Sources a and b and destination d of a vector form. -/
def formV (d : List Dst) (a : VSrc) (b : VOpd) : Form := { srcs := vref a :: brefV b, dsts := d, lit := isLit b }

/-- The encoding in the low bits of a lane (R147). -/
def laneBits (F : Fmt) (v : Vec) (i : Nat) : Nat := (lane v i).toNat % 2 ^ F.width

/-- The active lanes of vD take the lanes `f`, the flags of the active lanes are merged, the instruction retires
(R148, R149). -/
def State.lanes (s : State) (q : Form) (d : VReg) (m : MReg) (f : Nat → Nat × Fp.Flags) : State :=
  let k := s.me.mask m
  ((s.pops q).putV d (blend k (ofLanes fun i => BitVec.ofNat 32 (f i).1) s.me.v[d])).retireFp q
    (laneFlags k fun i => (f i).2)

/-- A lane-wise integer operation (R158). -/
def vecInt (op : W32 → W32 → W32) (d : VReg) (a : VSrc) (b : VOpd) (m : MReg) (s : State) : Out :=
  let q := formV [.v d] a b
  let x := s.vval q 0
  let y := s.bvec q 1 b
  s.gate q (.next (((s.pops q).putV d
    (blend (s.me.mask m) (ofLanes fun i => op (lane x i) (lane y i)) s.me.v[d])).retire q))

/-- A lane-wise floating-point operation (R159). -/
def vecFp (op : FpOp) (d : VReg) (a : VSrc) (b : VOpd) (m : MReg) (t : FTy) (s : State) : Out :=
  let F := Fp.fmt t
  let q := formV [.v d] a b
  let x := s.vval q 0
  let y := s.bvec q 1 b
  s.gate q (.next (s.lanes q d m fun i => op F s.rm (laneBits F x i) (laneBits F y i)))

/-- A lane-wise operation with a constant-bank entry in every lane; vA is read with wait bit 0 (R160). -/
def vecCb (op : FpOp) (d a : VReg) (m : MReg) (t : CTy) (c : Fin 256) (s : State) : Out :=
  let F := Fp.fmt t.toFTy
  let q : Form := { srcs := [.v a false], dsts := [.v d], lit := false }
  let y := (s.cbEntry c).toNat % 2 ^ F.width
  s.gate q (.next (s.lanes q d m fun i => op F s.rm (laneBits F (s.vval q 0) i) y))

/-- A lane-wise operation of one source (R171). -/
def vecFp1 (op : Fmt → RM → Nat → Nat × Fp.Flags) (d : VReg) (a : VSrc) (m : MReg) (t : FTy) (s : State) : Out :=
  let F := Fp.fmt t
  let q : Form := { srcs := [vref a], dsts := [.v d], lit := false }
  s.gate q (.next (s.lanes q d m fun i => op F s.rm (laneBits F (s.vval q 0) i)))

/-- `VaddI32` (R158). -/
def execVaddI32 (d : VReg) (a : VSrc) (b : VOpd) (m : MReg) (s : State) : Out := vecInt (fun x y => x + y) d a b m s

/-- `VsubI32` (R158). -/
def execVsubI32 (d : VReg) (a : VSrc) (b : VOpd) (m : MReg) (s : State) : Out := vecInt (fun x y => x - y) d a b m s

/-- `VmulI32` (R158). -/
def execVmulI32 (d : VReg) (a : VSrc) (b : VOpd) (m : MReg) (s : State) : Out := vecInt (fun x y => x * y) d a b m s

/-- `VminI32` (R158). -/
def execVminI32 (d : VReg) (a : VSrc) (b : VOpd) (m : MReg) (s : State) : Out := vecInt (fun x y => if x.slt y then x else y) d a b m s

/-- `VminN32` (R158). -/
def execVminN32 (d : VReg) (a : VSrc) (b : VOpd) (m : MReg) (s : State) : Out := vecInt (fun x y => if x < y then x else y) d a b m s

/-- `VmaxI32` (R158). -/
def execVmaxI32 (d : VReg) (a : VSrc) (b : VOpd) (m : MReg) (s : State) : Out := vecInt (fun x y => if x.slt y then y else x) d a b m s

/-- `VmaxN32` (R158). -/
def execVmaxN32 (d : VReg) (a : VSrc) (b : VOpd) (m : MReg) (s : State) : Out := vecInt (fun x y => if x < y then y else x) d a b m s

/-- `VandI32` (R158). -/
def execVandI32 (d : VReg) (a : VSrc) (b : VOpd) (m : MReg) (s : State) : Out := vecInt (fun x y => x &&& y) d a b m s

/-- `VorI32` (R158). -/
def execVorI32 (d : VReg) (a : VSrc) (b : VOpd) (m : MReg) (s : State) : Out := vecInt (fun x y => x ||| y) d a b m s

/-- `VxorI32` (R158). -/
def execVxorI32 (d : VReg) (a : VSrc) (b : VOpd) (m : MReg) (s : State) : Out := vecInt (fun x y => x ^^^ y) d a b m s

/-- `VshlI32` (R158). -/
def execVshlI32 (d : VReg) (a : VSrc) (b : VOpd) (m : MReg) (s : State) : Out := vecInt (fun x y => x <<< (y.toNat % 32)) d a b m s

/-- `VshrI32` (R158). -/
def execVshrI32 (d : VReg) (a : VSrc) (b : VOpd) (m : MReg) (s : State) : Out := vecInt (fun x y => x >>> (y.toNat % 32)) d a b m s

/-- `VsarI32` (R158). -/
def execVsarI32 (d : VReg) (a : VSrc) (b : VOpd) (m : MReg) (s : State) : Out := vecInt (fun x y => x.sshiftRight (y.toNat % 32)) d a b m s

/-- `vadd` on floating-point lanes (R159). -/
def execVaddFp (d : VReg) (a : VSrc) (b : VOpd) (m : MReg) (t : FTy) (s : State) : Out :=
  vecFp opAdd d a b m t s

/-- `vadd` with a constant-bank entry (R160). -/
def execVaddCb (d a : VReg) (m : MReg) (t : CTy) (c : Fin 256) (s : State) : Out := vecCb opAdd d a m t c s

/-- `vsub` on floating-point lanes (R159). -/
def execVsubFp (d : VReg) (a : VSrc) (b : VOpd) (m : MReg) (t : FTy) (s : State) : Out :=
  vecFp opSub d a b m t s

/-- `vsub` with a constant-bank entry (R160). -/
def execVsubCb (d a : VReg) (m : MReg) (t : CTy) (c : Fin 256) (s : State) : Out := vecCb opSub d a m t c s

/-- `vmul` on floating-point lanes (R159). -/
def execVmulFp (d : VReg) (a : VSrc) (b : VOpd) (m : MReg) (t : FTy) (s : State) : Out :=
  vecFp opMul d a b m t s

/-- `vmul` with a constant-bank entry (R160). -/
def execVmulCb (d a : VReg) (m : MReg) (t : CTy) (c : Fin 256) (s : State) : Out := vecCb opMul d a m t c s

/-- `vmin` on floating-point lanes (R159). -/
def execVminFp (d : VReg) (a : VSrc) (b : VOpd) (m : MReg) (t : FTy) (s : State) : Out :=
  vecFp opMin d a b m t s

/-- `vmin` with a constant-bank entry (R160). -/
def execVminCb (d a : VReg) (m : MReg) (t : CTy) (c : Fin 256) (s : State) : Out := vecCb opMin d a m t c s

/-- `vmax` on floating-point lanes (R159). -/
def execVmaxFp (d : VReg) (a : VSrc) (b : VOpd) (m : MReg) (t : FTy) (s : State) : Out :=
  vecFp opMax d a b m t s

/-- `vmax` with a constant-bank entry (R160). -/
def execVmaxCb (d a : VReg) (m : MReg) (t : CTy) (c : Fin 256) (s : State) : Out := vecCb opMax d a m t c s

/-- `vfma`: a × b + the old vD, which is read with wait bit 0 (R159). -/
def execVfma (d : VReg) (a : VSrc) (b : VOpd) (m : MReg) (t : FTy) (s : State) : Out :=
  let F := Fp.fmt t
  let q : Form := { srcs := vref a :: brefV b ++ [.v d false], dsts := [.v d], lit := isLit b }
  let x := s.vval q 0
  let y := s.bvec q 1 b
  s.gate q (.next (s.lanes q d m fun i =>
    fused false false F s.rm (laneBits F x i) (laneBits F y i) (laneBits F s.me.v[d] i)))

/-- `vfma` with a constant-bank multiplier (R160). -/
def execVfmaCb (d a : VReg) (m : MReg) (t : CTy) (c : Fin 256) (s : State) : Out :=
  let F := Fp.fmt t.toFTy
  let q : Form := { srcs := [.v a false, .v d false], dsts := [.v d], lit := false }
  let y := (s.cbEntry c).toNat % 2 ^ F.width
  s.gate q (.next (s.lanes q d m fun i =>
    fused false false F s.rm (laneBits F (s.vval q 0) i) y (laneBits F s.me.v[d] i)))

/-- `vbcast.f32`: all 16 lanes, whatever any mask holds (R161). -/
def execVbcastF32 (d : VReg) (imm : BitVec 20) (s : State) : Out :=
  let q := form0 [.v d]
  s.gate q (.next ((s.putV d (ofLanes fun _ => imm20 imm)).retire q))

/-- Whether `x P y` holds for two lanes, and the flag raised (R162). -/
def cmpLane (t : CmpTy) (p : Pred) (x y : W32) : Bool × Fp.Flags :=
  let fp (F : Fmt) : Bool × Fp.Flags :=
    let r := Fp.cmp (F.val (x.toNat % 2 ^ F.width)) (F.val (y.toNat % 2 ^ F.width))
    (match p with
      | .eq => r.1 == 2 | .ne => r.1 != 2 | .lt => r.1 == 1 | .ge => r.1 == 2 || r.1 == 4, r.2)
  match t with
  | .i32 => (match p with | .eq => x == y | .ne => x != y | .lt => x.slt y | .ge => !x.slt y, 0)
  | .n32 => (match p with | .eq => x == y | .ne => x != y | .lt => decide (x < y) | .ge => decide (y ≤ x), 0)
  | .f32 => fp Fp.f32
  | .f16 => fp Fp.f16
  | .bf16 => fp Fp.bf16

/-- The mask with bit `i` as `f` gives it. -/
def maskOf (f : Nat → Bool) : Mask :=
  BitVec.ofNat 16 ((List.range 16).foldl (fun a i => a + if f i then 2 ^ i else 0) 0)

/-- `vcmp` (R162). -/
def execVcmp (d : MReg) (a : VSrc) (b : VOpd) (m : MReg) (t : CmpTy) (p : Pred) (s : State) : Out :=
  let q := formV [] a b
  let x := s.vval q 0
  let y := s.bvec q 1 b
  let k := s.me.mask m
  s.gate q (.next (((s.pops q).putM d (maskOf fun i => k.getLsbD i && (cmpLane t p (lane x i) (lane y i)).1)).retireFp q
    (laneFlags k fun i => (cmpLane t p (lane x i) (lane y i)).2)))

/-- `vsel`: the mask selects, and every lane is written (R162). -/
def execVsel (d : VReg) (a : VSrc) (b : VOpd) (k : MReg) (s : State) : Out :=
  let q := formV [.v d] a b
  s.gate q (.next (((s.pops q).putV d (blend (s.me.mask k) (s.vval q 0) (s.bvec q 1 b))).retire q))

/-- `vfclass` (R154, R162). -/
def execVfclass (d : VReg) (a : VSrc) (m : MReg) (t : FTy) (s : State) : Out :=
  vecFp1 (fun F _ n => (Fp.classify F n, 0)) d a m t s

/-- `vbcast` (R164). -/
def execVbcast (d : VReg) (a : LSrc) (m : MReg) (s : State) : Out :=
  let q : Form := { srcs := [lref a], dsts := [.v d], lit := false }
  let x := (s.sval q 0).extractLsb' 0 32
  s.gate q (.next (((s.pops q).putV d (blend (s.me.mask m) (ofLanes fun _ => x) s.me.v[d])).retire q))

/-- `vins` (R164). -/
def execVins (d : VReg) (a : LSrc) (b : LOpd) (s : State) : Out :=
  let q : Form := { srcs := lref a :: brefL b, dsts := [.v d], lit := isLit b }
  let k := (s.bval q 1 .zext b).toNat % 16
  let x := (s.sval q 0).extractLsb' 0 32
  s.gate q (.next (((s.pops q).putV d (ofLanes fun i => if i = k then x else lane s.me.v[d] i)).retire q))

/-- Lane `b[3:0]` of vA (R164). -/
def extractLane (s : State) (q : Form) (b : LOpd) : W32 := lane (s.vval q 0) ((s.bval q 1 .zext b).toNat % 16)

/-- `vext.n32` (R164). -/
def execVextN32 (d : LReg) (a : VSrc) (b : LOpd) (s : State) : Out :=
  let q : Form := { srcs := vref a :: brefL b, dsts := [.s (lreg d)], lit := isLit b }
  s.gate q (.next (((s.pops q).put (lreg d) ((extractLane s q b).zeroExtend 64)).retire q))

/-- `vext.i32` (R164). -/
def execVextI32 (d : LReg) (a : VSrc) (b : LOpd) (s : State) : Out :=
  let q : Form := { srcs := vref a :: brefL b, dsts := [.s (lreg d)], lit := isLit b }
  s.gate q (.next (((s.pops q).put (lreg d) ((extractLane s q b).signExtend 64)).retire q))

/-- `vperm` (R164). -/
def execVperm (d : VReg) (a : VSrc) (b : VOpd) (m : MReg) (s : State) : Out :=
  let q := formV [.v d] a b
  let x := s.vval q 0
  let y := s.bvec q 1 b
  s.gate q (.next (((s.pops q).putV d
    (blend (s.me.mask m) (ofLanes fun i => lane x ((lane y i).toNat % 16)) s.me.v[d])).retire q))

/-- `vslide`: a literal count is sign-extended (R164). -/
def execVslide (d : VReg) (a : VSrc) (b : LOpd) (m : MReg) (s : State) : Out :=
  let q : Form := { srcs := vref a :: brefL b, dsts := [.v d], lit := isLit b }
  let n := (s.bval q 1 .sext b).toInt
  let x := s.vval q 0
  let f (i : Nat) : W32 := let j := (i : Int) + n; if 0 ≤ j ∧ j ≤ 15 then lane x j.toNat else 0
  s.gate q (.next (((s.pops q).putV d (blend (s.me.mask m) (ofLanes f) s.me.v[d])).retire q))

/-- One level of the reduction tree: neighbours are combined, an absent one yields (R165). -/
def pairUp {α : Type} (op : α → α → α) : List (Option α) → List (Option α)
  | x :: y :: t =>
    (match x, y with
      | none, h => h
      | l, none => l
      | some l, some h => some (op l h)) :: pairUp op t
  | l => l

/-- The fixed tree over sixteen lanes (R165). -/
def redTree {α : Type} (op : α → α → α) (m : Mask) (x : Nat → α) : Option α :=
  (pairUp op (pairUp op (pairUp op (pairUp op
    ((List.range 16).map fun i => if m.getLsbD i then some (x i) else none))))).head?.join

/-- The three reductions (R165). -/
inductive RedOp where | sum | max | min
deriving DecidableEq, Repr

/-- Identity of a reduction (R166). -/
def redIdentity (o : RedOp) (t : RedTy) : W32 :=
  match o, t with
  | .sum, _ => 0
  | .max, .i32 => 0x80000000 | .max, .n32 => 0 | .max, .f32 => 0xFF800000
  | .min, .i32 => 0x7FFFFFFF | .min, .n32 => 0xFFFFFFFF | .min, .f32 => 0x7F800000

/-- One combining operation, with its flags (R165). -/
def redCombine (o : RedOp) (t : RedTy) (rm : RM) (l h : W32 × Fp.Flags) : W32 × Fp.Flags :=
  let fp (r : Nat × Fp.Flags) : W32 × Fp.Flags := (BitVec.ofNat 32 r.1, l.2 ||| h.2 ||| r.2)
  match t, o with
  | .f32, .sum => fp (opAdd Fp.f32 rm l.1.toNat h.1.toNat)
  | .f32, .max => fp (opMax Fp.f32 rm l.1.toNat h.1.toNat)
  | .f32, .min => fp (opMin Fp.f32 rm l.1.toNat h.1.toNat)
  | _, .sum => (l.1 + h.1, 0)
  | .i32, .max => (if l.1.slt h.1 then h.1 else l.1, 0)
  | .i32, .min => (if l.1.slt h.1 then l.1 else h.1, 0)
  | .n32, .max => (if l.1 < h.1 then h.1 else l.1, 0)
  | .n32, .min => (if l.1 < h.1 then l.1 else h.1, 0)

/-- A reduction of the lanes that a mask names, extended to 64 bits (R165, R166). With one active lane no operation takes place: the
result is the lane's bits, a NaN's among them, and no flag is raised (entry 76). -/
def reduce (o : RedOp) (d : LReg) (a : VSrc) (k : MReg) (t : RedTy) (s : State) : Out :=
  let q : Form := { srcs := [vref a], dsts := [.s (lreg d)], lit := false }
  let x := s.vval q 0
  let r := (redTree (redCombine o t s.rm) (s.me.mask k) fun i => (lane x i, 0)).getD (redIdentity o t, 0)
  let w := match t with | .i32 => r.1.signExtend 64 | .n32 => r.1.zeroExtend 64 | .f32 => r.1.zeroExtend 64
  s.gate q (.next (((s.pops q).put (lreg d) w).retireFp q r.2))

/-- `vredsum` (R165). -/
def execVredsum (d : LReg) (a : VSrc) (k : MReg) (t : RedTy) (s : State) : Out := reduce .sum d a k t s
/-- `vredmax` (R165). -/
def execVredmax (d : LReg) (a : VSrc) (k : MReg) (t : RedTy) (s : State) : Out := reduce .max d a k t s
/-- `vredmin` (R165). -/
def execVredmin (d : LReg) (a : VSrc) (k : MReg) (t : RedTy) (s : State) : Out := reduce .min d a k t s

/-- Byte `k` of a vector register. -/
def vbyte (v : Vec) (k : Nat) : Nat := (v.extractLsb' (8 * k) 8).toNat

/-- The form of a 64-deep dot product: sD is accumulator and destination, read first, with wait bit 0 (R167). -/
def formDot (d : LReg) (a : VSrc) (b : VOpd) : Form :=
  { srcs := .s (lreg d) false :: vref a :: brefV b, dsts := [.s (lreg d)], lit := isLit b }

/-- `vdot8` on floating-point elements: four groups in ascending k, inactive elements 0 (R107, R167). -/
def dotFp (F : Fmt) (d : LReg) (a : VSrc) (b : VOpd) (m : MReg) (s : State) : Out :=
  let q := formDot d a b
  let x := s.vval q 1
  let y := s.bvec q 2 b
  let k := s.me.mask m
  let ab := (List.range 64).map fun j =>
    if k.getLsbD (j / 4) then (F.val (vbyte x j), F.val (vbyte y j)) else (F.val 0, F.val 0)
  let c := (s.sval q 0).toNat % 2 ^ 32
  let r := Fp.dot ab c
  s.gate q (.next (((s.pops q).put (lreg d) (BitVec.ofNat 64 r.1)).retireFp q r.2))

/-- `vdot8` on integer elements: an exact sum modulo 2^32, sign-extended (R108, R167). -/
def dotInt (elem : Vec → Nat → Int × Fp.Flags) (d : LReg) (a : VSrc) (b : VOpd) (m : MReg) (s : State) : Out :=
  let q := formDot d a b
  let x := s.vval q 1
  let y := s.bvec q 2 b
  let k := s.me.mask m
  let on := (List.range 64).filter fun j => k.getLsbD (j / 4)
  let sum := on.foldl (fun (acc : Int) j => acc + (elem x j).1 * Fp.int8 (vbyte y j)) 0
  let c := (s.sval q 0).extractLsb' 0 32
  let r : W32 := c + BitVec.ofInt 32 sum
  s.gate q (.next (((s.pops q).put (lreg d) (r.signExtend 64)).retireFp q
    (unionFlags (on.map fun j => (elem x j).2))))

/-- `vdot8.e4m3` (R167). -/
def execVdot8E4m3 (d : LReg) (a : VSrc) (b : VOpd) (m : MReg) (s : State) : Out := dotFp Fp.e4m3 d a b m s
/-- `vdot8.e5m2` (R167). -/
def execVdot8E5m2 (d : LReg) (a : VSrc) (b : VOpd) (m : MReg) (s : State) : Out := dotFp Fp.e5m2 d a b m s
/-- `vdot8.i8` (R167). -/
def execVdot8I8 (d : LReg) (a : VSrc) (b : VOpd) (m : MReg) (s : State) : Out :=
  dotInt (fun x j => (Fp.int8 (vbyte x j), 0)) d a b m s

/-- `vdott.t2`: ternary codes of lanes 0–3 of vA (R90, R167), a feature ARRAYTERN. -/
def execVdottT2 (d : LReg) (a : VSrc) (b : VOpd) (m : MReg) (s : State) : Out :=
  s.needFeature 2 (.vdottT2 d a b m) (dotInt (fun x j => Fp.ternary (x.toNat / 4 ^ j % 4)) d a b m s)

/-- The floating-point format of a kind of `vcvt` (R168). -/
def vcvtFmt : VCvtKind → Option Fmt
  | .f32 => some Fp.f32 | .f16 => some Fp.f16 | .bf16 => some Fp.bf16 | .e4m3 => some Fp.e4m3 | .e5m2 => some Fp.e5m2
  | .i32 => none | .n32 => none

/-- One lane converted from kind `j` to kind `k` (R100–R103, R155, R168). -/
def convertLane (k j : VCvtKind) (rm : RM) (x : W32) : Nat × Fp.Flags :=
  match vcvtFmt k, vcvtFmt j with
  | some G, some F =>
    let n := x.toNat % 2 ^ F.width
    if k == j then Fp.integral F rm n else Fp.convert G rm (F.val n)
  | some G, none => Fp.ofInt G rm (if j == .i32 then x.toInt else (x.toNat : Int))
  | none, some F => Fp.toInt rm (k == .i32) 32 (F.val (x.toNat % 2 ^ F.width))
  | none, none => (x.toNat, 0)

/-- `vcvt` (R168). -/
def execVcvt (d : VReg) (a : VSrc) (m : MReg) (k j : VCvtKind) (s : State) : Out :=
  let q : Form := { srcs := [vref a], dsts := [.v d], lit := false }
  s.gate q (.next (s.lanes q d m fun i => convertLane k j s.rm (lane (s.vval q 0) i)))

/-- A vector register number plus a small offset. -/
def vplus (r : VReg) (k : Nat) : VReg := ⟨(r.val + k) % 32, Nat.mod_lt _ (by decide)⟩

/-- A vector register from sixty-four bytes, byte k at bits [8k+7:8k]. -/
def vecOfBytes (l : List Nat) : Vec := BitVec.ofNat 512 (l.foldr (fun b acc => b % 256 + 256 * acc) 0)

/-- `vqnt` (R112, R113, R169). -/
def execVqnt (d : VReg) (a : VSrc) (b : LOpd) (f : QTy) (s : State) : Out :=
  let q : Form := { srcs := (List.range 4).map (fun j => .v (vplus a.reg j) a.wait) ++ brefL b,
                    dsts := [.v d, .v (vplus d 1)], lit := isLit b }
  let xs := (List.range 64).map fun k => (lane (s.vval q (k / 16)) (k % 16)).toNat
  let base := ((s.bval q 4 .sext b).extractLsb' 0 8).toInt
  let r := Fp.quantRow f xs base
  let t := ((s.pops q).putV d (vecOfBytes r.2.1)).putV (vplus d 1)
    (ofLanes fun i => if i = 0 then BitVec.ofInt 32 r.1 else 0)
  s.gate q (.next (t.retireFp q r.2.2))

/-- `vdqnt` (R111, R170). -/
def execVdqnt (d : VReg) (a : VSrc) (b : LOpd) (f : QTy) (s : State) : Out :=
  let q : Form := { srcs := vref a :: brefL b, dsts := (List.range 4).map fun j => .v (vplus d j), lit := isLit b }
  let w := s.bval q 1 .zext b
  let e := (w.extractLsb' 0 8).toInt + (w.extractLsb' 8 6).toInt
  let x := s.vval q 0
  let r (k : Nat) : Nat × Fp.Flags := Fp.dequant e ((Fp.qfmt f).val (vbyte x k))
  let t := (List.range 4).foldl (fun t j => t.putV (vplus d j) (ofLanes fun i => BitVec.ofNat 32 (r (16 * j + i)).1))
    (s.pops q)
  s.gate q (.next (t.retireFp q (unionFlags ((List.range 64).map fun k => (r k).2))))

/-- `vrecip` (R171). -/
def execVrecip (d : VReg) (a : VSrc) (m : MReg) (t : FTy) (s : State) : Out :=
  vecFp1 (fun F rm n => Fp.recip F rm (F.val n)) d a m t s
/-- `vrsqrt` (R171). -/
def execVrsqrt (d : VReg) (a : VSrc) (m : MReg) (t : FTy) (s : State) : Out :=
  vecFp1 (fun F rm n => Fp.rsqrt F rm (F.val n)) d a m t s
/-- `vexp2` (R171). -/
def execVexp2 (d : VReg) (a : VSrc) (m : MReg) (t : FTy) (s : State) : Out :=
  vecFp1 (fun F rm n => Fp.exp2 F rm (F.val n)) d a m t s

/-! ### Masks (R172, R173) -/

/-- The literal flag of a mask operand. -/
def mLit (b : MOpd) : Bool := match b with | .reg _ => false | .lit _ => true

/-- A mask operation of two sources; masks never block (R172). -/
def maskOp (op : Mask → Mask → Mask) (d a : MReg) (b : MOpd) (s : State) : Out :=
  .next ((s.putM d (op (s.me.mask a) (s.bmask b))).retire { srcs := [], dsts := [], lit := mLit b })

/-- `mand` (R173). -/
def execMand (d a : MReg) (b : MOpd) (s : State) : Out := maskOp (· &&& ·) d a b s
/-- `mor` (R173). -/
def execMor (d a : MReg) (b : MOpd) (s : State) : Out := maskOp (· ||| ·) d a b s
/-- `mxor` (R173). -/
def execMxor (d a : MReg) (b : MOpd) (s : State) : Out := maskOp (· ^^^ ·) d a b s
/-- `mnot` (R173). -/
def execMnot (d a : MReg) (s : State) : Out := .next ((s.putM d (~~~s.me.mask a)).retire (form0 []))
/-- `mpop` (R173). -/
def execMpop (d : SReg) (a : MReg) (s : State) : Out :=
  let q := form0 [.s d]
  s.gate q (.next ((s.put d (BitVec.ofNat 64 (onesBelow (s.me.mask a).toNat 16))).retire q))
/-- `mfirst`: 16 when the mask is 0 (R173). -/
def execMfirst (d : SReg) (a : MReg) (s : State) : Out :=
  let q := form0 [.s d]
  s.gate q (.next ((s.put d (BitVec.ofNat 64 (zerosBelow (s.me.mask a).toNat 16))).retire q))
/-- `mset` (R173). -/
def execMset (d : MReg) (b : SOpd) (s : State) : Out :=
  let q := formB [] b
  s.gate q (.next (((s.pops q).putM d ((s.bval q 0 .zext b).extractLsb' 0 16)).retire q))
/-- `mtest` (R173). -/
def execMtest (d : SReg) (a : MReg) (b : SOpd) (s : State) : Out :=
  let q := formB [.s d] b
  let x := s.me.mask a &&& (s.bval q 0 .zext b).extractLsb' 0 16
  s.gate q (.next (((s.pops q).put d (x.zeroExtend 64)).retire q))

end Sys2Proof.Machine
end

