-- ==== Sys2Proof/Machine/Dispatch.lean ====
section
/-!
DEFINITION. The meaning of every step: one arm per constructor of `Instr`, each one call of its meaning.
-/

namespace Sys2Proof.Machine

/-- The meaning of an instruction or event. -/
def exec (i : Instr) (s : State) : Host.Outcome State Fault Refusal :=
  match i with
  | .add d a b => Sys2Proof.Machine.execAdd d a b s
  | .sub d a b => Sys2Proof.Machine.execSub d a b s
  | .mul d a b => Sys2Proof.Machine.execMul d a b s
  | .mulhI64 d a b => Sys2Proof.Machine.execMulhI64 d a b s
  | .mulhN64 d a b => Sys2Proof.Machine.execMulhN64 d a b s
  | .divI64 d a b => Sys2Proof.Machine.execDivI64 d a b s
  | .divN64 d a b => Sys2Proof.Machine.execDivN64 d a b s
  | .remI64 d a b => Sys2Proof.Machine.execRemI64 d a b s
  | .remN64 d a b => Sys2Proof.Machine.execRemN64 d a b s
  | .and d a b => Sys2Proof.Machine.execAnd d a b s
  | .or d a b => Sys2Proof.Machine.execOr d a b s
  | .xor d a b => Sys2Proof.Machine.execXor d a b s
  | .andn d a b => Sys2Proof.Machine.execAndn d a b s
  | .shl d a b => Sys2Proof.Machine.execShl d a b s
  | .shr d a b => Sys2Proof.Machine.execShr d a b s
  | .sar d a b => Sys2Proof.Machine.execSar d a b s
  | .rol d a b => Sys2Proof.Machine.execRol d a b s
  | .minI64 d a b => Sys2Proof.Machine.execMinI64 d a b s
  | .minN64 d a b => Sys2Proof.Machine.execMinN64 d a b s
  | .maxI64 d a b => Sys2Proof.Machine.execMaxI64 d a b s
  | .maxN64 d a b => Sys2Proof.Machine.execMaxN64 d a b s
  | .sel d a b => Sys2Proof.Machine.execSel d a b s
  | .clz d a => Sys2Proof.Machine.execClz d a s
  | .ctz d a => Sys2Proof.Machine.execCtz d a s
  | .popc d a => Sys2Proof.Machine.execPopc d a s
  | .mov d a => Sys2Proof.Machine.execMov d a s
  | .sextI8 d a => Sys2Proof.Machine.execSextI8 d a s
  | .sextI16 d a => Sys2Proof.Machine.execSextI16 d a s
  | .sextI32 d a => Sys2Proof.Machine.execSextI32 d a s
  | .zextN8 d a => Sys2Proof.Machine.execZextN8 d a s
  | .zextN16 d a => Sys2Proof.Machine.execZextN16 d a s
  | .zextN32 d a => Sys2Proof.Machine.execZextN32 d a s
  | .setEq d a b => Sys2Proof.Machine.execSetEq d a b s
  | .setNe d a b => Sys2Proof.Machine.execSetNe d a b s
  | .setLt d a b => Sys2Proof.Machine.execSetLt d a b s
  | .setGe d a b => Sys2Proof.Machine.execSetGe d a b s
  | .setLtn d a b => Sys2Proof.Machine.execSetLtn d a b s
  | .setGen d a b => Sys2Proof.Machine.execSetGen d a b s
  | .addImm d a imm => Sys2Proof.Machine.execAddImm d a imm s
  | .andImm d a imm => Sys2Proof.Machine.execAndImm d a imm s
  | .orImm d a imm => Sys2Proof.Machine.execOrImm d a imm s
  | .xorImm d a imm => Sys2Proof.Machine.execXorImm d a imm s
  | .shlImm d a n => Sys2Proof.Machine.execShlImm d a n s
  | .shrImm d a n => Sys2Proof.Machine.execShrImm d a n s
  | .sarImm d a n => Sys2Proof.Machine.execSarImm d a n s
  | .rolImm d a n => Sys2Proof.Machine.execRolImm d a n s
  | .bfx d a p n => Sys2Proof.Machine.execBfx d a p n s
  | .bfi d a p n => Sys2Proof.Machine.execBfi d a p n s
  | .li d imm => Sys2Proof.Machine.execLi d imm s
  | .lih d a b => Sys2Proof.Machine.execLih d a b s
  | .lea d a b k => Sys2Proof.Machine.execLea d a b k s
  | .brEq a b off => Sys2Proof.Machine.execBrEq a b off s
  | .brNe a b off => Sys2Proof.Machine.execBrNe a b off s
  | .brLt a b off => Sys2Proof.Machine.execBrLt a b off s
  | .brGe a b off => Sys2Proof.Machine.execBrGe a b off s
  | .brLtn a b off => Sys2Proof.Machine.execBrLtn a b off s
  | .brGen a b off => Sys2Proof.Machine.execBrGen a b off s
  | .brAny a off => Sys2Proof.Machine.execBrAny a off s
  | .brAll a off => Sys2Proof.Machine.execBrAll a off s
  | .brNone a off => Sys2Proof.Machine.execBrNone a off s
  | .brNall a off => Sys2Proof.Machine.execBrNall a off s
  | .bra off => Sys2Proof.Machine.execBra off s
  | .call off => Sys2Proof.Machine.execCall off s
  | .jtab a len => Sys2Proof.Machine.execJtab a len s
  | .jr a => Sys2Proof.Machine.execJr a s
  | .callReg a => Sys2Proof.Machine.execCallReg a s
  | .trap c => Sys2Proof.Machine.execTrap c s
  | .ctlRd d c => Sys2Proof.Machine.execCtlRd d c s
  | .ctlWr a c => Sys2Proof.Machine.execCtlWr a c s
  | .ctlSet a c => Sys2Proof.Machine.execCtlSet a c s
  | .ctlClr a c => Sys2Proof.Machine.execCtlClr a c s
  | .fence a scope => Sys2Proof.Machine.execFence a scope s
  | .fadd d a b t => Sys2Proof.Machine.execFadd d a b t s
  | .fsub d a b t => Sys2Proof.Machine.execFsub d a b t s
  | .fmul d a b t => Sys2Proof.Machine.execFmul d a b t s
  | .fdiv d a b t => Sys2Proof.Machine.execFdiv d a b t s
  | .fmin d a b t => Sys2Proof.Machine.execFmin d a b t s
  | .fmax d a b t => Sys2Proof.Machine.execFmax d a b t s
  | .fsgn d a b t => Sys2Proof.Machine.execFsgn d a b t s
  | .fma d a b t => Sys2Proof.Machine.execFma d a b t s
  | .fms d a b t => Sys2Proof.Machine.execFms d a b t s
  | .fnma d a b t => Sys2Proof.Machine.execFnma d a b t s
  | .fsqrt d a t => Sys2Proof.Machine.execFsqrt d a t s
  | .fcmp d a b t => Sys2Proof.Machine.execFcmp d a b t s
  | .fclass d a t => Sys2Proof.Machine.execFclass d a t s
  | .fcvt d a k j => Sys2Proof.Machine.execFcvt d a k j s
  | .liF32 d imm => Sys2Proof.Machine.execLiF32 d imm s
  | .faddCb d a t c => Sys2Proof.Machine.execFaddCb d a t c s
  | .fsubCb d a t c => Sys2Proof.Machine.execFsubCb d a t c s
  | .fmulCb d a t c => Sys2Proof.Machine.execFmulCb d a t c s
  | .fmaCb d a t c => Sys2Proof.Machine.execFmaCb d a t c s
  | .fminCb d a t c => Sys2Proof.Machine.execFminCb d a t c s
  | .fmaxCb d a t c => Sys2Proof.Machine.execFmaxCb d a t c s
  | .vaddI32 d a b m => Sys2Proof.Machine.execVaddI32 d a b m s
  | .vsubI32 d a b m => Sys2Proof.Machine.execVsubI32 d a b m s
  | .vmulI32 d a b m => Sys2Proof.Machine.execVmulI32 d a b m s
  | .vminI32 d a b m => Sys2Proof.Machine.execVminI32 d a b m s
  | .vminN32 d a b m => Sys2Proof.Machine.execVminN32 d a b m s
  | .vmaxI32 d a b m => Sys2Proof.Machine.execVmaxI32 d a b m s
  | .vmaxN32 d a b m => Sys2Proof.Machine.execVmaxN32 d a b m s
  | .vandI32 d a b m => Sys2Proof.Machine.execVandI32 d a b m s
  | .vorI32 d a b m => Sys2Proof.Machine.execVorI32 d a b m s
  | .vxorI32 d a b m => Sys2Proof.Machine.execVxorI32 d a b m s
  | .vshlI32 d a b m => Sys2Proof.Machine.execVshlI32 d a b m s
  | .vshrI32 d a b m => Sys2Proof.Machine.execVshrI32 d a b m s
  | .vsarI32 d a b m => Sys2Proof.Machine.execVsarI32 d a b m s
  | .vaddFp d a b m t => Sys2Proof.Machine.execVaddFp d a b m t s
  | .vsubFp d a b m t => Sys2Proof.Machine.execVsubFp d a b m t s
  | .vmulFp d a b m t => Sys2Proof.Machine.execVmulFp d a b m t s
  | .vfma d a b m t => Sys2Proof.Machine.execVfma d a b m t s
  | .vminFp d a b m t => Sys2Proof.Machine.execVminFp d a b m t s
  | .vmaxFp d a b m t => Sys2Proof.Machine.execVmaxFp d a b m t s
  | .vcmp d a b m t p => Sys2Proof.Machine.execVcmp d a b m t p s
  | .vsel d a b k => Sys2Proof.Machine.execVsel d a b k s
  | .vfclass d a m t => Sys2Proof.Machine.execVfclass d a m t s
  | .vbcast d a m => Sys2Proof.Machine.execVbcast d a m s
  | .vins d a b => Sys2Proof.Machine.execVins d a b s
  | .vextN32 d a b => Sys2Proof.Machine.execVextN32 d a b s
  | .vextI32 d a b => Sys2Proof.Machine.execVextI32 d a b s
  | .vperm d a b m => Sys2Proof.Machine.execVperm d a b m s
  | .vslide d a b m => Sys2Proof.Machine.execVslide d a b m s
  | .vredsum d a k t => Sys2Proof.Machine.execVredsum d a k t s
  | .vredmax d a k t => Sys2Proof.Machine.execVredmax d a k t s
  | .vredmin d a k t => Sys2Proof.Machine.execVredmin d a k t s
  | .vdot8E4m3 d a b m => Sys2Proof.Machine.execVdot8E4m3 d a b m s
  | .vdot8E5m2 d a b m => Sys2Proof.Machine.execVdot8E5m2 d a b m s
  | .vdot8I8 d a b m => Sys2Proof.Machine.execVdot8I8 d a b m s
  | .vdottT2 d a b m => Sys2Proof.Machine.execVdottT2 d a b m s
  | .vcvt d a m k j => Sys2Proof.Machine.execVcvt d a m k j s
  | .vqnt d a b f => Sys2Proof.Machine.execVqnt d a b f s
  | .vdqnt d a b f => Sys2Proof.Machine.execVdqnt d a b f s
  | .vrecip d a m t => Sys2Proof.Machine.execVrecip d a m t s
  | .vrsqrt d a m t => Sys2Proof.Machine.execVrsqrt d a m t s
  | .vexp2 d a m t => Sys2Proof.Machine.execVexp2 d a m t s
  | .vbcastF32 d imm => Sys2Proof.Machine.execVbcastF32 d imm s
  | .vaddCb d a m t c => Sys2Proof.Machine.execVaddCb d a m t c s
  | .vsubCb d a m t c => Sys2Proof.Machine.execVsubCb d a m t c s
  | .vmulCb d a m t c => Sys2Proof.Machine.execVmulCb d a m t c s
  | .vfmaCb d a m t c => Sys2Proof.Machine.execVfmaCb d a m t c s
  | .vminCb d a m t c => Sys2Proof.Machine.execVminCb d a m t c s
  | .vmaxCb d a m t c => Sys2Proof.Machine.execVmaxCb d a m t c s
  | .mand d a b => Sys2Proof.Machine.execMand d a b s
  | .mor d a b => Sys2Proof.Machine.execMor d a b s
  | .mxor d a b => Sys2Proof.Machine.execMxor d a b s
  | .mnot d a => Sys2Proof.Machine.execMnot d a s
  | .mpop d a => Sys2Proof.Machine.execMpop d a s
  | .mfirst d a => Sys2Proof.Machine.execMfirst d a s
  | .mset d b => Sys2Proof.Machine.execMset d b s
  | .mtest d a b => Sys2Proof.Machine.execMtest d a b s
  | .ldI8 d b h off => Sys2Proof.Machine.execLdI8 d b h off s
  | .ldN8 d b h off => Sys2Proof.Machine.execLdN8 d b h off s
  | .ldI16 d b h off => Sys2Proof.Machine.execLdI16 d b h off s
  | .ldN16 d b h off => Sys2Proof.Machine.execLdN16 d b h off s
  | .ldI32 d b h off => Sys2Proof.Machine.execLdI32 d b h off s
  | .ldN32 d b h off => Sys2Proof.Machine.execLdN32 d b h off s
  | .ldI64 d b h off => Sys2Proof.Machine.execLdI64 d b h off s
  | .stI8 d b h off => Sys2Proof.Machine.execStI8 d b h off s
  | .stI16 d b h off => Sys2Proof.Machine.execStI16 d b h off s
  | .stI32 d b h off => Sys2Proof.Machine.execStI32 d b h off s
  | .stI64 d b h off => Sys2Proof.Machine.execStI64 d b h off s
  | .vld d b h off => Sys2Proof.Machine.execVld d b h off s
  | .vst d b h off => Sys2Proof.Machine.execVst d b h off s
  | .ldSp d b z off => Sys2Proof.Machine.execLdSp d b z off s
  | .ldSpN d b z off => Sys2Proof.Machine.execLdSpN d b z off s
  | .stSp d b z off => Sys2Proof.Machine.execStSp d b z off s
  | .ldsync d b mem wide off => Sys2Proof.Machine.execLdsync d b mem wide off s
  | .vldSp d b off => Sys2Proof.Machine.execVldSp d b off s
  | .vstSp d b off => Sys2Proof.Machine.execVstSp d b off s
  | .stfill a b mem wide => Sys2Proof.Machine.execStfill a b mem wide s
  | .clrfe a b mem => Sys2Proof.Machine.execClrfe a b mem s
  | .lda d a narrow => Sys2Proof.Machine.execLda d a narrow s
  | .stl a b narrow => Sys2Proof.Machine.execStl a b narrow s
  | .pref a => Sys2Proof.Machine.execPref a s
  | .prefSt a => Sys2Proof.Machine.execPrefSt a s
  | .prefSk a => Sys2Proof.Machine.execPrefSk a s
  | .drain p => Sys2Proof.Machine.execDrain p s
  | .vgather d a b m sp => Sys2Proof.Machine.execVgather d a b m sp s
  | .vscatter d a b m sp => Sys2Proof.Machine.execVscatter d a b m sp s
  | .amoAdd d a b wide => Sys2Proof.Machine.execAmoAdd d a b wide s
  | .amoMinI d a b wide => Sys2Proof.Machine.execAmoMinI d a b wide s
  | .amoMinN d a b wide => Sys2Proof.Machine.execAmoMinN d a b wide s
  | .amoMaxI d a b wide => Sys2Proof.Machine.execAmoMaxI d a b wide s
  | .amoMaxN d a b wide => Sys2Proof.Machine.execAmoMaxN d a b wide s
  | .amoAnd d a b wide => Sys2Proof.Machine.execAmoAnd d a b wide s
  | .amoOr d a b wide => Sys2Proof.Machine.execAmoOr d a b wide s
  | .amoXor d a b wide => Sys2Proof.Machine.execAmoXor d a b wide s
  | .amoSwap d a b wide => Sys2Proof.Machine.execAmoSwap d a b wide s
  | .amoCas d a b wide => Sys2Proof.Machine.execAmoCas d a b wide s
  | .amoStadd a b wide => Sys2Proof.Machine.execAmoStadd a b wide s
  | .amoStminI a b wide => Sys2Proof.Machine.execAmoStminI a b wide s
  | .amoStminN a b wide => Sys2Proof.Machine.execAmoStminN a b wide s
  | .amoStmaxI a b wide => Sys2Proof.Machine.execAmoStmaxI a b wide s
  | .amoStmaxN a b wide => Sys2Proof.Machine.execAmoStmaxN a b wide s
  | .amoStand a b wide => Sys2Proof.Machine.execAmoStand a b wide s
  | .amoStor a b wide => Sys2Proof.Machine.execAmoStor a b wide s
  | .amoStxor a b wide => Sys2Proof.Machine.execAmoStxor a b wide s
  | .amoStswap a b wide => Sys2Proof.Machine.execAmoStswap a b wide s
  | .amoStcas d a b wide => Sys2Proof.Machine.execAmoStcas d a b wide s
  | .famoAdd d a b => Sys2Proof.Machine.execFamoAdd d a b s
  | .famoStadd a b => Sys2Proof.Machine.execFamoStadd a b s
  | .tld a b peek => Sys2Proof.Machine.execTld a b peek s
  | .tst a b => Sys2Proof.Machine.execTst a b s
  | .twait a => Sys2Proof.Machine.execTwait a s
  | .twaitY a => Sys2Proof.Machine.execTwaitY a s
  | .tdrop a => Sys2Proof.Machine.execTdrop a s
  | .tpeek d a b => Sys2Proof.Machine.execTpeek d a b s
  | .thmake d a b => Sys2Proof.Machine.execThmake d a b s
  | .tq d a => Sys2Proof.Machine.execTq d a s
  | .spawn a b => Sys2Proof.Machine.execSpawn a b s
  | .spawnk a b => Sys2Proof.Machine.execSpawnk a b s
  | .launch a => Sys2Proof.Machine.execLaunch a s
  | .reap d a b => Sys2Proof.Machine.execReap d a b s
  | .path d b => Sys2Proof.Machine.execPath d b s
  | .recLd d b => Sys2Proof.Machine.execRecLd d b s
  | .callr d a b => Sys2Proof.Machine.execCallr d a b s
  | .reply a => Sys2Proof.Machine.execReply a s
  | .chanCfg a => Sys2Proof.Machine.execChanCfg a s
  | .chanCfgRel a => Sys2Proof.Machine.execChanCfgRel a s
  | .rejoin a b => Sys2Proof.Machine.execRejoin a b s
  | .lockstep a => Sys2Proof.Machine.execLockstep a s
  | .crewid d => Sys2Proof.Machine.execCrewid d s
  | .rvInit a b => Sys2Proof.Machine.execRvInit a b s
  | .rvArr d a => Sys2Proof.Machine.execRvArr d a s
  | .rvWait a b => Sys2Proof.Machine.execRvWait a b s
  | .boAdd a b sp => Sys2Proof.Machine.execBoAdd a b sp s
  | .boInit a b sp => Sys2Proof.Machine.execBoInit a b sp s
  | .boArr d a sp => Sys2Proof.Machine.execBoArr d a sp s
  | .boWait a b sp => Sys2Proof.Machine.execBoWait a b sp s
  | .gset g b => Sys2Proof.Machine.execGset g b s
  | .gclr g => Sys2Proof.Machine.execGclr g s
  | .digestAdd a b => Sys2Proof.Machine.execDigestAdd a b s
  | .digestEnd d a b => Sys2Proof.Machine.execDigestEnd d a b s
  | .cpushM d a hi => Sys2Proof.Machine.execCpushM d a hi s
  | .cpushC d a hi => Sys2Proof.Machine.execCpushC d a hi s
  | .cpushG d a hi => Sys2Proof.Machine.execCpushG d a hi s
  | .cwaitM a => Sys2Proof.Machine.execCwaitM a s
  | .cwaitC a => Sys2Proof.Machine.execCwaitC a s
  | .cwaitG a => Sys2Proof.Machine.execCwaitG a s
  | .cseqM d => Sys2Proof.Machine.execCseqM d s
  | .cseqC d => Sys2Proof.Machine.execCseqC d s
  | .cseqG d => Sys2Proof.Machine.execCseqG d s
  | .abind d b => Sys2Proof.Machine.execAbind d b s
  | .skimRow d => Sys2Proof.Machine.execSkimRow d s
  | .skimEnd a b => Sys2Proof.Machine.execSkimEnd a b s
  | .nop => Sys2Proof.Machine.execNop s
  | .eret => Sys2Proof.Machine.execEret s
  | .halt => Sys2Proof.Machine.execHalt s
  | .texit => Sys2Proof.Machine.execTexit s
  | .yield => Sys2Proof.Machine.execYield s
  | .detach => Sys2Proof.Machine.execDetach s
  | .split => Sys2Proof.Machine.execSplit s
  | .arel => Sys2Proof.Machine.execArel s
  | .mmaE4m3 p => Sys2Proof.Machine.execMmaE4m3 p s
  | .mmaE5m2 p => Sys2Proof.Machine.execMmaE5m2 p s
  | .mmaBf16 p => Sys2Proof.Machine.execMmaBf16 p s
  | .mmaI8 p => Sys2Proof.Machine.execMmaI8 p s
  | .mmaT2 p => Sys2Proof.Machine.execMmaT2 p s
  | .mzero p => Sys2Proof.Machine.execMzero p s
  | .mdrain p => Sys2Proof.Machine.execMdrain p s
  | .ringCfg p e => Sys2Proof.Machine.execRingCfg p e s
  | .ringAdv p e => Sys2Proof.Machine.execRingAdv p e s
  | .ringReset p e => Sys2Proof.Machine.execRingReset p e s
  | .copy p => Sys2Proof.Machine.execCopy p s
  | .copy2 p => Sys2Proof.Machine.execCopy2 p s
  | .copyQ p => Sys2Proof.Machine.execCopyQ p s
  | .copyVLoad p => Sys2Proof.Machine.execCopyVLoad p s
  | .copyVStore p => Sys2Proof.Machine.execCopyVStore p s
  | .tfill p => Sys2Proof.Machine.execTfill p s
  | .gather p => Sys2Proof.Machine.execGather p s
  | .gdist p => Sys2Proof.Machine.execGdist p s
  | .topkMerge p => Sys2Proof.Machine.execTopkMerge p s
  | .commandEnd p e => Sys2Proof.Machine.execCommandEnd p e s
  | .postedCauseTaken p => Sys2Proof.Machine.execPostedCauseTaken p s
  | .lateOutcomeTaken p => Sys2Proof.Machine.execLateOutcomeTaken p s
  | .fillLand p id part => Sys2Proof.Machine.execFillLand p id part s
  | .tileDelivery n w => Sys2Proof.Machine.execTileDelivery n w s
  | .frontEndDecode c => Sys2Proof.Machine.execFrontEndDecode c s
  | .crewStallDetach c m => Sys2Proof.Machine.execCrewStallDetach c m s
  | .abindGrant p => Sys2Proof.Machine.execAbindGrant p s
  | .arrayLeaseGrant cl => Sys2Proof.Machine.execArrayLeaseGrant cl s
  | .arrayLeaseIdleEnd cl => Sys2Proof.Machine.execArrayLeaseIdleEnd cl s
  | .mdrainRowRead p => Sys2Proof.Machine.execMdrainRowRead p s
  | .ringTilePublish cl r => Sys2Proof.Machine.execRingTilePublish cl r s
  | .recordArrival die n => Sys2Proof.Machine.execRecordArrival die n s
  | .panOverflowReturn die => Sys2Proof.Machine.execPanOverflowReturn die s
  | .dispatch die => Sys2Proof.Machine.execDispatch die s
  | .launchExpansion n => Sys2Proof.Machine.execLaunchExpansion n s
  | .instanceComplete n => Sys2Proof.Machine.execInstanceComplete n s
  | .launchComplete n => Sys2Proof.Machine.execLaunchComplete n s
  | .idleDieSteal die => Sys2Proof.Machine.execIdleDieSteal die s
  | .stealRequest die => Sys2Proof.Machine.execStealRequest die s
  | .replyDelivery n => Sys2Proof.Machine.execReplyDelivery n s
  | .versionRequest die n => Sys2Proof.Machine.execVersionRequest die n s
  | .versionStoreRequest die n pick => Sys2Proof.Machine.execVersionStoreRequest die n pick s
  | .versionCopyDone die n => Sys2Proof.Machine.execVersionCopyDone die n s
  | .arrivalNotice die n => Sys2Proof.Machine.execArrivalNotice die n s
  | .sliceWrite p id part => Sys2Proof.Machine.execSliceWrite p id part s
  | .sharerUpdateAck key core => Sys2Proof.Machine.execSharerUpdateAck key core s
  | .directoryRequest die key wr => Sys2Proof.Machine.execDirectoryRequest die key wr s
  | .invalidateAck die key => Sys2Proof.Machine.execInvalidateAck die key s
  | .l2Eviction die key => Sys2Proof.Machine.execL2Eviction die key s
  | .migrationMove die => Sys2Proof.Machine.execMigrationMove die s
  | .migrationSwitch die => Sys2Proof.Machine.execMigrationSwitch die s
  | .l3MissTranslate p id part => Sys2Proof.Machine.execL3MissTranslate p id part s
  | .mailboxSpacePost n => Sys2Proof.Machine.execMailboxSpacePost n s
  | .rakeWalk p => Sys2Proof.Machine.execRakeWalk p s
  | .walkAnswer n => Sys2Proof.Machine.execWalkAnswer n s
  | .faultMessage n => Sys2Proof.Machine.execFaultMessage n s
  | .wake n => Sys2Proof.Machine.execWake n s
  | .versionWaitTimeout n => Sys2Proof.Machine.execVersionWaitTimeout n s
  | .syncTimeout p id => Sys2Proof.Machine.execSyncTimeout p id s
  | .rejoinTimeout c => Sys2Proof.Machine.execRejoinTimeout c s
  | .fpcsrWrite op a => Sys2Proof.Machine.execFpcsrWrite op a s
  | .tlbinvPage op a => Sys2Proof.Machine.execTlbinvPage op a s
  | .tlbinvAsid op a => Sys2Proof.Machine.execTlbinvAsid op a s
  | .tlbinvAll op a => Sys2Proof.Machine.execTlbinvAll op a s
  | .fresResident op a => Sys2Proof.Machine.execFresResident op a s
  | .fresRefused op a => Sys2Proof.Machine.execFresRefused op a s
  | .preemptRequest die => Sys2Proof.Machine.execPreemptRequest die s
  | .resumeRequest op a => Sys2Proof.Machine.execResumeRequest op a s
  | .vpurgeStart op a => Sys2Proof.Machine.execVpurgeStart op a s
  | .vpurgeDone die => Sys2Proof.Machine.execVpurgeDone die s
  | .memcfgWrite op a => Sys2Proof.Machine.execMemcfgWrite op a s
  | .migtlTailWrite op a => Sys2Proof.Machine.execMigtlTailWrite op a s
  | .fqtlHeadWrite op a => Sys2Proof.Machine.execFqtlHeadWrite op a s
  | .secpolWrite op a => Sys2Proof.Machine.execSecpolWrite op a s
  | .debugHalt die => Sys2Proof.Machine.execDebugHalt die s
  | .debugResume die => Sys2Proof.Machine.execDebugResume die s
  | .debugStep die => Sys2Proof.Machine.execDebugStep die s
  | .debugSnap die => Sys2Proof.Machine.execDebugSnap die s
  | .dbgcopyBank op a => Sys2Proof.Machine.execDbgcopyBank op a s
  | .dbgcopyTileSlot op a => Sys2Proof.Machine.execDbgcopyTileSlot op a s
  | .dbgcopyRendezvous op a => Sys2Proof.Machine.execDbgcopyRendezvous op a s
  | .dbgcopyRings op a => Sys2Proof.Machine.execDbgcopyRings op a s
  | .dbgcopyMailbox op a => Sys2Proof.Machine.execDbgcopyMailbox op a s
  | .ctlRegisterWrite op c a => Sys2Proof.Machine.execCtlRegisterWrite op c a s
  | .doorbell die slot => Sys2Proof.Machine.execDoorbell die slot s
  | .feataccStage k x => Sys2Proof.Machine.execFeataccStage k x s
  | .feataccCommit x => Sys2Proof.Machine.execFeataccCommit x s
  | .pkgnumWrite x => Sys2Proof.Machine.execPkgnumWrite x s
  | .watchArm n => Sys2Proof.Machine.execWatchArm n s
  | .watchDisarm n => Sys2Proof.Machine.execWatchDisarm n s
  | .watchNotice n => Sys2Proof.Machine.execWatchNotice n s
  | .hostRegisterWrite off size x => Sys2Proof.Machine.execHostRegisterWrite off size x s
  | .hostCxlMemAccess addr wr bytes => Sys2Proof.Machine.execHostCxlMemAccess addr wr bytes s
  | .nvmeCompletion n ok bytes => Sys2Proof.Machine.execNvmeCompletion n ok bytes s
  | .nvmeTimeout n => Sys2Proof.Machine.execNvmeTimeout n s
  | .attestationRequest nonce => Sys2Proof.Machine.execAttestationRequest nonce s
  | .vreq hdr body => Sys2Proof.Machine.execVreq hdr body s
  | .vcancel hdr body => Sys2Proof.Machine.execVcancel hdr body s
  | .vnote hdr body => Sys2Proof.Machine.execVnote hdr body s
  | .vstore hdr body => Sys2Proof.Machine.execVstore hdr body s
  | .vdata hdr body => Sys2Proof.Machine.execVdata hdr body s
  | .vans hdr body => Sys2Proof.Machine.execVans hdr body s
  | .recMsg hdr body => Sys2Proof.Machine.execRecMsg hdr body s
  | .pgreq hdr body => Sys2Proof.Machine.execPgreq hdr body s
  | .pghand hdr body => Sys2Proof.Machine.execPghand hdr body s
  | .pgack hdr body => Sys2Proof.Machine.execPgack hdr body s
  | .pggrant hdr body => Sys2Proof.Machine.execPggrant hdr body s
  | .linerd hdr body => Sys2Proof.Machine.execLinerd hdr body s
  | .linedata hdr body => Sys2Proof.Machine.execLinedata hdr body s
  | .linewb hdr body => Sys2Proof.Machine.execLinewb hdr body s
  | .binit hdr body => Sys2Proof.Machine.execBinit hdr body s
  | .barr hdr body => Sys2Proof.Machine.execBarr hdr body s
  | .brel hdr body => Sys2Proof.Machine.execBrel hdr body s
  | .digest hdr body => Sys2Proof.Machine.execDigest hdr body s
  | .incarn hdr body => Sys2Proof.Machine.execIncarn hdr body s
  | .dieReset die => Sys2Proof.Machine.execDieReset die s
  | .supervisorStart die => Sys2Proof.Machine.execSupervisorStart die s
  | .rakeStart p => Sys2Proof.Machine.execRakeStart p s
  | .controllerBoot images => Sys2Proof.Machine.execControllerBoot images s
  | .eccError unit addr lasting => Sys2Proof.Machine.execEccError unit addr lasting s
  | .dieLoss die => Sys2Proof.Machine.execDieLoss die s
  | .d2dLinkFailure reach => Sys2Proof.Machine.execD2dLinkFailure reach s
  | .linkDown link => Sys2Proof.Machine.execLinkDown link s
  | .securityAlarm src => Sys2Proof.Machine.execSecurityAlarm src s
  | .clockThrottle low => Sys2Proof.Machine.execClockThrottle low s
  | .illegalOpcode w => Sys2Proof.Machine.execIllegalOpcode w s
  | .linkUp link => Sys2Proof.Machine.execLinkUp link s

end Sys2Proof.Machine
end

