-- ==== Sys2Proof/Machine/Issue.lean ====
section
/-!
DEFINITION. One turn of a thread slot: what happens at its instruction boundary (R365), the constant image before its
first instruction (R306), and the issue of the instruction that it fetches or that its crew's front end has decoded
(R298, R329–R333).
-/

namespace Sys2Proof.Machine

/-- The issuing slot reads `n` entries of a constant image from entry `k` on; a failure is given with its address. -/
def State.readImage (s : State) (image : Nat) : Nat → Nat → State × Option (Nat × Nat)
  | 0, _ => (s, none)
  | n + 1, k =>
    let a := image + 4 * k
    if 2 ^ 56 ≤ a then (s, some (0x43, a))
    else
      match s.cohRead (.slot s.cur) (dieOf s.cur) s.me.asid.toNat a 4 { r := true, u := true } with
      | (t, .error c) => (t, some (c, a))
      | (t, .ok b) =>
        (t.modMe fun x => { x with cb := x.cb.setIfInBounds k (BitVec.ofNat 32 (ofBytes b)) }).readImage image n (k + 1)

/-- The constant image of a task is read before its first instruction: a page that is not present parks the task, and
any other failure traps (R306). -/
def State.loadImage (s : State) (image n : Nat) : Out :=
  match s.readImage image n 0 with
  | (t, none) => .next (t.modMe fun x => { x with cimg := none })
  | (t, some (c, a)) =>
    if c == 1 then t.waits
    else if c == 0 then t.act (t.park t.cur { cause := 0x40, addr := a, id := none, refused := false } 0)
    else (t.modMe fun x => { x with cimg := none }).trap c (BitVec.ofNat 64 a) false

/-- What was fetched takes effect: the instruction, the trap of a word that is none, or the failure of the fetch. -/
def State.run (s : State) (g : Got) : Out :=
  match g with
  | .instr i => exec i s
  | .bad w .opcode => execIllegalOpcode w s
  | .bad w (.field f) => s.illegalField w f
  | .fault f => s.fetchFault f

/-- What an entry of a decoded buffer holds. A literal that the decode left unfetched, since the feature of its instruction was not
accepted then, is fetched once it is (steps 4 and 6 of R68). -/
def State.got (s : State) (e : Decoded) : State × Got :=
  match decode e.word.toNat (e.lit.getD 0) with
  | .error r => (s, .bad e.word r)
  | .ok i =>
    if i.literal.isSome && e.lit.isNone && (literalFeature i).all s.feature then
      match s.fetchWord s.cur (e.pc + 4) with
      | (t, .word l) => (t, match decode e.word.toNat l with | .ok j => .instr j | .error r => .bad e.word r)
      | (t, f) => (t, .fault f)
    else (s, .instr i)

/-- The issuing slot runs an entry of its decoded buffer. -/
def State.runEntry (s : State) (e : Decoded) : Out :=
  let r := s.got e
  r.1.run r.2

/-- A slot issues now: it runs a program on a die that is in service and not quiesced, is not halted, and its core has not
issued in this cycle (R333, R402, R413); a detached crew member issues at most every second cycle (R331). -/
def State.canIssue (s : State) (p : Nat) : Bool :=
  let x := s.slot p
  s.atBoundary p && x.use != .rake && decide ((s.core (coreOf p)).issued ≤ s.now) &&
    s.up.getLsbD (dieOf p) && !(s.die (dieOf p)).quiet &&
    (!x.crew || s.attached p || decide (x.issued + 2 ≤ s.now))

/-- Nothing comes before the next instruction of a slot (R365, R306). -/
def State.clear (s : State) (p : Nat) : Bool :=
  (s.readyOutcomes p).isEmpty && (s.slot p).posted.isEmpty && (s.slot p).cimg == none && (s.slot p).redo.isNone

/-- Attached members of the issuing slot's crew. -/
def State.mates (s : State) : List Nat :=
  ((List.range 8).filter fun m => (s.crew (s.crewKey s.cur)).att.getLsbD m).map (crewSlot (s.crewKey s.cur))

/-- The next entry of an attached member. -/
def State.entry (s : State) (p : Nat) : Option Decoded := (s.crew (s.crewKey p)).head (memberOf p)

/-- A member of a crew runs an entry. -/
def State.runAs (s : State) (p : Nat) (e : Option Decoded) : Out :=
  match e with
  | some e => { s with cur := p }.runEntry e
  | none => .next s

/-- A member has issued its entry, or left the attached set. -/
def State.hasIssued (s : State) (p : Nat) : Out → Bool
  | .next t => !t.attached p || (t.crew (s.crewKey p)).bufs.getD (memberOf p) [] != (s.crew (s.crewKey p)).bufs.getD (memberOf p) []
  | _ => true

/-- The entries of several members, one after another. -/
def State.runAll (s : State) : List (Nat × Option Decoded) → Out
  | [] => .next s
  | (p, e) :: l => match s.runAs p e with | .next t => t.runAll l | r => r

/-- An attached member has an entry to issue and is not ready to issue it. -/
def State.holdsBack (s : State) (m : Nat × Option Decoded) : Bool :=
  m.2.isSome && !(s.canIssue m.1 && s.clear m.1 && s.hasIssued m.1 (s.runAs m.1 m.2))

/-- Members that hold the others back, each since it began to (R331). -/
def State.markHeld (s : State) (ck : Nat) (l : List Nat) : State :=
  s.modCrew ck fun c => { c with heldAt := l.foldl (fun h m => h.set m (c.heldAt.getD m s.now)) [] }

/-- Attached members at the first instruction that some attached member has still to issue: those with most entries left.
Where LOCK was set while members had drifted, the others wait until these have caught up (R228, R331). -/
def State.rearmost (s : State) : List Nat :=
  let left (p : Nat) : Nat := ((s.crew (s.crewKey p)).bufs.getD (memberOf p) []).length
  s.mates.filter fun p => s.mates.all fun q => left q ≤ left p

/-- In lockstep every attached member issues an instruction in the same cycle, or none does (R331); what an instruction does
before its issue, it does in its slot's own turn. -/
def State.issueLocked (s : State) : Out :=
  let ms := s.rearmost.map fun p => (p, s.entry p)
  let held := (ms.filter s.holdsBack).map fun m => memberOf m.1
  let t := s.markHeld (s.crewKey s.cur) held
  if !ms.all (fun m => s.canIssue m.1 && s.clear m.1 && m.2.isSome) then .next t
  else if held.isEmpty then t.runAll ms
  else if !s.rearmost.contains s.cur then .next t
  else
    let r := t.runAs t.cur (t.entry t.cur)
    if t.hasIssued t.cur r then .next t else r

/-- The issuing slot issues its next instruction: from its decoded buffer as an attached member of a crew, else by fetch
at PC. An attached member whose buffer is empty waits for the front end, unless the fetch at the decode point fails. -/
def State.issueNext (s : State) : Out :=
  let p := s.cur
  if s.attached p then
    let c := s.crew (s.crewKey p)
    match s.entry p with
    | some e => if c.lock then s.issueLocked else s.runEntry e
    | none =>
      match s.fetchInstr p s.me.pc with
      | (t, .fault f, _) => if c.await == none && c.dpc == s.me.pc then t.fetchFault f else .next s
      | _ => .next s
  else
    match s.fetchInstr p s.me.pc with
    | (t, g, _) => t.run g

/-- The turn of a slot: ready late outcomes, then posted causes, then the constant image, then a barrier instruction that has still
to be performed, then an instruction (R365). -/
def State.issue (s : State) (p : Nat) : Out :=
  let s := { s with cur := p }
  if !s.canIssue p then .next s
  else if !(s.readyOutcomes p).isEmpty then execLateOutcomeTaken p s
  else if !s.me.posted.isEmpty then execPostedCauseTaken p s
  else
    match s.me.cimg with
    | some (a, n) => s.loadImage a n
    | none =>
      match s.me.redo with
      | some r => s.redoBarrier r
      | none => s.issueNext

/-- A step of the table that comes about by itself and is no instruction of a program: the rest are issued by slots. -/
def Instr.spontaneous (i : Instr) : Bool :=
  match i with
  | .illegalOpcode _ => false
  | .fpcsrWrite .. | .tlbinvPage .. | .tlbinvAsid .. | .tlbinvAll .. | .fresResident .. | .fresRefused .. => false
  | .resumeRequest .. | .vpurgeStart .. | .memcfgWrite .. | .migtlTailWrite .. | .fqtlHeadWrite .. | .secpolWrite .. => false
  | .dbgcopyBank .. | .dbgcopyTileSlot .. | .dbgcopyRendezvous .. | .dbgcopyRings .. | .dbgcopyMailbox .. => false
  | .ctlRegisterWrite .. => false
  | i => (encode i).isNone

/-- Cores of a die that have issued in the present cycle. -/
def State.issuedCores (s : State) (d : Nat) : Nat := (s.cores.filter fun e => e.1 / 128 == d && e.2.issued == s.now + 1).length

/-- `n` cycles pass: the cores that do not issue in them are counted (event 0x02 of R416). -/
def State.pass (s : State) (n : Nat) : State :=
  if n == 0 then s
  else
    { s with
      now := s.now + n,
      dies := s.dies.map fun e => (e.1, { e.2 with pmc := e.2.pmc.map (countWord 0x02 (n * 128 - s.issuedCores e.1)) }) }

/-- One turn: cycles pass, then a slot has its turn or a unit acts (entry 4). -/
def State.takeTurn (s : State) : Out :=
  let s := s.pass s.turn.elapsed
  match s.turn.act with
  | .issue p => s.issue p
  | .event i => if Instr.spontaneous i then exec i s else .next s

/-- The turn is over: the next one is the agenda's (entry 4). -/
def State.endTurn (s : State) : State := { s with tick := s.tick + 1, turn := Config.agenda (s.tick + 1) }

/-- The supervisor slot of compute die 0 (R32), which `State.withFetchWord` lets run. -/
def bootSlot : Nat := 13

/-- A slot that runs as a supervisor from its PC, with nothing pending (R32). -/
def Slot.awake (x : Slot) (tid : Nat) : Slot :=
  { x with use := .supervisor, priv := 1, asid := 0, crew := false, halted := false, tid := if x.tid == 0 then tid else x.tid,
           late := [], posted := [], wait := .none, cimg := none, owed := none, laterHeld := 0, redo := none,
           accs := x.accs.filter fun a => a.failed == none }

end Sys2Proof.Machine
end

