-- ==== Sys2Proof/Machine/Step.lean ====
section
/-!
DEFINITION. The step of the machine: the turn that the state names, and then the next turn.
-/

namespace Sys2Proof.Machine

/-- One step. -/
def step (s : State) : Host.Outcome State Fault Refusal :=
  match s.takeTurn with
  | .next t => .next t.endTurn
  | .fault r => .fault r
  | .refused r => .refused r

/-- The state in which the next step fetches and runs an instruction with the bits `w`: it stands at the PC of the
supervisor slot of die 0, which runs and has the turn, and no fetch finds what stood there before (entry 8). -/
def State.withFetchWord (s : State) (_nbits w : Nat) : State :=
  let s := (s.modSlot bootSlot fun x => x.awake (s.seq + 1)).modCore (coreOf bootSlot) fun c => { c.clearCode with issued := 0 }
  let s := s.modCluster (clusterOf bootSlot) Cluster.clearCode
  let pc := (s.slot bootSlot).pc.toNat
  let s := s.putPhys pc (toBytes 8 w)
  { s with olds := s.olds.filter fun o => o.frame != pc / 64 * 64 && o.frame != (pc + 7) / 64 * 64, turn := { elapsed := 0, act := .issue bootSlot } }

end Sys2Proof.Machine
end

