-- ==== Sys2Proof/Safety.lean ====
section
/-!
DEFINITION. What counts as a safe run: no step of it stops, and every state of it keeps its invariant.
-/

namespace Sys2Proof.Machine

/-- Memory is in canonical form and the base feature set is accepted (R6, R7; entry 1). -/
def State.Inv (s : State) : Prop := s.mem.wf = true ∧ s.feat.getLsbD 0 = true

end Sys2Proof.Machine
end

