-- ==== Sys2Proof/Certificates/Slice0/Obligations.lean ====
section
/-!
DEFINITION. The statements for the provers, file by file of the spec; `Sys2Proof.Claims` holds what several of them share, and
the parts of those that have more than one.
-/

/-! ### What a statement compares -/

namespace Sys2Proof.Claims
open Sys2Proof.Machine

/-- Outside one slot, its core, its crew and the event counters of the dies, nothing of the state has changed. -/
def OnlySlot (p : Nat) (s t : State) : Prop :=
  t = { s with slots := t.slots, cores := t.cores, crews := t.crews, dies := t.dies } ∧
  (∀ r, r ≠ p → t.slot r = s.slot r) ∧ (∀ k, k ≠ coreOf p → t.core k = s.core k) ∧
  (∀ k, k ≠ s.crewKey p → t.crew k = s.crew k) ∧ (∀ d, t.die d = { s.die d with pmc := (t.die d).pmc })

/-- A slot has kept everything but its scalar registers with their full and dirty bits, PC, the issue and debug state, and
the trap frame with PRIV. -/
def KeptByScalar (x y : Slot) : Prop :=
  y = { x with s := y.s, sFull := y.sFull, dirtyS := y.dirtyS, pc := y.pc, issued := y.issued, halted := y.halted,
               stepOne := y.stepOne, epc := y.epc, cause := y.cause, tval := y.tval, estat := y.estat, priv := y.priv }

/-- The same, but for the flags (R19). -/
def KeptByFloat (x y : Slot) : Prop := KeptByScalar { x with flags := y.flags } y

/-- A slot has kept everything but its vector registers with their full and dirty bits, the flags, PC, the issue and debug
state, and the trap frame with PRIV. -/
def KeptByVector (x y : Slot) : Prop :=
  y = { x with v := y.v, vFull := y.vFull, dirtyV := y.dirtyV, flags := y.flags, pc := y.pc, issued := y.issued,
               halted := y.halted, stepOne := y.stepOne, epc := y.epc, cause := y.cause, tval := y.tval,
               estat := y.estat, priv := y.priv }

/-- Every scalar register but `d` is as it was. -/
def OthersKept (d : SReg) (x y : Slot) : Prop := ∀ r, r ≠ d → y.reg r = x.reg r ∧ y.full r = x.full r

/-- No breakpoint of its die stops the issuing slot at its PC: it is above PRIV 0, or none is armed for the address (R414). -/
def Unbroken (s : State) : Prop := s.me.priv ≠ 0 ∨ (s.die (dieOf s.cur)).breakAt s.me.pc = none

/-- Words of an opcode row with a property are rejected for an illegal field (R55, R68). -/
def rejected (row : Nat) (p : Nat → Prop) : Prop :=
  ∀ (w : Nat) (l : W32), w < 2 ^ 32 → w / 2 ^ 25 = row → p w → decode w l = .error (.field none)

/-- A slot of a task, the supervisor or the rake, which takes a trap by the trap frame (R263, R366). -/
def TakesTraps (s : State) : Prop := s.me.use ≠ .skim

end Sys2Proof.Claims

/-! ### Reset, the step and the fetch -/

/-- Reset: only the base feature is accepted (R6), every die is in service, no table of the package holds anything, every die has
incarnation 1 and WDOG 0x01000000 and an empty pan, and every slot is free at PRIV 0, with s0, m0 and g0 as wired. The zeros of the
registers that the spec gives no reset value, memory that reads 0, and every die in service are the model's choices (entries 1 and
2). -/
def Sys2Proof.Claims.ResetState : Prop :=
  let s := Sys2Proof.Machine.State.reset
  s.feat = 1 ∧ s.up = BitVec.allOnes 16 ∧ s.mem = [] ∧ s.lines = [] ∧ s.tlb = [] ∧ s.names = [] ∧ s.pol = 0 ∧
  (∀ d, (s.die d).incarn = 1 ∧ (s.die d).wdog = 0x01000000 ∧ (s.die d).tvec = 0 ∧ (s.die d).pan = [] ∧
    (s.die d).preempt = 0 ∧ (s.die d).dbgctl = 0) ∧
  (∀ p, (s.slot p).use = .free ∧ (s.slot p).priv = 0 ∧ (s.slot p).reg 0 = 0 ∧ (s.slot p).mask 0 = 0xFFFF ∧
    (s.slot p).guard 0 = .isTrue) ∧
  (∀ k (n : Fin 4), (s.chan k n).en = false) ∧ (∀ k, (s.crew k).att = 0)

/-- The invariant holds at reset. -/
def Sys2Proof.Claims.ResetInvariant : Prop := Sys2Proof.Machine.State.reset.Inv

/-- What the reset state holds, and that the invariant holds there: the statements `ResetState`, `ResetInvariant` above. -/
def Obligations.ResetState : Prop :=
  Sys2Proof.Claims.ResetState ∧ Sys2Proof.Claims.ResetInvariant

/-- Whatever turn it is, a step keeps memory in canonical form and the base feature accepted. -/
def Obligations.StepKeepsInvariant : Prop :=
  ∀ s t : Sys2Proof.Machine.State, s.Inv → Sys2Proof.Machine.step s = .next t → t.Inv

/-- No step stops: whatever the state, the step answers a next state. -/
def Obligations.StepNeverStops : Prop :=
  ∀ s : Sys2Proof.Machine.State, ∃ t, Sys2Proof.Machine.step s = .next t

/-- A step in the turn of a slot that can issue, with nothing due at its boundary, outside a crew, runs the instruction that
stands at its PC, and hands the turn on. -/
def Sys2Proof.Claims.StepRunsDecoded : Prop :=
  ∀ (s v t : Sys2Proof.Machine.State) (p : Nat) (i : Sys2Proof.Instr) (w : Sys2Proof.W32) (l : Option Sys2Proof.W32),
    s.turn.act = .issue p →
    let u : Sys2Proof.Machine.State := { s.pass s.turn.elapsed with cur := p }
    u.canIssue p = true → u.clear p = true → u.attached p = false →
    u.fetchInstr p u.me.pc = (v, .instr i, w, l) →
    (Sys2Proof.Machine.exec i v = .next t → Sys2Proof.Machine.step s = .next t.endTurn) ∧
    t.endTurn = { t with tick := t.tick + 1, turn := Sys2Proof.Config.agenda (t.tick + 1) }

/-- The same turn where the word at PC is no instruction: a reserved row takes ILLEGAL_OPCODE and any other word that names no
feature ILLEGAL_FIELD, with the word as tval. -/
def Sys2Proof.Claims.StepTrapsWord : Prop :=
  ∀ (s v : Sys2Proof.Machine.State) (p : Nat) (i w : Sys2Proof.W32) (l : Option Sys2Proof.W32),
    s.turn.act = .issue p →
    let u : Sys2Proof.Machine.State := { s.pass s.turn.elapsed with cur := p }
    let traps (c : Nat) : Prop := ∃ t, v.trap c (i.zeroExtend 64) false = .next t ∧ Sys2Proof.Machine.step s = .next t.endTurn
    u.canIssue p = true → u.clear p = true → u.attached p = false →
    (u.fetchInstr p u.me.pc = (v, .bad i .opcode, w, l) → traps 0x01) ∧
    (u.fetchInstr p u.me.pc = (v, .bad i (.field none), w, l) → traps 0x02)

/-- In the turn of an attached member of a crew that is not in lockstep, the step runs the entry at the head of its decoded
buffer; only a literal that the decode has not fetched, of an instruction whose feature is accepted since, is fetched first. -/
def Sys2Proof.Claims.StepRunsEntry : Prop :=
  ∀ (s t v : Sys2Proof.Machine.State) (p : Nat) (e : Sys2Proof.Machine.Decoded) (i : Sys2Proof.Instr), s.turn.act = .issue p →
    let u : Sys2Proof.Machine.State := { s.pass s.turn.elapsed with cur := p }
    u.canIssue p = true → u.clear p = true → u.attached p = true → (u.crew (s.crewKey p)).lock = false →
    u.entry p = some e →
    (u.got e = (v, .instr i) → Sys2Proof.Machine.exec i v = .next t → Sys2Proof.Machine.step s = .next t.endTurn) ∧
    (Sys2Proof.decode e.word.toNat (e.lit.getD 0) = .ok i → (i.literal = none ∨ e.lit ≠ none) → u.got e = (u, .instr i))

/-- An event of the agenda runs its own meaning, after the cycles of its turn have passed. -/
def Sys2Proof.Claims.StepRunsEvent : Prop :=
  ∀ (s t : Sys2Proof.Machine.State) (i : Sys2Proof.Instr),
    s.turn.act = .event i → Sys2Proof.Machine.Instr.spontaneous i = true →
    Sys2Proof.Machine.exec i (s.pass s.turn.elapsed) = .next t → Sys2Proof.Machine.step s = .next t.endTurn

/-- A step runs the instruction at PC, the entry of a crew, or the event of the agenda: the statements `StepRunsDecoded`,
`StepTrapsWord`, `StepRunsEntry`, `StepRunsEvent` above. -/
def Obligations.StepRuns : Prop :=
  Sys2Proof.Claims.StepRunsDecoded ∧ Sys2Proof.Claims.StepTrapsWord ∧ Sys2Proof.Claims.StepRunsEntry ∧
  Sys2Proof.Claims.StepRunsEvent

/-- Above PRIV 0 the instruction at a 4-byte-aligned address is the 32-bit word whose bytes stand there in memory, lowest
first, and, where that word carries a literal, the word after it: for memory of the package that is neither cached, nor
poisoned, nor shared with another package, and a code line that the slot's core or crew has not fetched before and that nothing
has written. -/
def Obligations.FetchReadsMemory : Prop :=
  ∀ (s : Sys2Proof.Machine.State) (p d a : Nat) (i : Sys2Proof.Instr),
    (s.slot p).priv ≠ 0 → a % 64 + 8 ≤ 64 → a < 2 ^ 56 → s.phys a = .dram d → s.physPoison a = false →
    s.physPoison (a + 4) = false →
    s.phys (a + 4) = .dram d → s.line 0 a = none → s.farNeeds (Sys2Proof.Machine.dieOf p) 0 a a .window false = none →
    s.farNeeds (Sys2Proof.Machine.dieOf p) 0 (a + 4) (a + 4) .window false = none →
    (s.codeNear p).get? (Sys2Proof.Machine.lineKey 0 a) = none → (∀ o ∈ s.olds, o.frame ≠ a / 64 * 64) →
    (∃ j, Sys2Proof.decode (Sys2Proof.Machine.ofBytes (s.mem.bytes a 4)) 0 = .ok j ∧
      (∀ n, Sys2Proof.Machine.literalFeature j = some n → s.feat.getLsbD n = true) ∧
      (if j.literal = none then i = j
       else Sys2Proof.decode (Sys2Proof.Machine.ofBytes (s.mem.bytes a 4))
         (BitVec.ofNat 32 (Sys2Proof.Machine.ofBytes (s.mem.bytes (a + 4) 4))) = .ok i)) →
    ∃ t w l, s.fetchInstr p (BitVec.ofNat 64 a) = (t, .instr i, w, l) ∧ t.mem = s.mem ∧ t.slots = s.slots

/-! ### Encodings (02) -/

/-- Words written out from the fields of the spec's encodings decode to the instructions that they stand for. -/
def Obligations.DecodedWords : Prop :=
  Sys2Proof.decode 0x03428A80 0 = .ok (.add 40 ⟨20, false⟩ (.reg ⟨21, false⟩)) ∧
  Sys2Proof.decode 0x0228C385 0 = .ok (.divI64 5 ⟨6, false⟩ (.reg ⟨7, false⟩)) ∧
  Sys2Proof.decode 0x0620AFF8 0 = .ok (.addImm 4 ⟨5, false⟩ 0xFF8) ∧
  Sys2Proof.decode 0x1020A20C 0 = .ok (.bfx 4 ⟨5, false⟩ 8 12) ∧
  Sys2Proof.decode 0x3A002000 0 = .ok (.jr ⟨1, false⟩) ∧
  Sys2Proof.decode 0x3A028001 0 = .ok (.callReg ⟨20, false⟩) ∧
  Sys2Proof.decode 0x48028003 0 = .ok (.fence ⟨20, false⟩ 3) ∧
  Sys2Proof.decode 0x5220A418 0 = .ok (.fcvt 4 ⟨5, false⟩ .f16 .f32) ∧
  Sys2Proof.decode 0x5020A028 0x40200000 = .ok (.fmul 4 ⟨5, false⟩ (.lit 0x40200000) .f32) ∧
  Sys2Proof.decode 0x3C000200 0 = .ok .eret ∧ Sys2Proof.decode 0 0 = .error .opcode

/-- Every well-formed instruction, with every operand at every value that its encoding admits, decodes from its own encoded
words, and those fit the instruction format. -/
def Obligations.RoundTrip : Prop :=
  ∀ (i : Sys2Proof.Instr) (w : Nat) (l : Option Sys2Proof.W32), i.wf = true → Sys2Proof.encode i = some (w, l) →
    w < 2 ^ 32 ∧ Sys2Proof.decode w (l.getD 0) = .ok i

/-- What the decoder reads is a well-formed instruction, and that instruction has no other first word: no bit of a word is
ignored. -/
def Obligations.DecodeIsExact : Prop :=
  ∀ (i : Sys2Proof.Instr) (w : Nat) (l : Sys2Proof.W32), w < 2 ^ 32 → Sys2Proof.decode w l = .ok i →
    i.wf = true ∧ ∃ m, Sys2Proof.encode i = some (w, m) ∧ (m = none ∨ m = some l)

/-! ### Sources, destinations and traps (01) -/

/-- Reading an ordinary scalar source, or a vector source: full, the instruction goes on; empty with wait bit 0 it waits at
issue, with every register, PC and memory as they were; empty with wait bit 1 it takes EMPTY_TRAP with the register's number,
64 and more for a vector register. -/
def Sys2Proof.Claims.EmptySource : Prop :=
  ∀ (s : Sys2Proof.Machine.State) (q : Sys2Proof.Machine.Form) (k : Sys2Proof.Machine.Out) (r : Sys2Proof.SReg)
    (v : Sys2Proof.VReg) (w : Bool),
    (s.role s.cur r = .plain → q.srcs = [.s r w] → q.dsts = [] →
      s.gate q k = (if s.me.full r then k else if w then s.trap 0x05 (BitVec.ofNat 64 r.val) q.lit else .next s)) ∧
    (q.srcs = [.v v w] → q.dsts = [] →
      s.gate q k =
        (if s.me.vFull.getLsbD v.val then k else if w then s.trap 0x05 (BitVec.ofNat 64 (64 + v.val)) q.lit else .next s))

/-- Reading a channel end: the reader goes on when the channel holds as many entries as its sources name it, and its k-th
such source reads the k-th oldest; the writer's read, and a read of an empty channel whose writer has released it, take
CHANNEL_UNCONFIGURED with the channel's number. -/
def Sys2Proof.Claims.ChannelSource : Prop :=
  ∀ (s : Sys2Proof.Machine.State) (p : Nat) (all : List Sys2Proof.Machine.Ref) (r : Sys2Proof.SReg) (w : Bool) (n : Fin 4),
    (s.role p r = .writer n → s.srcGate p all (.s r w) = .trap 0x0A (BitVec.ofNat 64 n.val)) ∧
    (s.role p r = .reader n → (s.chan (Sys2Proof.Machine.coreOf p) n).wAway = false →
      (s.chan (Sys2Proof.Machine.coreOf p) n).rAway = false →
      s.srcGate p all (.s r w) =
        (let c := s.chan (Sys2Proof.Machine.coreOf p) n
         if Sys2Proof.Machine.uses all r ≤ c.fifo.length then .go
         else if c.wrel = true ∧ c.fifo = [] then .trap 0x0A (BitVec.ofNat 64 n.val)
         else if Sys2Proof.Machine.usesWait all r then .trap 0x05 (BitVec.ofNat 64 r.val)
         else .wait))

/-- An instruction with an empty ordinary destination waits at issue and changes nothing; the reader end of a channel as a
destination, and the writer end once the reader has released it, take CHANNEL_UNCONFIGURED; a writer end waits while the
channel holds eight entries. -/
def Sys2Proof.Claims.EmptyDestination : Prop :=
  ∀ (s : Sys2Proof.Machine.State) (k : Sys2Proof.Machine.Out) (d : Sys2Proof.SReg) (n : Fin 4),
    let q : Sys2Proof.Machine.Form := { srcs := [], dsts := [.s d], lit := false }
    let c := s.chan (Sys2Proof.Machine.coreOf s.cur) n
    (s.role s.cur d = .plain → s.gate q k = (if s.me.full d then k else .next s)) ∧
    (s.role s.cur d = .reader n → s.gate q k = s.trap 0x0A (BitVec.ofNat 64 n.val) false) ∧
    (s.role s.cur d = .writer n → c.rrel = true → s.gate q k = s.trap 0x0A (BitVec.ofNat 64 n.val) false) ∧
    (s.role s.cur d = .writer n → c.rrel = false → 8 ≤ c.fifo.length → s.gate q k = .next s) ∧
    (s.role s.cur d = .writer n → c.rrel = false → c.wAway = false → c.rAway = false → s.me.full d = true →
      c.fifo.length < 8 → s.gate q k = k)

/-- Writing a scalar result: an ordinary register reads it back and is full, s0 still reads 0, and every other register is as
it was; in the writer of a channel the result is pushed behind the entries that wait there, and no register changes. -/
def Sys2Proof.Claims.ScalarWrite : Prop :=
  ∀ (s : Sys2Proof.Machine.State) (d : Sys2Proof.SReg) (w : Sys2Proof.Word) (n : Fin 4),
    (s.role s.cur d = .plain →
      (s.put d w).me.reg d = (if d = 0 then 0 else w) ∧ (s.put d w).me.full d = true ∧
      (∀ r, r ≠ d → (s.put d w).me.reg r = s.me.reg r ∧ (s.put d w).me.full r = s.me.full r) ∧
      Sys2Proof.Claims.OnlySlot s.cur s (s.put d w)) ∧
    (s.role s.cur d = .writer n →
      ((s.put d w).chan (Sys2Proof.Machine.coreOf s.cur) n).fifo =
        (s.chan (Sys2Proof.Machine.coreOf s.cur) n).fifo ++ [w] ∧
      (s.put d w).slots = s.slots ∧ Sys2Proof.Claims.OnlySlot s.cur s (s.put d w))

/-- The registers with fixed values: whatever is written, s0 reads 0 and is full, m0 reads 0xFFFF, and g0 is TRUE. -/
def Sys2Proof.Claims.FixedRegisters : Prop :=
  ∀ (s : Sys2Proof.Machine.State) (p : Nat) (d : Sys2Proof.SReg) (w : Sys2Proof.Word) (e : Sys2Proof.MReg)
    (m : Sys2Proof.Mask) (g : Sys2Proof.GReg) (b : Sys2Proof.SOpd),
    ((s.writeS p d w).slot p).reg 0 = 0 ∧ ((s.writeS p d w).slot p).full 0 = true ∧
    ((s.putM e m).me.mask 0 = 0xFFFF) ∧ (∀ t, Sys2Proof.Machine.exec (.gset g b) s = .next t → t.me.guard 0 = .isTrue)

/-- Reading and writing registers and channel ends: the statements `EmptySource`, `ChannelSource`, `EmptyDestination`,
`ScalarWrite`, `FixedRegisters` above. -/
def Obligations.RegistersAndChannels : Prop :=
  Sys2Proof.Claims.EmptySource ∧ Sys2Proof.Claims.ChannelSource ∧ Sys2Proof.Claims.EmptyDestination ∧
  Sys2Proof.Claims.ScalarWrite ∧ Sys2Proof.Claims.FixedRegisters

/-- An instruction that does not transfer control is over: PC advances by 4, or by 8 with a literal, the core has issued in
this cycle, and a single step halts the slot; nothing else of the slot changes, and nothing outside the slot, its core, its
crew and the counters. -/
def Sys2Proof.Claims.Retire : Prop :=
  ∀ (s : Sys2Proof.Machine.State) (q : Sys2Proof.Machine.Form), Sys2Proof.Claims.Unbroken s →
    (s.retire q).me =
      { s.me with pc := s.me.pc + (if q.lit then 8 else 4), issued := s.now, halted := s.me.halted || s.me.stepOne,
                  stepOne := false } ∧
    ((s.retire q).core (Sys2Proof.Machine.coreOf s.cur)).issued = s.now + 1 ∧
    ((s.retire q).core (Sys2Proof.Machine.coreOf s.cur)).chan = (s.core (Sys2Proof.Machine.coreOf s.cur)).chan ∧
    Sys2Proof.Claims.OnlySlot s.cur s (s.retire q)

/-- An armed breakpoint at the address of an instruction that a slot issues at PRIV 0: the instruction completes, then the
slot halts at the next instruction where HLT is 1, and otherwise takes BREAKPOINT with the address of the next instruction, and
with LIT as the instruction at the breakpoint has it. -/
def Sys2Proof.Claims.Breakpoint : Prop :=
  ∀ (s : Sys2Proof.Machine.State) (next : Sys2Proof.Word) (h lit : Bool),
    s.me.priv = 0 → Sys2Proof.Claims.TakesTraps s → (s.die (Sys2Proof.Machine.dieOf s.cur)).breakAt s.me.pc = some h →
    ((s.goTo next).me.pc = if h then next else (s.die (Sys2Proof.Machine.dieOf s.cur)).tvec) ∧
    (h = true → (s.goTo next).me.halted = true ∧ (s.goTo next).me.priv = 0) ∧
    (h = false → (s.goTo next).me.epc = next ∧ (s.goTo next).me.cause = 0x09 ∧ (s.goTo next).me.tval = 0 ∧
      (s.goTo next).me.priv = 1 ∧ (s.goToLit lit next).me.estat.getLsbD 4 = lit ∧ (s.goToLit lit next).me.epc = next)

/-- Flags that a floating-point instruction raises are merged into FLAGS; if one of them is enabled, the instruction, whose
result is written, takes FP_TRAP with the raised flags, else it retires. -/
def Obligations.FlagsAndTrap : Prop :=
  ∀ (s : Sys2Proof.Machine.State) (q : Sys2Proof.Machine.Form) (fl : BitVec 5),
    Sys2Proof.Claims.TakesTraps s → Sys2Proof.Claims.Unbroken s →
    (s.retireFp q fl).me.flags = s.me.flags ||| fl ∧
    (fl &&& s.me.ten = 0 → (s.retireFp q fl).me.pc = s.me.pc + (if q.lit then 8 else 4) ∧
      (s.retireFp q fl).me.priv = s.me.priv) ∧
    (fl &&& s.me.ten ≠ 0 →
      (s.retireFp q fl).me.cause = 0x20 ∧ (s.retireFp q fl).me.tval = fl.zeroExtend 64 ∧
      (s.retireFp q fl).me.epc = s.me.pc ∧ (s.retireFp q fl).me.pc = (s.die (Sys2Proof.Machine.dieOf s.cur)).tvec ∧
      (s.retireFp q fl).me.priv = 1) ∧
    (s.retireFp q fl).me.s = s.me.s ∧ (s.retireFp q fl).me.v = s.me.v

/-- Entering a trap: estat takes LIT, the crew membership, the attachment and PRIV; epc, cause and tval are written, PRIV
becomes 1 and PC the handler's address; an attached member leaves the attached set; a slot that a debugger steps halts (R413);
no register, full bit, flag or memory byte changes (R366). -/
def Obligations.TrapEntry : Prop :=
  ∀ (s : Sys2Proof.Machine.State) (c : Nat) (v : Sys2Proof.Word) (lit : Bool), Sys2Proof.Claims.TakesTraps s → c < 256 →
    ∃ t, s.trap c v lit = .next t ∧
      t.me = { s.me with
        estat := BitVec.ofNat 5 (lit.toNat * 16 + s.me.crew.toNat * 8 + (s.attached s.cur).toNat * 4 + s.me.priv.toNat),
        epc := s.me.pc, cause := BitVec.ofNat 8 c, tval := v, priv := 1,
        pc := (s.die (Sys2Proof.Machine.dieOf s.cur)).tvec, halted := s.me.halted || s.me.stepOne, stepOne := false } ∧
      t.attached s.cur = false ∧ (∀ a, t.mem.byte a = s.mem.byte a) ∧ t.cores = s.cores ∧
      Sys2Proof.Claims.OnlySlot s.cur s t

/-- A skim handler that takes a trap ends there: its slot is free, no trap frame is written, and, where it has no tile request
whose waiter record leaves the directory in memory, no byte of memory changes. -/
def Sys2Proof.Claims.SkimTrap : Prop :=
  ∀ (s : Sys2Proof.Machine.State) (c : Nat) (v : Sys2Proof.Word) (lit : Bool),
    s.cur < 16384 → s.me.use = .skim → s.me.skim.isSome = true →
    ∃ t, s.trap c v lit = .next t ∧ t.me.use = .free ∧ t.me.epc = 0 ∧ t.me.skim = none ∧
      ((∀ e ∈ s.tiles, e.2.slot ≠ s.cur) → ∀ a, t.mem.byte a = s.mem.byte a)

/-! ### Integer instructions (03) -/

namespace Sys2Proof.Claims
open Sys2Proof.Machine

/-- How many of the bits 0 to 63, taken in order, come before the first that is 1. -/
def zerosFirst (f : Nat → Bool) : Nat := ((List.range 64).takeWhile fun i => !f i).length

/-- The result that the tables of R115 to R121 give a two-source instruction, and how its literal is extended. -/
def twoSource : Instr → Option (SReg × SSrc × SOpd × Ext × (Word → Word → Word))
  | .add d a b => some (d, a, b, .sext, fun x y => x + y)
  | .sub d a b => some (d, a, b, .sext, fun x y => x - y)
  | .mul d a b => some (d, a, b, .sext, fun x y => BitVec.ofNat 64 (x.toNat * y.toNat))
  | .mulhI64 d a b => some (d, a, b, .sext, fun x y => (x.signExtend 128 * y.signExtend 128).extractLsb' 64 64)
  | .mulhN64 d a b => some (d, a, b, .zext, fun x y => (x.zeroExtend 128 * y.zeroExtend 128).extractLsb' 64 64)
  | .divI64 d a b => some (d, a, b, .sext, fun x y => if y = 0 then BitVec.allOnes 64 else x.sdiv y)
  | .divN64 d a b => some (d, a, b, .zext, fun x y => if y = 0 then BitVec.allOnes 64 else x.udiv y)
  | .remI64 d a b => some (d, a, b, .sext, fun x y => if y = 0 then x else x.srem y)
  | .remN64 d a b => some (d, a, b, .zext, fun x y => x.umod y)
  | .and d a b => some (d, a, b, .sext, fun x y => x &&& y)
  | .or d a b => some (d, a, b, .sext, fun x y => x ||| y)
  | .xor d a b => some (d, a, b, .sext, fun x y => x ^^^ y)
  | .andn d a b => some (d, a, b, .sext, fun x y => x &&& ~~~y)
  | .shl d a b => some (d, a, b, .zext, fun x y => x <<< (y.extractLsb' 0 6).toNat)
  | .shr d a b => some (d, a, b, .zext, fun x y => x >>> (y.extractLsb' 0 6).toNat)
  | .sar d a b => some (d, a, b, .zext, fun x y => x.sshiftRight (y.extractLsb' 0 6).toNat)
  | .rol d a b => some (d, a, b, .zext, fun x y =>
      (x <<< (y.extractLsb' 0 6).toNat) ||| (x >>> (64 - (y.extractLsb' 0 6).toNat)))
  | .minI64 d a b => some (d, a, b, .sext, fun x y => if x.toInt ≤ y.toInt then x else y)
  | .minN64 d a b => some (d, a, b, .zext, fun x y => if x.toNat ≤ y.toNat then x else y)
  | .maxI64 d a b => some (d, a, b, .sext, fun x y => if x.toInt ≤ y.toInt then y else x)
  | .maxN64 d a b => some (d, a, b, .zext, fun x y => if x.toNat ≤ y.toNat then y else x)
  | .setEq d a b => some (d, a, b, .sext, fun x y => if x = y then 1 else 0)
  | .setNe d a b => some (d, a, b, .sext, fun x y => if x = y then 0 else 1)
  | .setLt d a b => some (d, a, b, .sext, fun x y => if x.toInt < y.toInt then 1 else 0)
  | .setGe d a b => some (d, a, b, .sext, fun x y => if y.toInt ≤ x.toInt then 1 else 0)
  | .setLtn d a b => some (d, a, b, .zext, fun x y => if x.toNat < y.toNat then 1 else 0)
  | .setGen d a b => some (d, a, b, .zext, fun x y => if y.toNat ≤ x.toNat then 1 else 0)
  | .lih d a b => some (d, a, b, .zext, fun x y => y.extractLsb' 0 32 ++ x.extractLsb' 0 32)
  | .lea d a b k => some (d, a, b, .sext, fun x y => x + y * BitVec.ofNat 64 (2 ^ k.val))
  | _ => none

/-- The result that the tables of R118 to R120 give a one-source instruction. -/
def oneSource : Instr → Option (SReg × SSrc × (Word → Word))
  | .clz d a => some (d, a, fun x => BitVec.ofNat 64 (zerosFirst fun i => x.getLsbD (63 - i)))
  | .ctz d a => some (d, a, fun x => BitVec.ofNat 64 (zerosFirst fun i => x.getLsbD i))
  | .popc d a => some (d, a, fun x => BitVec.ofNat 64 ((List.range 64).filter fun i => x.getLsbD i).length)
  | .mov d a => some (d, a, fun x => x)
  | .sextI8 d a => some (d, a, fun x => BitVec.ofInt 64 (BitVec.ofNat 8 x.toNat).toInt)
  | .sextI16 d a => some (d, a, fun x => BitVec.ofInt 64 (BitVec.ofNat 16 x.toNat).toInt)
  | .sextI32 d a => some (d, a, fun x => BitVec.ofInt 64 (BitVec.ofNat 32 x.toNat).toInt)
  | .zextN8 d a => some (d, a, fun x => x &&& 0xFF)
  | .zextN16 d a => some (d, a, fun x => x &&& 0xFFFF)
  | .zextN32 d a => some (d, a, fun x => x &&& 0xFFFFFFFF)
  | .addImm d a imm => some (d, a, fun x => x + BitVec.ofInt 64 imm.toInt)
  | .andImm d a imm => some (d, a, fun x => x &&& BitVec.ofInt 64 imm.toInt)
  | .orImm d a imm => some (d, a, fun x => x ||| BitVec.ofInt 64 imm.toInt)
  | .xorImm d a imm => some (d, a, fun x => x ^^^ BitVec.ofInt 64 imm.toInt)
  | .shlImm d a n => some (d, a, fun x => BitVec.ofNat 64 (x.toNat * 2 ^ n.val))
  | .shrImm d a n => some (d, a, fun x => BitVec.ofNat 64 (x.toNat / 2 ^ n.val))
  | .sarImm d a n => some (d, a, fun x => BitVec.ofInt 64 (x.toInt / 2 ^ n.val))
  | .rolImm d a n => some (d, a, fun x => (x <<< n.val) ||| (x >>> (64 - n.val)))
  | .bfx d a p n => some (d, a, fun x => BitVec.ofNat 64 (x.toNat / 2 ^ p.val % 2 ^ n.val))
  | _ => none

/-- Field of length `n` at position `p` of `y` replaced by the low bits of `x` (R120). -/
def replaced (p n : Nat) (x y z : Word) : Prop :=
  ∀ i, i < 64 → z.getLsbD i = if p ≤ i ∧ i < p + n then x.getLsbD (i - p) else y.getLsbD i

/-- What an integer instruction that can go on leaves: the sources' channel entries popped, the destination written, and the
instruction retired. -/
def Writes (i : Instr) (q : Form) (d : SReg) (v : Word) (s : State) : Prop :=
  exec i s = .next (((s.pops q).put d v).retire q)

end Sys2Proof.Claims

/-- Two-source integer instructions: with sources readable and the destination free, the instruction completes, and its
destination takes the value of its table row, a literal being extended as the row says. -/
def Sys2Proof.Claims.TwoSourceResult : Prop :=
  ∀ (i : Sys2Proof.Instr) (s : Sys2Proof.Machine.State) (d : Sys2Proof.SReg) (a : Sys2Proof.SSrc) (b : Sys2Proof.SOpd)
    (e : Sys2Proof.Machine.Ext) (f : Sys2Proof.Word → Sys2Proof.Word → Sys2Proof.Word),
    Sys2Proof.Claims.twoSource i = some (d, a, b, e, f) →
    let q := Sys2Proof.Machine.formR [.s d] a b
    s.gateOf s.cur q = .go → Sys2Proof.Claims.Writes i q d (f (s.sval q 0) (s.bval q 1 e b)) s

/-- One-source integer instructions and their immediate forms, `li`, `sel` and `bfi`: with sources readable and the destination
free, the instruction completes and its destination takes the value of its table row; `sel` and `bfi` read the old destination
as a further source. -/
def Sys2Proof.Claims.OneSourceResult : Prop :=
  (∀ (i : Sys2Proof.Instr) (s : Sys2Proof.Machine.State) (d : Sys2Proof.SReg) (a : Sys2Proof.SSrc)
    (f : Sys2Proof.Word → Sys2Proof.Word),
    i.wf = true → Sys2Proof.Claims.oneSource i = some (d, a, f) →
    let q := Sys2Proof.Machine.formA [.s d] a
    s.gateOf s.cur q = .go → Sys2Proof.Claims.Writes i q d (f (s.sval q 0)) s) ∧
  (∀ (s : Sys2Proof.Machine.State) (d : Sys2Proof.SReg) (imm : BitVec 12),
    let q := Sys2Proof.Machine.form0 [.s d]
    s.gateOf s.cur q = .go → Sys2Proof.Claims.Writes (.li d imm) q d (BitVec.ofInt 64 imm.toInt) s) ∧
  (∀ (s : Sys2Proof.Machine.State) (d : Sys2Proof.SReg) (a : Sys2Proof.SSrc) (p n : Fin 64),
    (Sys2Proof.Instr.bfi d a p n).wf = true →
    let q : Sys2Proof.Machine.Form := { srcs := [.s a.reg a.wait, .s d false], dsts := [.s d], lit := false }
    s.gateOf s.cur q = .go →
    ∃ z, Sys2Proof.Claims.Writes (.bfi d a p n) q d z s ∧ Sys2Proof.Claims.replaced p n (s.sval q 0) (s.sval q 1) z) ∧
  (∀ (s : Sys2Proof.Machine.State) (d : Sys2Proof.SReg) (a b : Sys2Proof.SSrc),
    let q : Sys2Proof.Machine.Form :=
      { srcs := [.s a.reg a.wait, .s b.reg b.wait, .s d false], dsts := [.s d], lit := false }
    s.gateOf s.cur q = .go →
    Sys2Proof.Claims.Writes (.sel d a (.reg b)) q d (if s.sval q 2 ≠ 0 then s.sval q 0 else s.sval q 1) s) ∧
  (∀ (s : Sys2Proof.Machine.State) (d : Sys2Proof.SReg) (a : Sys2Proof.SSrc) (l : Sys2Proof.W32),
    let q : Sys2Proof.Machine.Form := { srcs := [.s a.reg a.wait, .s d false], dsts := [.s d], lit := true }
    s.gateOf s.cur q = .go →
    Sys2Proof.Claims.Writes (.sel d a (.lit l)) q d
      (if s.sval q 1 ≠ 0 then s.sval q 0 else BitVec.ofInt 64 l.toInt) s)

/-- Results of the integer and address instructions: the statements `TwoSourceResult`, `OneSourceResult` above. -/
def Obligations.IntegerResult : Prop :=
  Sys2Proof.Claims.TwoSourceResult ∧ Sys2Proof.Claims.OneSourceResult

/-- In a slot without channels, an integer instruction that can go on leaves its destination with the value of its row, PC
behind it, and every other register, the flags, the trap frame and every byte of memory as they were. -/
def Sys2Proof.Claims.IntegerState : Prop :=
  ∀ (s : Sys2Proof.Machine.State) (q : Sys2Proof.Machine.Form) (d : Sys2Proof.SReg) (w : Sys2Proof.Word),
    (∀ r : Sys2Proof.SReg, s.role s.cur r = .plain) → Sys2Proof.Claims.Unbroken s →
    let t := ((s.pops q).put d w).retire q
    t.me = { s.me.setReg d w with
      pc := s.me.pc + (if q.lit then 8 else 4), issued := s.now, halted := s.me.halted || s.me.stepOne, stepOne := false } ∧
    t.me.reg d = (if d = 0 then 0 else w) ∧ Sys2Proof.Claims.OthersKept d s.me t.me ∧
    (∀ a, t.mem.byte a = s.mem.byte a) ∧ Sys2Proof.Claims.OnlySlot s.cur s t

/-- The frame of the integer instructions: whether it completes, waits or traps, an integer instruction changes no scalar
register but its destination, no vector register, mask, guard, constant or flag, no byte of memory and no line, and nothing
outside its slot, core, crew and the counters. -/
def Sys2Proof.Claims.IntegerFrame : Prop :=
  ∀ (i : Sys2Proof.Instr) (s t : Sys2Proof.Machine.State) (d : Sys2Proof.SReg),
    ((∃ a b e f, Sys2Proof.Claims.twoSource i = some (d, a, b, e, f)) ∨ (∃ a f, Sys2Proof.Claims.oneSource i = some (d, a, f)) ∨
      (∃ imm, i = .li d imm) ∨ (∃ a p n, i = .bfi d a p n) ∨ (∃ a b, i = .sel d a b)) →
    Sys2Proof.Claims.TakesTraps s → Sys2Proof.Machine.exec i s = .next t →
    Sys2Proof.Claims.KeptByScalar s.me t.me ∧ Sys2Proof.Claims.OthersKept d s.me t.me ∧
    (∀ a, t.mem.byte a = s.mem.byte a) ∧ t.lines = s.lines ∧ Sys2Proof.Claims.OnlySlot s.cur s t

/-- What an integer instruction writes and what it leaves: the statements `IntegerState`, `IntegerFrame` above. -/
def Obligations.IntegerStateAndFrame : Prop :=
  Sys2Proof.Claims.IntegerState ∧ Sys2Proof.Claims.IntegerFrame

/-! ### Control (03) -/

/-- The register-compare branches: with both sources readable the branch completes, at PC + 4 · off where its condition holds
and at the next instruction otherwise. -/
def Obligations.BranchResult : Prop :=
  ∀ (s : Sys2Proof.Machine.State) (a b : Sys2Proof.SSrc) (off : BitVec 11),
    let q : Sys2Proof.Machine.Form := { srcs := [.s a.reg a.wait, .s b.reg b.wait], dsts := [], lit := false }
    let x := s.sval q 0
    let y := s.sval q 1
    let ends (i : Sys2Proof.Instr) (c : Prop) : Prop :=
      (c → Sys2Proof.Machine.exec i s =
        .next ((s.pops q).goTo (s.me.pc + 4 * BitVec.ofInt 64 off.toInt))) ∧
      (¬ c → Sys2Proof.Machine.exec i s = .next ((s.pops q).goTo (s.me.pc + 4)))
    s.gateOf s.cur q = .go →
    ends (.brEq a b off) (x = y) ∧ ends (.brNe a b off) (x ≠ y) ∧ ends (.brLt a b off) (x.toInt < y.toInt) ∧
    ends (.brGe a b off) (y.toInt ≤ x.toInt) ∧ ends (.brLtn a b off) (x.toNat < y.toNat) ∧
    ends (.brGen a b off) (y.toNat ≤ x.toNat)

/-- The mask branches, which never wait, and `bra`, `call`, `jr`, `callReg`: the branch completes at its target; `call` writes
s1 with the address after it, and reads its register before; where s1 is empty, `call` waits and `jr` does not; a target that is not a
multiple of 4 takes MISALIGNED_PC and leaves s1; other words of the row of `jr` are rejected as an illegal field. -/
def Obligations.JumpResult : Prop :=
  Sys2Proof.Claims.rejected 0x1D (fun w => 2 ≤ w % 32 ∨ w / 2 ^ 19 % 2 ^ 6 ≠ 0 ∨ w / 2 ^ 7 % 2 ^ 6 ≠ 0 ∨ w / 2 ^ 5 % 2 ≠ 0) ∧
  (∀ (s : Sys2Proof.Machine.State) (m : Sys2Proof.MReg) (off : BitVec 11),
    let x := s.me.mask m
    let ends (i : Sys2Proof.Instr) (c : Prop) : Prop :=
      (c → Sys2Proof.Machine.exec i s = .next (s.goTo (s.me.pc + 4 * BitVec.ofInt 64 off.toInt))) ∧
      (¬ c → Sys2Proof.Machine.exec i s = .next (s.goTo (s.me.pc + 4)))
    ends (.brAny m off) (∃ k, x.getLsbD k = true) ∧ ends (.brAll m off) (∀ k, k < 16 → x.getLsbD k = true) ∧
    ends (.brNone m off) (∀ k, x.getLsbD k = false) ∧ ends (.brNall m off) (∃ k, k < 16 ∧ x.getLsbD k = false)) ∧
  (∀ (s : Sys2Proof.Machine.State) (off : BitVec 25),
    let dest := s.me.pc + 4 * BitVec.ofInt 64 off.toInt
    Sys2Proof.Machine.exec (.bra off) s = .next (s.goTo dest) ∧
    (s.me.full 1 = true → Sys2Proof.Machine.exec (.call off) s = .next ((s.put 1 (s.me.pc + 4)).goTo dest)) ∧
    (s.me.full 1 = false → Sys2Proof.Machine.exec (.call off) s = .next s)) ∧
  (∀ (s : Sys2Proof.Machine.State) (a : Sys2Proof.SSrc),
    let q := Sys2Proof.Machine.formA [] a
    let x := s.sval q 0
    s.gateOf s.cur q = .go →
    (x.toNat % 4 = 0 →
      Sys2Proof.Machine.exec (.jr a) s = .next ((s.pops q).goTo x) ∧
      (s.me.full 1 = true → Sys2Proof.Machine.exec (.callReg a) s = .next (((s.pops q).put 1 (s.me.pc + 4)).goTo x))) ∧
    (x.toNat % 4 ≠ 0 →
      Sys2Proof.Machine.exec (.jr a) s = s.trap 0x07 (Sys2Proof.Machine.wordOf (.jr a)) false ∧
      (s.me.full 1 = true →
        Sys2Proof.Machine.exec (.callReg a) s = s.trap 0x07 (Sys2Proof.Machine.wordOf (.callReg a)) false)) ∧
    (s.me.full 1 = false → Sys2Proof.Machine.exec (.callReg a) s = .next s))

/-- `jtab`: an index outside the table, read unsigned, takes JTAB_RANGE with the index; inside it, the entry that the
instruction-fetch path reads behind the `jtab` is added to PC + 4, and an entry that is not a multiple of 4 takes
MISALIGNED_PC. -/
def Sys2Proof.Claims.JumpTable : Prop :=
  ∀ (s t : Sys2Proof.Machine.State) (a : Sys2Proof.SSrc) (len : BitVec 12) (e : Sys2Proof.W32),
    let q := Sys2Proof.Machine.formA [] a
    let i := s.sval q 0
    s.gateOf s.cur q = .go →
    (len.toNat ≤ i.toNat → Sys2Proof.Machine.exec (.jtab a len) s = s.trap 0x06 i false) ∧
    (i.toNat < len.toNat → s.fetchWord s.cur (s.me.pc + 4 + 4 * i) = (t, .word e) → e.toNat % 4 = 0 →
      Sys2Proof.Machine.exec (.jtab a len) s = .next ((t.pops q).goTo (s.me.pc + 4 + BitVec.ofInt 64 e.toInt))) ∧
    (i.toNat < len.toNat → s.fetchWord s.cur (s.me.pc + 4 + 4 * i) = (t, .word e) → e.toNat % 4 ≠ 0 →
      Sys2Proof.Machine.exec (.jtab a len) s = t.trap 0x07 (Sys2Proof.Machine.wordOf (.jtab a len)) false)

/-- The frame of the branches and jumps: a branch, `bra` or `jr` changes no register, and `call` only s1; none changes the
flags, a byte of memory or a line, or anything outside its slot, core, crew and the counters. -/
def Sys2Proof.Claims.BranchFrame : Prop :=
  ∀ (s t : Sys2Proof.Machine.State) (i : Sys2Proof.Instr),
    ((∃ a b off, i = .brEq a b off ∨ i = .brNe a b off ∨ i = .brLt a b off ∨ i = .brGe a b off ∨ i = .brLtn a b off ∨
        i = .brGen a b off) ∨
      (∃ m off, i = .brAny m off ∨ i = .brAll m off ∨ i = .brNone m off ∨ i = .brNall m off) ∨
      (∃ off, i = .bra off ∨ i = .call off) ∨ (∃ a, i = .jr a ∨ i = .callReg a) ∨ i = .nop ∨ ∃ c, i = .trap c) →
    Sys2Proof.Claims.TakesTraps s → Sys2Proof.Machine.exec i s = .next t →
    Sys2Proof.Claims.KeptByScalar s.me t.me ∧ Sys2Proof.Claims.OthersKept 1 s.me t.me ∧
    ((∀ off, i ≠ .call off) → (∀ a, i ≠ .callReg a) → t.me.s = s.me.s ∧ t.me.sFull = s.me.sFull) ∧
    (∀ a, t.mem.byte a = s.mem.byte a) ∧ t.lines = s.lines ∧ Sys2Proof.Claims.OnlySlot s.cur s t

/-- The frame of `jtab`, where the table entry that it reads can be fetched: no register, flag, byte of memory or line changes, and no
other slot, core or crew. -/
def Sys2Proof.Claims.TableFrame : Prop :=
  ∀ (s t u : Sys2Proof.Machine.State) (a : Sys2Proof.SSrc) (len : BitVec 12) (e : Sys2Proof.W32),
    Sys2Proof.Claims.TakesTraps s →
    s.fetchWord s.cur (s.me.pc + 4 + 4 * s.sval (Sys2Proof.Machine.formA [] a) 0) = (t, .word e) →
    Sys2Proof.Machine.exec (.jtab a len) s = .next u →
    Sys2Proof.Claims.KeptByScalar s.me u.me ∧ u.me.s = s.me.s ∧ u.me.sFull = s.me.sFull ∧
    (∀ b, u.mem.byte b = s.mem.byte b) ∧ u.lines = s.lines ∧ (∀ r, r ≠ s.cur → u.slot r = s.slot r) ∧
    (∀ k, k ≠ Sys2Proof.Machine.coreOf s.cur → u.core k = s.core k) ∧ (∀ k, k ≠ s.crewKey s.cur → u.crew k = s.crew k)

/-- Jump tables, and what branches and jumps leave: the statements `JumpTable`, `BranchFrame`, `TableFrame` above. -/
def Obligations.JumpTableAndFrame : Prop :=
  Sys2Proof.Claims.JumpTable ∧ Sys2Proof.Claims.BranchFrame ∧ Sys2Proof.Claims.TableFrame

/-- `nop` changes nothing but PC; `trap` enters USER_TRAP at every privilege with the address of the next instruction and a zero
tval; `halt` above PRIV 0 stops the slot behind it; `eret` above PRIV 0 returns to epc with the PRIV of the frame and its crew
membership, and a member stays detached; a reserved PPRIV takes ILLEGAL_FIELD, and an epc that is not a multiple of 4 MISALIGNED_PC;
at PRIV 0 `eret` and `halt` take PRIVILEGED. That `halt` leaves PC behind it, and that `eret` restores the membership of the frame
while a member stays detached until a `rejoin`, is the model's reading (entry 37); R136 to R139 and R49 give the rest. -/
def Obligations.SystemResult : Prop :=
  ∀ (s : Sys2Proof.Machine.State),
    Sys2Proof.Machine.exec .nop s = .next (s.goTo (s.me.pc + 4)) ∧
    (∀ c, Sys2Proof.Claims.TakesTraps s → ∃ t, Sys2Proof.Machine.exec (.trap c) s = .next t ∧ t.me.epc = s.me.pc + 4 ∧
      t.me.cause = 0x08 ∧ t.me.tval = 0 ∧ t.me.priv = 1 ∧ t.me.pc = (s.die (Sys2Proof.Machine.dieOf s.cur)).tvec) ∧
    (s.me.priv ≠ 0 → ∃ t, Sys2Proof.Machine.exec .halt s = .next t ∧ t.me.halted = true ∧ t.me.pc = s.me.pc + 4) ∧
    (s.me.priv ≠ 0 → s.me.estat.extractLsb' 0 2 = 0 ∨ s.me.estat.extractLsb' 0 2 = 1 → s.me.epc.toNat % 4 = 0 →
      ∃ t, Sys2Proof.Machine.exec .eret s = .next t ∧ t.me.pc = s.me.epc ∧ t.me.priv = s.me.estat.extractLsb' 0 2 ∧
        t.me.crew = s.me.estat.getLsbD 3 ∧ t.attached s.cur = false ∧ t.me.epc = s.me.epc ∧ t.me.s = s.me.s ∧
        (∀ a, t.mem.byte a = s.mem.byte a)) ∧
    (s.me.priv ≠ 0 → s.me.estat.extractLsb' 0 2 = 2 ∨ s.me.estat.extractLsb' 0 2 = 3 →
      Sys2Proof.Machine.exec .eret s = s.trap 0x02 0x3C000200 false) ∧
    (s.me.priv ≠ 0 → s.me.estat.extractLsb' 0 2 = 0 ∨ s.me.estat.extractLsb' 0 2 = 1 → s.me.epc.toNat % 4 ≠ 0 →
      Sys2Proof.Machine.exec .eret s = s.trap 0x07 0x3C000200 false) ∧
    (s.me.priv = 0 → Sys2Proof.Machine.exec .eret s = s.trap 0x03 0x3C000200 false ∧
      Sys2Proof.Machine.exec .halt s = s.trap 0x03 0x3C000300 false)

/-- A word of a reserved row takes ILLEGAL_OPCODE with the word as tval. -/
def Sys2Proof.Claims.IllegalWord : Prop :=
  ∀ (s : Sys2Proof.Machine.State) (w : Sys2Proof.W32), Sys2Proof.Claims.TakesTraps s →
    ∃ t, Sys2Proof.Machine.exec (.illegalOpcode w) s = .next t ∧ t.me.cause = 0x01 ∧ t.me.tval = w.zeroExtend 64 ∧
      t.me.epc = s.me.pc ∧ t.me.priv = 1 ∧ t.me.pc = (s.die (Sys2Proof.Machine.dieOf s.cur)).tvec

/-- Retiring, breakpoints, and traps of reserved words and of skim handlers: the statements `Retire`, `Breakpoint`, `SkimTrap`,
`IllegalWord` above. -/
def Obligations.RetireAndTrap : Prop :=
  Sys2Proof.Claims.Retire ∧ Sys2Proof.Claims.Breakpoint ∧ Sys2Proof.Claims.SkimTrap ∧ Sys2Proof.Claims.IllegalWord

/-! ### Scalar floating point (04) -/

namespace Sys2Proof.Claims
open Sys2Proof.Machine

/-- The encoding that an operand of a floating-point type holds in its low bits (R146). -/
def fbits (t : FTy) (x : Word) : Nat := x.toNat % 2 ^ (Fp.fmt t).width
/-- Its value. -/
def fval (t : FTy) (x : Word) : Fp.Val := (Fp.fmt t).val (fbits t x)
/-- The encoding of a constant-bank entry (R60). -/
def cbits (t : CTy) (x : W32) : Nat := x.toNat % 2 ^ (Fp.fmt t.toFTy).width

/-- The operations of R151 and R153 on two values: the exact result rounded once, and the flags. -/
abbrev FOp := Fp.Fmt → Fp.RM → Fp.Val → Fp.Val → Nat × Fp.Flags

/-- Two-source operations on values (R151, R153). -/
def floatTwo : Instr → Option (SReg × SSrc × SOpd × FTy × FOp)
  | .fadd d a b t => some (d, a, b, t, fun F rm x y => Fp.add F rm x y)
  | .fsub d a b t => some (d, a, b, t, fun F rm x y => Fp.add F rm x y.neg)
  | .fmul d a b t => some (d, a, b, t, fun F rm x y => Fp.mul F rm x y)
  | .fdiv d a b t => some (d, a, b, t, fun F rm x y => Fp.div F rm x y)
  | .fcmp d a b t => some (d, a, b, t, fun _ _ x y => Fp.cmp x y)
  | _ => none

/-- Fused operations on the values of a, b and the old destination (R152). -/
def floatThree : Instr → Option (SReg × SSrc × SOpd × FTy ×
    (Fp.Fmt → Fp.RM → Fp.Val → Fp.Val → Fp.Val → Nat × Fp.Flags))
  | .fma d a b t => some (d, a, b, t, fun F rm x y z => Fp.fma F rm x y z)
  | .fms d a b t => some (d, a, b, t, fun F rm x y z => Fp.fma F rm x y z.neg)
  | .fnma d a b t => some (d, a, b, t, fun F rm x y z => Fp.fma F rm x.neg y z)
  | _ => none

/-- An encoding of a format without its sign bit. -/
def mag (F : Fp.Fmt) (n : Nat) : Nat := n % 2 ^ (F.eb + F.fb)
/-- An encoding read as sign and magnitude: the order of the numbers is the order of these integers, and both zeros are 0. -/
def key (F : Fp.Fmt) (n : Nat) : Int := if n < 2 ^ (F.eb + F.fb) then (mag F n : Int) else -(mag F n : Int)
/-- NaN: exponent all ones, fraction not 0 (R91). -/
abbrev nan (F : Fp.Fmt) (n : Nat) : Prop := (2 ^ F.eb - 1) * 2 ^ F.fb < mag F n
/-- A signalling NaN: the top bit of the fraction is 0. -/
abbrev snan (F : Fp.Fmt) (n : Nat) : Prop := nan F n ∧ mag F n % 2 ^ F.fb < 2 ^ (F.fb - 1)

/-- The order of R150, which puts −0 below +0. -/
def ord (F : Fp.Fmt) (n : Nat) : Int := if n < 2 ^ (F.eb + F.fb) then (mag F n : Int) else -(mag F n : Int) - 1
/-- The minimum (`true`) or the maximum of two encodings by R150: the operand itself, where one is NaN the other, and for two NaNs
the canonical NaN of R91; a signalling NaN raises NV. -/
def minMaxOf (F : Fp.Fmt) (isMin : Bool) (x y : Nat) : Nat × Fp.Flags :=
  (if nan F x then (if nan F y then (2 ^ F.eb - 1) * 2 ^ F.fb + 2 ^ (F.fb - 1) else y)
   else if nan F y then x
   else if isMin then (if ord F x ≤ ord F y then x else y)
   else if ord F x ≤ ord F y then y else x,
   if snan F x ∨ snan F y then Fp.NV else 0)

/-- The class bit of an encoding by the table of R154. -/
def classOf (F : Fp.Fmt) (n : Nat) : Nat :=
  let e := mag F n / 2 ^ F.fb
  let f := mag F n % 2 ^ F.fb
  let neg : Bool := decide (2 ^ (F.eb + F.fb) ≤ n)
  if e = 2 ^ F.eb - 1 then
    if f = 0 then (if neg then 2 ^ 0 else 2 ^ 7) else if f < 2 ^ (F.fb - 1) then 2 ^ 8 else 2 ^ 9
  else if e = 0 then
    if f = 0 then (if neg then 2 ^ 3 else 2 ^ 4) else if neg then 2 ^ 2 else 2 ^ 5
  else if neg then 2 ^ 1 else 2 ^ 6

/-- The floating-point type of a conversion kind (R155). -/
def kindFp : CvtKind → Option FTy
  | .f32 => some .f32 | .f16 => some .f16 | .bf16 => some .bf16
  | .i64 => none | .n64 => none | .i32 => none | .n32 => none
/-- An integer conversion kind: whether it is signed, and its width (R155). -/
def kindInt : CvtKind → Option (Bool × Nat)
  | .i64 => some (true, 64) | .n64 => some (false, 64) | .i32 => some (true, 32) | .n32 => some (false, 32)
  | .f32 => none | .f16 => none | .bf16 => none
/-- The low `n` bits of a register as a signed or an unsigned number. -/
def readInt (signed : Bool) (n : Nat) (x : Word) : Int :=
  if signed = true ∧ 2 ^ (n - 1) ≤ x.toNat % 2 ^ n then (x.toNat % 2 ^ n : Nat) - 2 ^ n else (x.toNat % 2 ^ n : Nat)

/-- What a floating-point instruction that can go on leaves: the sources' channel entries popped, the encoding written
zero-extended, the flags merged, and the instruction retired or trapped (R19, R146). -/
def FWrites (i : Instr) (q : Form) (d : SReg) (r : Nat × Fp.Flags) (s : State) : Prop :=
  exec i s = .next (((s.pops q).put d (BitVec.ofNat 64 r.1)).retireFp q r.2)

end Sys2Proof.Claims

/-- Two-source floating-point instructions: with sources readable and the destination free, the destination takes the exact
result rounded once in RM to the instruction's type (for `fcmp`, the one bit of the comparison), zero-extended, and its flags are
merged. -/
def Obligations.FloatTwoResult : Prop :=
  ∀ (i : Sys2Proof.Instr) (s : Sys2Proof.Machine.State) (d : Sys2Proof.SReg) (a : Sys2Proof.SSrc) (b : Sys2Proof.SOpd)
    (t : Sys2Proof.FTy) (f : Sys2Proof.Claims.FOp), Sys2Proof.Claims.floatTwo i = some (d, a, b, t, f) →
    let q := Sys2Proof.Machine.formR [.s d] a b
    s.gateOf s.cur q = .go →
    Sys2Proof.Claims.FWrites i q d
      (f (Sys2Proof.Fp.fmt t) s.rm (Sys2Proof.Claims.fval t (s.sval q 0)) (Sys2Proof.Claims.fval t (s.bval q 1 .zext b))) s

/-- Minimum, maximum and sign copy work on encodings: `fmin` and `fmax` return the lesser and the greater operand, with −0 below
+0, the other operand for a NaN and the canonical NaN for two, and raise NV for a signalling NaN only; `fsgn` copies a with the
sign bit of b and raises nothing. -/
def Sys2Proof.Claims.FloatBitsResult : Prop :=
  ∀ (s : Sys2Proof.Machine.State) (d : Sys2Proof.SReg) (a : Sys2Proof.SSrc) (b : Sys2Proof.SOpd) (t : Sys2Proof.FTy),
    let q := Sys2Proof.Machine.formR [.s d] a b
    let F := Sys2Proof.Fp.fmt t
    let x := Sys2Proof.Claims.fbits t (s.sval q 0)
    let y := Sys2Proof.Claims.fbits t (s.bval q 1 .zext b)
    s.gateOf s.cur q = .go →
    Sys2Proof.Claims.FWrites (.fmin d a b t) q d (Sys2Proof.Claims.minMaxOf F true x y) s ∧
    Sys2Proof.Claims.FWrites (.fmax d a b t) q d (Sys2Proof.Claims.minMaxOf F false x y) s ∧
    (∃ n, Sys2Proof.Claims.FWrites (.fsgn d a b t) q d (n, 0) s ∧
      n % 2 ^ (F.width - 1) = x % 2 ^ (F.width - 1) ∧ n / 2 ^ (F.width - 1) = y / 2 ^ (F.width - 1))

/-- Fused, one-source and converting instructions, `li.f32`, and the constant-bank forms: with sources readable and the
destination free, the destination takes the value of its row and the flags are merged; the fused forms round once and read
the old destination as the addend; `fcvt` converts between two floating-point kinds, rounds to an integral value, converts to an
integer, which it extends as its kind says, or converts from one. -/
def Sys2Proof.Claims.FloatOtherResult : Prop :=
  (∀ (i : Sys2Proof.Instr) (s : Sys2Proof.Machine.State) (d : Sys2Proof.SReg) (a b : Sys2Proof.SSrc) (t : Sys2Proof.FTy)
    (f : Sys2Proof.Fp.Fmt → Sys2Proof.Fp.RM → Sys2Proof.Fp.Val → Sys2Proof.Fp.Val → Sys2Proof.Fp.Val →
      Nat × Sys2Proof.Fp.Flags), Sys2Proof.Claims.floatThree i = some (d, a, .reg b, t, f) →
    let q : Sys2Proof.Machine.Form :=
      { srcs := [.s a.reg a.wait, .s b.reg b.wait, .s d false], dsts := [.s d], lit := false }
    s.gateOf s.cur q = .go →
    Sys2Proof.Claims.FWrites i q d (f (Sys2Proof.Fp.fmt t) s.rm (Sys2Proof.Claims.fval t (s.sval q 0))
      (Sys2Proof.Claims.fval t (s.sval q 1)) (Sys2Proof.Claims.fval t (s.sval q 2))) s) ∧
  (∀ (i : Sys2Proof.Instr) (s : Sys2Proof.Machine.State) (d : Sys2Proof.SReg) (a : Sys2Proof.SSrc) (l : Sys2Proof.W32)
    (t : Sys2Proof.FTy) (f : Sys2Proof.Fp.Fmt → Sys2Proof.Fp.RM → Sys2Proof.Fp.Val → Sys2Proof.Fp.Val → Sys2Proof.Fp.Val →
      Nat × Sys2Proof.Fp.Flags), Sys2Proof.Claims.floatThree i = some (d, a, .lit l, t, f) →
    let q : Sys2Proof.Machine.Form := { srcs := [.s a.reg a.wait, .s d false], dsts := [.s d], lit := true }
    s.gateOf s.cur q = .go →
    Sys2Proof.Claims.FWrites i q d (f (Sys2Proof.Fp.fmt t) s.rm (Sys2Proof.Claims.fval t (s.sval q 0))
      (Sys2Proof.Claims.fval t (l.zeroExtend 64)) (Sys2Proof.Claims.fval t (s.sval q 1))) s) ∧
  (∀ (s : Sys2Proof.Machine.State) (d : Sys2Proof.SReg) (a : Sys2Proof.SSrc) (t : Sys2Proof.FTy),
    let q := Sys2Proof.Machine.formA [.s d] a
    s.gateOf s.cur q = .go →
    Sys2Proof.Claims.FWrites (.fsqrt d a t) q d
      (Sys2Proof.Fp.sqrt (Sys2Proof.Fp.fmt t) s.rm (Sys2Proof.Claims.fval t (s.sval q 0))) s ∧
    Sys2Proof.Claims.FWrites (.fclass d a t) q d
      (Sys2Proof.Fp.classify (Sys2Proof.Fp.fmt t) (Sys2Proof.Claims.fbits t (s.sval q 0)), 0) s) ∧
  (∀ (s : Sys2Proof.Machine.State) (d : Sys2Proof.SReg) (a : Sys2Proof.SSrc) (k j : Sys2Proof.CvtKind),
    let q := Sys2Proof.Machine.formA [.s d] a
    let x := s.sval q 0
    s.gateOf s.cur q = .go →
    (∀ T U, Sys2Proof.Claims.kindFp k = some T → Sys2Proof.Claims.kindFp j = some U → k ≠ j →
      Sys2Proof.Claims.FWrites (.fcvt d a k j) q d
        (Sys2Proof.Fp.convert (Sys2Proof.Fp.fmt T) s.rm (Sys2Proof.Claims.fval U x)) s) ∧
    (∀ T, Sys2Proof.Claims.kindFp k = some T → k = j →
      Sys2Proof.Claims.FWrites (.fcvt d a k j) q d
        (Sys2Proof.Fp.integral (Sys2Proof.Fp.fmt T) s.rm (Sys2Proof.Claims.fbits T x)) s) ∧
    (∀ sg n U, Sys2Proof.Claims.kindInt k = some (sg, n) → Sys2Proof.Claims.kindFp j = some U →
      let r := Sys2Proof.Fp.toInt s.rm sg n (Sys2Proof.Claims.fval U x)
      Sys2Proof.Machine.exec (.fcvt d a k j) s =
        .next (((s.pops q).put d (BitVec.ofInt 64 (Sys2Proof.Claims.readInt sg n (BitVec.ofNat 64 r.1)))).retireFp q r.2)) ∧
    (∀ T sg n, Sys2Proof.Claims.kindFp k = some T → Sys2Proof.Claims.kindInt j = some (sg, n) →
      Sys2Proof.Claims.FWrites (.fcvt d a k j) q d
        (Sys2Proof.Fp.ofInt (Sys2Proof.Fp.fmt T) s.rm (Sys2Proof.Claims.readInt sg n x)) s)) ∧
  (∀ (s : Sys2Proof.Machine.State) (d : Sys2Proof.LReg) (imm : BitVec 20),
    let e := Sys2Proof.Machine.lreg d
    s.me.full e = true →
    Sys2Proof.Machine.exec (.liF32 d imm) s =
      .next ((s.put e (BitVec.ofNat 64 (imm.toNat * 4096))).goTo (s.me.pc + 4))) ∧
  (∀ (s : Sys2Proof.Machine.State) (d : Sys2Proof.SReg) (a : Sys2Proof.SSrc) (t : Sys2Proof.CTy) (c : Fin 256),
    let q := Sys2Proof.Machine.formA [.s d] a
    let F := Sys2Proof.Fp.fmt t.toFTy
    let x := Sys2Proof.Claims.fbits t.toFTy (s.sval q 0)
    let y := Sys2Proof.Claims.cbits t s.me.cb[c]
    s.gateOf s.cur q = .go →
    Sys2Proof.Claims.FWrites (.faddCb d a t c) q d (Sys2Proof.Fp.add F s.rm (F.val x) (F.val y)) s ∧
    Sys2Proof.Claims.FWrites (.fsubCb d a t c) q d (Sys2Proof.Fp.add F s.rm (F.val x) (F.val y).neg) s ∧
    Sys2Proof.Claims.FWrites (.fmulCb d a t c) q d (Sys2Proof.Fp.mul F s.rm (F.val x) (F.val y)) s ∧
    Sys2Proof.Claims.FWrites (.fminCb d a t c) q d (Sys2Proof.Claims.minMaxOf F true x y) s ∧
    Sys2Proof.Claims.FWrites (.fmaxCb d a t c) q d (Sys2Proof.Claims.minMaxOf F false x y) s) ∧
  (∀ (s : Sys2Proof.Machine.State) (d : Sys2Proof.SReg) (a : Sys2Proof.SSrc) (t : Sys2Proof.CTy) (c : Fin 256),
    let q : Sys2Proof.Machine.Form := { srcs := [.s a.reg a.wait, .s d false], dsts := [.s d], lit := false }
    let F := Sys2Proof.Fp.fmt t.toFTy
    s.gateOf s.cur q = .go →
    Sys2Proof.Claims.FWrites (.fmaCb d a t c) q d
      (Sys2Proof.Fp.fma F s.rm (Sys2Proof.Claims.fval t.toFTy (s.sval q 0)) (F.val (Sys2Proof.Claims.cbits t s.me.cb[c]))
        (Sys2Proof.Claims.fval t.toFTy (s.sval q 1))) s)

/-- Results of the other scalar floating-point instructions: the statements `FloatBitsResult`, `FloatOtherResult` above. -/
def Obligations.FloatOtherResult : Prop :=
  Sys2Proof.Claims.FloatBitsResult ∧ Sys2Proof.Claims.FloatOtherResult

/-- The frame of the scalar floating-point instructions: whether it completes, waits or traps, one changes no scalar register
but its destination, no vector register, mask, guard or constant, and no byte of memory; of the status it changes the flags only. -/
def Obligations.FloatFrame : Prop :=
  ∀ (i : Sys2Proof.Instr) (s t : Sys2Proof.Machine.State) (d : Sys2Proof.SReg),
    ((∃ a b y f, Sys2Proof.Claims.floatTwo i = some (d, a, b, y, f)) ∨
      (∃ a b y f, Sys2Proof.Claims.floatThree i = some (d, a, b, y, f)) ∨
      (∃ a b y, i = .fmin d a b y ∨ i = .fmax d a b y ∨ i = .fsgn d a b y) ∨ (∃ a y, i = .fsqrt d a y ∨ i = .fclass d a y) ∨
      (∃ a k j, i = .fcvt d a k j) ∨ (∃ e imm, i = .liF32 e imm ∧ d = Sys2Proof.Machine.lreg e) ∨
      (∃ a y c, i = .faddCb d a y c ∨ i = .fsubCb d a y c ∨ i = .fmulCb d a y c ∨ i = .fmaCb d a y c ∨ i = .fminCb d a y c ∨
        i = .fmaxCb d a y c)) →
    Sys2Proof.Claims.TakesTraps s → Sys2Proof.Machine.exec i s = .next t →
    Sys2Proof.Claims.KeptByFloat s.me t.me ∧ Sys2Proof.Claims.OthersKept d s.me t.me ∧
    (s.me.flags &&& t.me.flags = s.me.flags) ∧ (∀ a, t.mem.byte a = s.mem.byte a) ∧ t.lines = s.lines ∧
    Sys2Proof.Claims.OnlySlot s.cur s t

/-- Minimum and maximum of floating-point encodings return the lesser and the greater operand, with −0 below +0; they do not depend
on the order of the operands, a NaN yields to a number, two NaNs give the canonical NaN, only a signalling NaN raises a flag, and
that flag is NV. -/
def Sys2Proof.Claims.MinMax : Prop :=
  ∀ (t : Sys2Proof.FTy) (isMin : Bool) (a b : Nat),
    let F := Sys2Proof.Fp.fmt t
    a < 2 ^ F.width → b < 2 ^ F.width →
    Sys2Proof.Fp.minMax F isMin a b = Sys2Proof.Claims.minMaxOf F isMin a b ∧
    Sys2Proof.Fp.minMax F isMin a b = Sys2Proof.Fp.minMax F isMin b a ∧
    ((F.val a).isNan = true → (F.val b).isNan = false → (Sys2Proof.Fp.minMax F isMin a b).1 = b) ∧
    ((F.val a).isNan = true → (F.val b).isNan = true → (Sys2Proof.Fp.minMax F isMin a b).1 = F.nan false) ∧
    ((Sys2Proof.Fp.minMax F isMin a b).2 =
      if (∃ x, F.val a = .nan x true) ∨ (∃ x, F.val b = .nan x true) then Sys2Proof.Fp.NV else 0)

namespace Sys2Proof.Claims
open Sys2Proof.Fp

/-- How `p.1 · 2^p.2` compares with `q.1 · 2^q.2`. -/
def cmpScaled (p q : Nat × Int) : Ordering :=
  let z := min p.2 q.2
  compare (p.1 * 2 ^ (p.2 - z).toNat) (q.1 * 2 ^ (q.2 - z).toNat)

/-- The magnitude of an encoding without its sign, as `m · 2^x`, were every exponent a normal one and the exponent field as wide as
need be (R92, R96). -/
def magOf (F : Fmt) (k : Nat) : Nat × Int :=
  if k / 2 ^ F.fb = 0 then (k % 2 ^ F.fb, F.emin - F.fb) else (2 ^ F.fb + k % 2 ^ F.fb, (k / 2 ^ F.fb : Nat) - F.bias - F.fb)

/-- Half way between two neighbouring magnitudes, those of `k` and of `k + 1`. -/
def halfWay (F : Fmt) (k : Nat) : Nat × Int := (2 * (magOf F k).1 + 1, (magOf F k).2 - 1)

/-- The magnitude of `k` is what the mode rounds a value of sign `s` to (R95): `c` compares a magnitude with that of the value. -/
def Picks (F : Fmt) (rm : RM) (s : Bool) (c : Nat × Int → Ordering) (k : Nat) : Prop :=
  let low : Prop := c (magOf F k) ≠ .gt ∧ c (magOf F (k + 1)) = .gt
  let high : Prop := c (magOf F k) ≠ .lt ∧ (k = 0 ∨ c (magOf F (k - 1)) = .lt)
  let near (lower upper : Prop) : Prop :=
    (k = 0 ∨ c (halfWay F (k - 1)) = .lt ∨ (c (halfWay F (k - 1)) = .eq ∧ lower)) ∧
    (c (halfWay F k) = .gt ∨ (c (halfWay F k) = .eq ∧ upper))
  match rm with
  | .rtz => low
  | .rup => if s then low else high
  | .rdn => if s then high else low
  | .rne => near (k % 2 = 0) (k % 2 = 0)
  | .rna => near True False

/-- The result and flags of an operation whose exact value has the sign `s` and a magnitude other than 0 that `c` compares with: it is
rounded once, as if the exponent were unbounded above; where that exceeds `K`, the largest finite magnitude, it is the mode's overflow
result, with OF and NX (R96); otherwise NX is raised where it is inexact, and UF beside it where the value, rounded with an exponent
range that goes one further down, lies below the smallest normal one (R97, R98). -/
def Rounded (F : Fmt) (K : Nat) (rm : RM) (s : Bool) (c : Nat × Int → Ordering) (r : Nat × Flags) : Prop :=
  let big := if F.inf then K + 1 else K
  let past : Nat := match rm with
    | .rne => big
    | .rna => big
    | .rtz => K
    | .rup => if s then K else big
    | .rdn => if s then big else K
  ∃ k j, Picks F rm s c k ∧ Picks { F with bias := F.bias + 1 } rm s c j ∧
    r.1 = (if s then 2 ^ (F.eb + F.fb) else 0) + (if k ≤ K then k else past) ∧
    (K < k → r.2 = OF ||| NX) ∧
    (k ≤ K → c (magOf F k) = .eq → r.2 = 0) ∧
    (k ≤ K → c (magOf F k) ≠ .eq → r.2 = if j < 2 ^ (F.fb + 1) then UF ||| NX else NX)

/-- The formats and their largest finite encodings (R91, R93); the last is that of folds (R207). -/
def formats : List (Fmt × Nat) :=
  [(f32, 0x7F7FFFFF), (f16, 0x7BFF), (bf16, 0x7F7F), (e5m2, 0x7B), (e4m3, 0x7E), (f64, 0x7FEFFFFFFFFFFFFF)]

/-- The arithmetic on finite values rounds the exact result once, in every format and mode, with the flags of R96 to R98; an exact zero
has the sign of R99. -/
def Rounding : Prop :=
  ∀ (F : Fmt) (K : Nat) (rm : RM) (s t v : Bool) (m n l : Nat) (x y z : Int), (F, K) ∈ formats →
    let sign (b : Bool) : Nat := if b then 2 ^ (F.eb + F.fb) else 0
    let is (b : Bool) (p : Nat × Int) (r : Nat × Flags) : Prop :=
      (p.1 = 0 → r = (sign b, 0)) ∧ (p.1 ≠ 0 → Rounded F K rm b (fun q => cmpScaled q p) r)
    let sum (b d : Bool) (i j : Nat) (e f : Int) (r : Nat × Flags) : Prop :=
      let u := min e f
      let w : Int := (if b then -1 else 1) * i * 2 ^ (e - u).toNat + (if d then -1 else 1) * j * 2 ^ (f - u).toNat
      (w = 0 → r = (sign (if b = d then b else decide (rm = .rdn)), 0)) ∧
      (w ≠ 0 → is (decide (w < 0)) (w.natAbs, u) r)
    is s (m, x) (Fp.round F rm s m x) ∧
    sum s t m n x y (Fp.add F rm (.fin s m x) (.fin t n y)) ∧
    is (s != t) (m * n, x + y) (Fp.mul F rm (.fin s m x) (.fin t n y)) ∧
    sum (s != t) v (m * n) l (x + y) z (Fp.fma F rm (.fin s m x) (.fin t n y) (.fin v l z)) ∧
    (n ≠ 0 → (m = 0 → Fp.div F rm (.fin s m x) (.fin t n y) = (sign (s != t), 0)) ∧
      (m ≠ 0 → Rounded F K rm (s != t) (fun q => cmpScaled (q.1 * n, q.2 + y) (m, x)) (Fp.div F rm (.fin s m x) (.fin t n y)))) ∧
    (m ≠ 0 → Rounded F K rm false (fun q => cmpScaled (q.1 * q.1, 2 * q.2) (m, x)) (Fp.sqrt F rm (.fin false m x)) ∧
      Rounded F K rm false (fun q => cmpScaled (q.1 * q.1 * m, 2 * q.2 + x) (1, 0)) (Fp.rsqrt F rm (.fin false m x)))

end Sys2Proof.Claims

/-- Minimum and maximum, and the rounding of arithmetic results: the statements `MinMax`, `Rounding` above. -/
def Obligations.MinMaxOrder : Prop :=
  Sys2Proof.Claims.MinMax ∧ Sys2Proof.Claims.Rounding

/-- `fcmp`: with sources readable and the destination free it completes and sets exactly one of the bits 0 to 3 of its
destination, for less, equal, greater and unordered, the order being that of the sign and magnitude of the encodings, in which
+0 and −0 are equal; a signalling NaN raises NV, and nothing else a flag. -/
def Obligations.FloatCompare : Prop :=
  ∀ (s : Sys2Proof.Machine.State) (d : Sys2Proof.SReg) (a : Sys2Proof.SSrc) (b : Sys2Proof.SOpd) (t : Sys2Proof.FTy),
    let q := Sys2Proof.Machine.formR [.s d] a b
    let F := Sys2Proof.Fp.fmt t
    let x := Sys2Proof.Claims.fbits t (s.sval q 0)
    let y := Sys2Proof.Claims.fbits t (s.bval q 1 .zext b)
    let n : Prop := Sys2Proof.Claims.nan F x ∨ Sys2Proof.Claims.nan F y
    let sets (k : Nat) (p : Prop) : Prop := p → ∃ fl, Sys2Proof.Claims.FWrites (.fcmp d a b t) q d (2 ^ k, fl) s ∧
      (Sys2Proof.Claims.snan F x ∨ Sys2Proof.Claims.snan F y → fl = Sys2Proof.Fp.NV) ∧
      (¬ (Sys2Proof.Claims.snan F x ∨ Sys2Proof.Claims.snan F y) → fl = 0)
    s.gateOf s.cur q = .go →
    sets 0 (¬ n ∧ Sys2Proof.Claims.key F x < Sys2Proof.Claims.key F y) ∧
    sets 1 (¬ n ∧ Sys2Proof.Claims.key F x = Sys2Proof.Claims.key F y) ∧
    sets 2 (¬ n ∧ Sys2Proof.Claims.key F y < Sys2Proof.Claims.key F x) ∧ sets 3 n

/-! ### Vectors and masks (04) -/

namespace Sys2Proof.Claims
open Sys2Proof.Machine

/-- The slot takes traps by the frame, or nothing can trap behind the instruction it issues: no breakpoint at its PC and no
enabled flag. -/
def Steady (s : State) : Prop := TakesTraps s ∨ (Unbroken s ∧ s.me.ten = 0)

/-- What the lane-wise instructions leave: vD has the given lanes where the governing mask is 1 and keeps the others, it is
full, every other vector register and every scalar register is as it was, and FLAGS gains the flags of the active lanes and
no other. -/
def VWrites (i : Instr) (d : VReg) (m : MReg) (f : Nat → W32 × Fp.Flags) (s : State) : Prop :=
  ∃ t, exec i s = .next t ∧
    (∀ k, k < 16 → lane t.me.v[d] k = if (s.me.mask m).getLsbD k then (f k).1 else lane s.me.v[d] k) ∧
    t.me.vFull.getLsbD d.val = true ∧ (∀ r : VReg, r ≠ d → t.me.v[r] = s.me.v[r]) ∧
    (∀ j, j < 5 → t.me.flags.getLsbD j =
      (s.me.flags.getLsbD j || (List.range 16).any fun k => (s.me.mask m).getLsbD k && (f k).2.getLsbD j)) ∧
    t.me.s = s.me.s ∧ (∀ a, t.mem.byte a = s.mem.byte a)

/-- Lane-wise integer operations (R158). -/
def laneInt : Instr → Option (VReg × VSrc × VOpd × MReg × (W32 → W32 → W32))
  | .vaddI32 d a b m => some (d, a, b, m, fun x y => x + y)
  | .vsubI32 d a b m => some (d, a, b, m, fun x y => x - y)
  | .vmulI32 d a b m => some (d, a, b, m, fun x y => BitVec.ofNat 32 (x.toNat * y.toNat))
  | .vminI32 d a b m => some (d, a, b, m, fun x y => if x.toInt ≤ y.toInt then x else y)
  | .vminN32 d a b m => some (d, a, b, m, fun x y => if x.toNat ≤ y.toNat then x else y)
  | .vmaxI32 d a b m => some (d, a, b, m, fun x y => if x.toInt ≤ y.toInt then y else x)
  | .vmaxN32 d a b m => some (d, a, b, m, fun x y => if x.toNat ≤ y.toNat then y else x)
  | .vandI32 d a b m => some (d, a, b, m, fun x y => x &&& y)
  | .vorI32 d a b m => some (d, a, b, m, fun x y => x ||| y)
  | .vxorI32 d a b m => some (d, a, b, m, fun x y => x ^^^ y)
  | .vshlI32 d a b m => some (d, a, b, m, fun x y => x <<< (y.extractLsb' 0 5).toNat)
  | .vshrI32 d a b m => some (d, a, b, m, fun x y => x >>> (y.extractLsb' 0 5).toNat)
  | .vsarI32 d a b m => some (d, a, b, m, fun x y => x.sshiftRight (y.extractLsb' 0 5).toNat)
  | _ => none

/-- Lane-wise floating-point operations of two sources, on the encodings in the low bits of a lane (R159). -/
def laneTwo : Instr → Option (VReg × VSrc × VOpd × MReg × FTy × (Fp.Fmt → Fp.RM → Nat → Nat → Nat × Fp.Flags))
  | .vaddFp d a b m t => some (d, a, b, m, t, fun F rm x y => Fp.add F rm (F.val x) (F.val y))
  | .vsubFp d a b m t => some (d, a, b, m, t, fun F rm x y => Fp.add F rm (F.val x) (F.val y).neg)
  | .vmulFp d a b m t => some (d, a, b, m, t, fun F rm x y => Fp.mul F rm (F.val x) (F.val y))
  | .vminFp d a b m t => some (d, a, b, m, t, fun F _ x y => minMaxOf F true x y)
  | .vmaxFp d a b m t => some (d, a, b, m, t, fun F _ x y => minMaxOf F false x y)
  | _ => none

/-- Lane-wise floating-point operations of one source (R154, R171). -/
def laneOne : Instr → Option (VReg × VSrc × MReg × FTy × (Fp.Fmt → Fp.RM → Nat → Nat × Fp.Flags))
  | .vfclass d a m t => some (d, a, m, t, fun F _ x => (Fp.classify F x, 0))
  | .vrecip d a m t => some (d, a, m, t, fun F rm x => Fp.recip F rm (F.val x))
  | .vrsqrt d a m t => some (d, a, m, t, fun F rm x => Fp.rsqrt F rm (F.val x))
  | .vexp2 d a m t => some (d, a, m, t, fun F rm x => Fp.exp2 F rm (F.val x))
  | _ => none

/-- Lane-wise operations with a constant-bank entry (R160). -/
def laneCb : Instr → Option (VReg × VReg × MReg × CTy × Fin 256 × (Fp.Fmt → Fp.RM → Nat → Nat → Nat × Fp.Flags))
  | .vaddCb d a m t c => some (d, a, m, t, c, fun F rm x y => Fp.add F rm (F.val x) (F.val y))
  | .vsubCb d a m t c => some (d, a, m, t, c, fun F rm x y => Fp.add F rm (F.val x) (F.val y).neg)
  | .vmulCb d a m t c => some (d, a, m, t, c, fun F rm x y => Fp.mul F rm (F.val x) (F.val y))
  | .vminCb d a m t c => some (d, a, m, t, c, fun F _ x y => minMaxOf F true x y)
  | .vmaxCb d a m t c => some (d, a, m, t, c, fun F _ x y => minMaxOf F false x y)
  | _ => none

/-- The encoding in the low bits of a lane (R147). -/
def lbits (t : FTy) (x : W32) : Nat := x.toNat % 2 ^ (Fp.fmt t).width
/-- A result as a lane, and its flags. -/
def asLane (r : Nat × Fp.Flags) : W32 × Fp.Flags := (BitVec.ofNat 32 r.1, r.2)

/-- A slot has kept everything but its masks, the flags, PC, the issue and debug state, and the trap frame with PRIV. -/
def KeptByMask (x y : Slot) : Prop :=
  y = { x with m := y.m, flags := y.flags, pc := y.pc, issued := y.issued, halted := y.halted, stepOne := y.stepOne,
               epc := y.epc, cause := y.cause, tval := y.tval, estat := y.estat, priv := y.priv }

end Sys2Proof.Claims

/-- Lane-wise integer instructions: with sources and destination full, each active lane takes the value of its row, a literal
standing in every lane, every inactive lane keeps its value, and no flag is raised; the function codes from 0x0D on are rejected
as an illegal field. -/
def Obligations.LaneIntegerResult : Prop :=
  Sys2Proof.Claims.rejected 0x2C (fun w => 0x0D ≤ w % 32) ∧
  ∀ (i : Sys2Proof.Instr) (s : Sys2Proof.Machine.State) (d : Sys2Proof.VReg) (a : Sys2Proof.VSrc) (b : Sys2Proof.VOpd)
    (m : Sys2Proof.MReg) (f : Sys2Proof.W32 → Sys2Proof.W32 → Sys2Proof.W32),
    Sys2Proof.Claims.laneInt i = some (d, a, b, m, f) → Sys2Proof.Claims.Steady s →
    let q := Sys2Proof.Machine.formV [.v d] a b
    s.gateOf s.cur q = .go →
    Sys2Proof.Claims.VWrites i d m (fun k => (f (Sys2Proof.Machine.lane (s.vval q 0) k)
      (match b with | .reg _ => Sys2Proof.Machine.lane (s.vval q 1) k | .lit l => l), 0)) s

namespace Sys2Proof.Claims
open Sys2Proof.Machine

/-- Lane k of a vector operand b: of its register, or the literal in every lane (R57). -/
def vlane (s : State) (b : VOpd) (k : Nat) : W32 := match b with | .reg r => lane s.me.v[r.reg] k | .lit l => l
/-- Value of a scalar operand b of s0–s31, a literal being extended (R57). -/
def lval (s : State) (e : Ext) (b : LOpd) : Word :=
  match b, e with
  | .reg r, _ => s.me.reg (lreg r.reg)
  | .lit l, .sext => l.signExtend 64
  | .lit l, .zext => l.zeroExtend 64

end Sys2Proof.Claims

/-- The special operands of `vrecip`, `vrsqrt` and `vexp2` (the table of R171), in every type and mode: zeros, infinities and NaNs,
and the square root of a negative number; 2^a of an integral a in the normal range is exact. -/
def Sys2Proof.Claims.SpecialOperands : Prop :=
  ∀ (t : Sys2Proof.FTy) (rm : Sys2Proof.Fp.RM) (s : Bool) (m : Nat) (x : Int),
    let F := Sys2Proof.Fp.fmt t
    let zero (s : Bool) : Nat := if s then 2 ^ (F.eb + F.fb) else 0
    let inf (s : Bool) : Nat := zero s + (2 ^ F.eb - 1) * 2 ^ F.fb
    let nan : Nat := inf false + 2 ^ (F.fb - 1)
    let one : Nat := (2 ^ (F.eb - 1) - 1) * 2 ^ F.fb
    Sys2Proof.Fp.recip F rm (.fin s 0 x) = (inf s, Sys2Proof.Fp.DZ) ∧ Sys2Proof.Fp.recip F rm (.inf s) = (zero s, 0) ∧
    Sys2Proof.Fp.rsqrt F rm (.fin s 0 x) = (inf s, Sys2Proof.Fp.DZ) ∧ Sys2Proof.Fp.rsqrt F rm (.inf false) = (0, 0) ∧
    Sys2Proof.Fp.rsqrt F rm (.inf true) = (nan, Sys2Proof.Fp.NV) ∧
    (0 < m → Sys2Proof.Fp.rsqrt F rm (.fin true m x) = (nan, Sys2Proof.Fp.NV)) ∧
    Sys2Proof.Fp.exp2 F rm (.fin s 0 x) = (one, 0) ∧ Sys2Proof.Fp.exp2 F rm (.inf false) = (inf false, 0) ∧
    Sys2Proof.Fp.exp2 F rm (.inf true) = (0, 0) ∧
    (m < 2 ^ (F.eb - 1) - 1 → Sys2Proof.Fp.exp2 F rm (.fin s m 0) = (if s then one - m * 2 ^ F.fb else one + m * 2 ^ F.fb, 0)) ∧
    (∀ q, Sys2Proof.Fp.recip F rm (.nan s q) = (nan, if q then Sys2Proof.Fp.NV else 0) ∧
      Sys2Proof.Fp.rsqrt F rm (.nan s q) = (nan, if q then Sys2Proof.Fp.NV else 0) ∧
      Sys2Proof.Fp.exp2 F rm (.nan s q) = (nan, if q then Sys2Proof.Fp.NV else 0))

/-- Lane-wise floating-point instructions: each active lane takes what the scalar namesake computes, rounded once in RM, from
the low bits of its source lanes; inactive lanes keep their values and raise nothing. With them, the special operands of R171. -/
def Obligations.LaneFloatResult : Prop :=
  Sys2Proof.Claims.SpecialOperands ∧
  (∀ (i : Sys2Proof.Instr) (s : Sys2Proof.Machine.State) (d : Sys2Proof.VReg) (a : Sys2Proof.VSrc) (b : Sys2Proof.VOpd)
    (m : Sys2Proof.MReg) (t : Sys2Proof.FTy)
    (f : Sys2Proof.Fp.Fmt → Sys2Proof.Fp.RM → Nat → Nat → Nat × Sys2Proof.Fp.Flags),
    Sys2Proof.Claims.laneTwo i = some (d, a, b, m, t, f) → Sys2Proof.Claims.Steady s →
    let q := Sys2Proof.Machine.formV [.v d] a b
    s.gateOf s.cur q = .go →
    Sys2Proof.Claims.VWrites i d m (fun k => Sys2Proof.Claims.asLane (f (Sys2Proof.Fp.fmt t) s.rm
      (Sys2Proof.Claims.lbits t (Sys2Proof.Machine.lane (s.vval q 0) k))
      (Sys2Proof.Claims.lbits t (match b with | .reg _ => Sys2Proof.Machine.lane (s.vval q 1) k | .lit l => l)))) s) ∧
  (∀ (i : Sys2Proof.Instr) (s : Sys2Proof.Machine.State) (d : Sys2Proof.VReg) (a : Sys2Proof.VSrc)
    (m : Sys2Proof.MReg) (t : Sys2Proof.FTy) (f : Sys2Proof.Fp.Fmt → Sys2Proof.Fp.RM → Nat → Nat × Sys2Proof.Fp.Flags),
    Sys2Proof.Claims.laneOne i = some (d, a, m, t, f) → Sys2Proof.Claims.Steady s →
    let q : Sys2Proof.Machine.Form := { srcs := [.v a.reg a.wait], dsts := [.v d], lit := false }
    s.gateOf s.cur q = .go →
    Sys2Proof.Claims.VWrites i d m (fun k => Sys2Proof.Claims.asLane (f (Sys2Proof.Fp.fmt t) s.rm
      (Sys2Proof.Claims.lbits t (Sys2Proof.Machine.lane (s.vval q 0) k)))) s) ∧
  (∀ (i : Sys2Proof.Instr) (s : Sys2Proof.Machine.State) (d a : Sys2Proof.VReg) (m : Sys2Proof.MReg) (t : Sys2Proof.CTy)
    (c : Fin 256) (f : Sys2Proof.Fp.Fmt → Sys2Proof.Fp.RM → Nat → Nat → Nat × Sys2Proof.Fp.Flags),
    Sys2Proof.Claims.laneCb i = some (d, a, m, t, c, f) → Sys2Proof.Claims.Steady s →
    let q : Sys2Proof.Machine.Form := { srcs := [.v a false], dsts := [.v d], lit := false }
    s.gateOf s.cur q = .go →
    Sys2Proof.Claims.VWrites i d m (fun k => Sys2Proof.Claims.asLane (f (Sys2Proof.Fp.fmt t.toFTy) s.rm
      (Sys2Proof.Claims.lbits t.toFTy (Sys2Proof.Machine.lane (s.vval q 0) k))
      (Sys2Proof.Claims.cbits t s.me.cb[c]))) s) ∧
  (∀ (s : Sys2Proof.Machine.State) (d : Sys2Proof.VReg) (a : Sys2Proof.VSrc) (b : Sys2Proof.VOpd) (m : Sys2Proof.MReg)
    (t : Sys2Proof.FTy) (y : Sys2Proof.CTy) (c : Fin 256), Sys2Proof.Claims.Steady s → s.me.vFull = BitVec.allOnes 32 →
    let F := Sys2Proof.Fp.fmt t
    let G := Sys2Proof.Fp.fmt y.toFTy
    let x (u : Sys2Proof.FTy) (r : Sys2Proof.VReg) (k : Nat) :=
      Sys2Proof.Claims.lbits u (Sys2Proof.Machine.lane s.me.v[r] k)
    Sys2Proof.Claims.VWrites (.vfma d a b m t) d m (fun k => Sys2Proof.Claims.asLane
      (Sys2Proof.Fp.fma F s.rm (F.val (x t a.reg k))
        (F.val (Sys2Proof.Claims.lbits t (Sys2Proof.Claims.vlane s b k))) (F.val (x t d k)))) s ∧
    Sys2Proof.Claims.VWrites (.vfmaCb d a.reg m y c) d m (fun k => Sys2Proof.Claims.asLane
      (Sys2Proof.Fp.fma G s.rm (G.val (x y.toFTy a.reg k)) (G.val (Sys2Proof.Claims.cbits y s.me.cb[c]))
        (G.val (x y.toFTy d k)))) s)

/-- `fclass` and `vfclass` set exactly one bit of a ten-bit class, that of the encoding of their source, zero-extended, and
raise no flag. -/
def Obligations.ClassifyResult : Prop :=
  (∀ (s : Sys2Proof.Machine.State) (d : Sys2Proof.SReg) (a : Sys2Proof.SSrc) (t : Sys2Proof.FTy),
    let q := Sys2Proof.Machine.formA [.s d] a
    s.gateOf s.cur q = .go →
    Sys2Proof.Claims.FWrites (.fclass d a t) q d
      (Sys2Proof.Claims.classOf (Sys2Proof.Fp.fmt t) (Sys2Proof.Claims.fbits t (s.sval q 0)), 0) s) ∧
  (∀ (s : Sys2Proof.Machine.State) (d : Sys2Proof.VReg) (a : Sys2Proof.VSrc) (m : Sys2Proof.MReg) (t : Sys2Proof.FTy),
    let q : Sys2Proof.Machine.Form := { srcs := [.v a.reg a.wait], dsts := [.v d], lit := false }
    s.gateOf s.cur q = .go → Sys2Proof.Claims.Steady s →
    Sys2Proof.Claims.VWrites (.vfclass d a m t) d m (fun k => (BitVec.ofNat 32 (Sys2Proof.Claims.classOf (Sys2Proof.Fp.fmt t)
      (Sys2Proof.Claims.lbits t (Sys2Proof.Machine.lane (s.vval q 0) k))), 0)) s)

/-- Lane conversions: an active lane of `vcvt` takes its converted value; between two floating-point kinds it is the exact value
rounded once, or an integral value where the kinds agree, to an integer kind the nearest representable integer, and from an
integer the rounded integer. -/
def Sys2Proof.Claims.LaneConvertResult : Prop :=
  ∀ (s : Sys2Proof.Machine.State) (d : Sys2Proof.VReg) (a : Sys2Proof.VSrc) (m : Sys2Proof.MReg) (k j : Sys2Proof.VCvtKind),
    let q : Sys2Proof.Machine.Form := { srcs := [.v a.reg a.wait], dsts := [.v d], lit := false }
    s.gateOf s.cur q = .go → Sys2Proof.Claims.Steady s →
    ∃ f : Sys2Proof.W32 → Nat × Sys2Proof.Fp.Flags,
      Sys2Proof.Claims.VWrites (.vcvt d a m k j) d m
        (fun i => Sys2Proof.Claims.asLane (f (Sys2Proof.Machine.lane (s.vval q 0) i))) s ∧
      (∀ F G, Sys2Proof.Machine.vcvtFmt j = some F → Sys2Proof.Machine.vcvtFmt k = some G → k ≠ j →
        ∀ x, f x = Sys2Proof.Fp.convert G s.rm (F.val (x.toNat % 2 ^ F.width))) ∧
      (∀ F, Sys2Proof.Machine.vcvtFmt j = some F → k = j → ∀ x, f x = Sys2Proof.Fp.integral F s.rm (x.toNat % 2 ^ F.width)) ∧
      (∀ F, Sys2Proof.Machine.vcvtFmt j = some F → (k = .i32 ∨ k = .n32) →
        ∀ x, f x = Sys2Proof.Fp.toInt s.rm (k == .i32) 32 (F.val (x.toNat % 2 ^ F.width))) ∧
      (∀ G, Sys2Proof.Machine.vcvtFmt k = some G →
        (j = .i32 → ∀ x, f x = Sys2Proof.Fp.ofInt G s.rm x.toInt) ∧
        (j = .n32 → ∀ x, f x = Sys2Proof.Fp.ofInt G s.rm (x.toNat : Int)))

/-- Lane movements, selection and broadcasts: `vbcast` and `vperm`, `vslide` write active lanes, `vins` one lane, `vsel` and
`vbcast.f32` every lane; every source lane is read before any lane is written. -/
def Sys2Proof.Claims.LaneMoveResult : Prop :=
  ∀ (s : Sys2Proof.Machine.State) (d : Sys2Proof.VReg) (a : Sys2Proof.VSrc) (b : Sys2Proof.VOpd) (x : Sys2Proof.LSrc)
    (y : Sys2Proof.LOpd) (m : Sys2Proof.MReg) (imm : BitVec 20),
    Sys2Proof.Claims.Steady s → s.me.vFull = BitVec.allOnes 32 → s.me.sFull = BitVec.allOnes 64 →
    let w := s.me.reg (Sys2Proof.Machine.lreg x.reg)
    let i := Sys2Proof.Claims.lval s .zext y
    let n := (Sys2Proof.Claims.lval s .sext y).toInt
    let l (k : Nat) := Sys2Proof.Machine.lane s.me.v[a.reg] k
    let old (k : Nat) := Sys2Proof.Machine.lane s.me.v[d] k
    let r (k : Nat) := Sys2Proof.Claims.vlane s b k
    let all (i : Sys2Proof.Instr) (f : Nat → Sys2Proof.W32) : Prop :=
      ∃ t, Sys2Proof.Machine.exec i s = .next t ∧ (∀ k, k < 16 → Sys2Proof.Machine.lane t.me.v[d] k = f k) ∧
        (∀ r : Sys2Proof.VReg, r ≠ d → t.me.v[r] = s.me.v[r]) ∧ t.me.flags = s.me.flags ∧ t.me.s = s.me.s
    all (.vbcast d x m) (fun k => if (s.me.mask m).getLsbD k then w.extractLsb' 0 32 else old k) ∧
    all (.vins d x y) (fun k => if k = i.toNat % 16 then w.extractLsb' 0 32 else old k) ∧
    all (.vperm d a b m) (fun k => if (s.me.mask m).getLsbD k then l ((r k).toNat % 16) else old k) ∧
    all (.vslide d a y m)
      (fun k => if (s.me.mask m).getLsbD k then
          if 0 ≤ (k : Int) + n ∧ (k : Int) + n ≤ 15 then l ((k : Int) + n).toNat else 0
        else old k) ∧
    all (.vsel d a b m) (fun k => if (s.me.mask m).getLsbD k then l k else r k) ∧
    all (.vbcastF32 d imm) (fun _ => BitVec.ofNat 32 (imm.toNat * 4096))

/-- Moving, selecting, broadcasting and converting lanes: the statements `LaneMoveResult`, `LaneConvertResult` above. -/
def Obligations.LaneMoveAndConvert : Prop :=
  Sys2Proof.Claims.LaneMoveResult ∧ Sys2Proof.Claims.LaneConvertResult

namespace Sys2Proof.Claims
open Sys2Proof.Machine

/-- What an instruction from vectors to a scalar register leaves: its destination (s0 stays 0), the flags merged, and every other
scalar register, every vector register and memory as they were. -/
def VScalar (i : Instr) (D : SReg) (w : Word) (fl : Fp.Flags) (s : State) : Prop :=
  ∃ t, exec i s = .next t ∧ t.me.reg D = (if D = 0 then 0 else w) ∧ OthersKept D s.me t.me ∧ t.me.v = s.me.v ∧
    t.me.flags = s.me.flags ||| fl ∧ (∀ a, t.mem.byte a = s.mem.byte a)

/-- Two numbers under a predicate of R162. -/
def ordered (p : Pred) (x y : Int) : Prop :=
  match p with | .eq => x = y | .ne => x ≠ y | .lt => x < y | .ge => y ≤ x
/-- Two lanes of a floating-point type under a predicate: a NaN is only unequal. -/
def orderedFp (F : Fp.Fmt) (p : Pred) (x y : W32) : Prop :=
  let a := x.toNat % 2 ^ F.width
  let b := y.toNat % 2 ^ F.width
  if nan F a ∨ nan F b then p = .ne else ordered p (key F a) (key F b)
/-- The floating-point format of a compared type. -/
def cmpFmt : CmpTy → Option Fp.Fmt
  | .i32 => none | .n32 => none | .f32 => some Fp.f32 | .f16 => some Fp.f16 | .bf16 => some Fp.bf16
/-- `a P b` of two lanes (R162). -/
def holds (c : CmpTy) (p : Pred) (x y : W32) : Prop :=
  match cmpFmt c with
  | some F => orderedFp F p x y
  | none => if c = .i32 then ordered p x.toInt y.toInt else ordered p x.toNat y.toNat
/-- A comparison of two lanes raises NV. -/
def signals (c : CmpTy) (x y : W32) : Prop :=
  match cmpFmt c with
  | some F => snan F (x.toNat % 2 ^ F.width) ∨ snan F (y.toNat % 2 ^ F.width)
  | none => False

/-- One combination of a reduction, with its flags (R150, R158, R165). -/
def combine (o : RedOp) (t : RedTy) (rm : Fp.RM) (x y : W32) : W32 × Fp.Flags :=
  match t, o with
  | .f32, .sum => asLane (Fp.add Fp.f32 rm (Fp.f32.val x.toNat) (Fp.f32.val y.toNat))
  | .f32, .max => asLane (minMaxOf Fp.f32 false x.toNat y.toNat)
  | .f32, .min => asLane (minMaxOf Fp.f32 true x.toNat y.toNat)
  | .i32, .sum => (x + y, 0)
  | .n32, .sum => (x + y, 0)
  | .i32, .max => (if x.toInt ≤ y.toInt then y else x, 0)
  | .i32, .min => (if x.toInt ≤ y.toInt then x else y, 0)
  | .n32, .max => (if x.toNat ≤ y.toNat then y else x, 0)
  | .n32, .min => (if x.toNat ≤ y.toNat then x else y, 0)

/-- The tree of R165: the node of 2^k lanes from lane `lo` on, with the flags of its combinations. -/
def redNode (op : W32 → W32 → W32 × Fp.Flags) (m : Mask) (x : Nat → W32) : Nat → Nat → Option (W32 × Fp.Flags)
  | 0, lo => if m.getLsbD lo then some (x lo, 0) else none
  | k + 1, lo =>
    match redNode op m x k lo, redNode op m x k (lo + 2 ^ k) with
    | none, h => h
    | l, none => l
    | some l, some h => some ((op l.1 h.1).1, l.2 ||| h.2 ||| (op l.1 h.1).2)

/-- The identity of an empty reduction (the table of R166), extended. -/
def emptyRed : RedOp → RedTy → Word
  | .sum, _ => 0
  | .max, .i32 => 0xFFFFFFFF80000000 | .max, .n32 => 0 | .max, .f32 => 0xFF800000
  | .min, .i32 => 0x7FFFFFFF | .min, .n32 => 0xFFFFFFFF | .min, .f32 => 0x7F800000

/-- The three reductions. -/
def redInstr (o : RedOp) (d : LReg) (a : VSrc) (m : MReg) (t : RedTy) : Instr :=
  match o with | .sum => .vredsum d a m t | .max => .vredmax d a m t | .min => .vredmin d a m t

end Sys2Proof.Claims

/-- Comparisons, extractions and reductions: `vcmp` writes each bit of its mask, 0 where the lane is inactive, and raises NV for a
signalling NaN in an active lane only; `vext` extends lane b[3:0]; a reduction combines the active lanes by the fixed tree, with
the flags of its combinations, and one of no lane gives the identity. -/
def Sys2Proof.Claims.LaneToScalarResult : Prop :=
  ∀ (s : Sys2Proof.Machine.State) (a : Sys2Proof.VSrc) (b : Sys2Proof.VOpd) (d : Sys2Proof.LReg) (y : Sys2Proof.LOpd)
    (e m : Sys2Proof.MReg) (c : Sys2Proof.CmpTy) (p : Sys2Proof.Pred) (t : Sys2Proof.RedTy),
    Sys2Proof.Claims.Steady s → s.me.vFull = BitVec.allOnes 32 → s.me.sFull = BitVec.allOnes 64 →
    let x := s.me.v[a.reg]
    let n := (Sys2Proof.Claims.lval s .zext y).toNat % 16
    let D := Sys2Proof.Machine.lreg d
    let y' (k : Nat) := Sys2Proof.Claims.vlane s b k
    let nv : Prop := ∃ k, k < 16 ∧ (s.me.mask m).getLsbD k = true ∧ Sys2Proof.Claims.signals c (Sys2Proof.Machine.lane x k) (y' k)
    (∃ u, Sys2Proof.Machine.exec (.vcmp e a b m c p) s = .next u ∧
      (∀ k, k < 16 → ((u.me.mask e).getLsbD k = true ↔
        e = 0 ∨ ((s.me.mask m).getLsbD k = true ∧ Sys2Proof.Claims.holds c p (Sys2Proof.Machine.lane x k) (y' k)))) ∧
      (nv → u.me.flags = s.me.flags ||| Sys2Proof.Fp.NV) ∧ (¬ nv → u.me.flags = s.me.flags) ∧
      (∀ f, f ≠ e → u.me.mask f = s.me.mask f) ∧ u.me.s = s.me.s ∧ u.me.v = s.me.v ∧ (∀ a, u.mem.byte a = s.mem.byte a)) ∧
    Sys2Proof.Claims.VScalar (.vextN32 d a y) D ((Sys2Proof.Machine.lane x n).zeroExtend 64) 0 s ∧
    Sys2Proof.Claims.VScalar (.vextI32 d a y) D ((Sys2Proof.Machine.lane x n).signExtend 64) 0 s ∧
    (∀ o, s.me.mask m = 0 →
      Sys2Proof.Claims.VScalar (Sys2Proof.Claims.redInstr o d a m t) D (Sys2Proof.Claims.emptyRed o t) 0 s) ∧
    (∀ o z fl, Sys2Proof.Claims.redNode (Sys2Proof.Claims.combine o t s.rm) (s.me.mask m) (Sys2Proof.Machine.lane x) 4 0 =
        some (z, fl) →
      Sys2Proof.Claims.VScalar (Sys2Proof.Claims.redInstr o d a m t) D
        (match t with | .i32 => z.signExtend 64 | .n32 => z.zeroExtend 64 | .f32 => z.zeroExtend 64) fl s)

/-- Dot products of 64 elements: the floating-point forms add four groups of sixteen in ascending order to the accumulator, with
the flags of the groups, and the integer forms add the exact sum of the products modulo 2^32, inactive elements counting 0; a
reserved ternary code of an active element raises NV; `vdott` takes FEATURE_ABSENT where ternary arithmetic is not accepted. -/
def Sys2Proof.Claims.DotProductResult : Prop :=
  ∀ (s : Sys2Proof.Machine.State) (a : Sys2Proof.VSrc) (b : Sys2Proof.VOpd) (d : Sys2Proof.LReg) (m : Sys2Proof.MReg),
    Sys2Proof.Claims.Steady s → s.me.vFull = BitVec.allOnes 32 → s.me.sFull = BitVec.allOnes 64 →
    let D := Sys2Proof.Machine.lreg d
    let c := s.me.reg D
    let on (k : Nat) : Bool := (s.me.mask m).getLsbD (k / 4)
    let p (k : Nat) : Nat := (s.me.v[a.reg].extractLsb' (8 * k) 8).toNat
    let q (k : Nat) : Nat := ((Sys2Proof.Claims.vlane s b (k / 4)).extractLsb' (8 * (k % 4)) 8).toNat
    let pairs (F : Sys2Proof.Fp.Fmt) :=
      (List.range 64).map fun k => if on k then (F.val (p k), F.val (q k)) else (F.val 0, F.val 0)
    let code (k : Nat) : Nat := (s.me.v[a.reg].extractLsb' (2 * k) 2).toNat
    let scalar (i : Sys2Proof.Instr) (w : Sys2Proof.Word) (fl : Sys2Proof.Fp.Flags) : Prop := Sys2Proof.Claims.VScalar i D w fl s
    let exact (x : Nat → Int) : Sys2Proof.Word :=
      (BitVec.ofInt 32 ((c.extractLsb' 0 32).toInt +
        ((List.range 64).map fun k => if on k then x k * (BitVec.ofNat 8 (q k)).toInt else 0).sum)).signExtend 64
    let fp (F : Sys2Proof.Fp.Fmt) := Sys2Proof.Fp.dot (pairs F) (c.toNat % 2 ^ 32)
    let reserved : Prop := ∃ k, k < 64 ∧ on k = true ∧ code k = 2
    scalar (.vdot8E4m3 d a b m) (BitVec.ofNat 64 (fp Sys2Proof.Fp.e4m3).1) (fp Sys2Proof.Fp.e4m3).2 ∧
    scalar (.vdot8E5m2 d a b m) (BitVec.ofNat 64 (fp Sys2Proof.Fp.e5m2).1) (fp Sys2Proof.Fp.e5m2).2 ∧
    scalar (.vdot8I8 d a b m) (exact fun k => (BitVec.ofNat 8 (p k)).toInt) 0 ∧
    (s.feat.getLsbD 2 = true → ∀ fl, (reserved → fl = Sys2Proof.Fp.NV) → (¬ reserved → fl = 0) →
      scalar (.vdottT2 d a b m) (exact fun k => match code k with | 1 => 1 | 3 => -1 | _ => 0) fl) ∧
    (s.feat.getLsbD 2 = false →
      Sys2Proof.Machine.exec (.vdottT2 d a b m) s = s.trap 0x04 (Sys2Proof.Machine.wordOf (.vdottT2 d a b m)) false)

/-- Row quantisation: `vqnt` writes 64 elements of one byte, in the order of the four source registers, to vD, and the row scale,
sign-extended, to lane 0 of vD+1, whose other lanes become 0; `vdqnt` writes 64 FP32 values to four registers, each the element
scaled by the sum of the scale base and the row scale; both merge the flags of their elements. -/
def Sys2Proof.Claims.QuantiseResult : Prop :=
  ∀ (s : Sys2Proof.Machine.State) (d : Sys2Proof.VReg) (a : Sys2Proof.VSrc) (b : Sys2Proof.LOpd) (f : Sys2Proof.QTy),
    Sys2Proof.Claims.Steady s → s.me.vFull = BitVec.allOnes 32 → s.me.sFull = BitVec.allOnes 64 →
    let w := Sys2Proof.Claims.lval s .sext b
    let reg (r : Sys2Proof.VReg) (k : Nat) (h : r.val + k < 32) : Sys2Proof.VReg := ⟨r.val + k, h⟩
    (∀ (ha : a.reg.val % 4 = 0) (hd : d.val % 2 = 0),
      let xs := (List.range 64).map fun k =>
        (Sys2Proof.Machine.lane (s.me.v[(a.reg.val + k / 16) % 32]'(Nat.mod_lt _ (by decide))) (k % 16)).toNat
      let r := Sys2Proof.Fp.quantRow f xs ((w.extractLsb' 0 8).toInt)
      ∃ t, Sys2Proof.Machine.exec (.vqnt d a b f) s = .next t ∧
        (∀ k, k < 64 → (t.me.v[d].extractLsb' (8 * k) 8).toNat = r.2.1.getD k 0 % 256) ∧
        (∀ k, k < 16 → Sys2Proof.Machine.lane (t.me.v[reg d 1 (by omega)]) k = if k = 0 then BitVec.ofInt 32 r.1 else 0) ∧
        t.me.flags = s.me.flags ||| r.2.2 ∧
        (∀ x : Sys2Proof.VReg, x.val ≠ d.val → x.val ≠ d.val + 1 → t.me.v[x] = s.me.v[x])) ∧
    (∀ (hd : d.val % 4 = 0),
      let z (k : Nat) := Sys2Proof.Fp.dequant ((w.extractLsb' 0 8).toInt + (w.extractLsb' 8 6).toInt)
        ((Sys2Proof.Fp.qfmt f).val (s.me.v[a.reg].extractLsb' (8 * k) 8).toNat)
      ∃ t, Sys2Proof.Machine.exec (.vdqnt d a b f) s = .next t ∧
        (∀ (k : Nat) (hk : k < 64),
          Sys2Proof.Machine.lane (t.me.v[reg d (k / 16) (by omega)]) (k % 16) = BitVec.ofNat 32 (z k).1) ∧
        (∀ j, j < 5 → t.me.flags.getLsbD j = (s.me.flags.getLsbD j || (List.range 64).any fun k => (z k).2.getLsbD j)) ∧
        (∀ x : Sys2Proof.VReg, x.val < d.val ∨ d.val + 4 ≤ x.val → t.me.v[x] = s.me.v[x]))

/-- Comparisons, extraction, reductions, dot products and quantisation: the statements `LaneToScalarResult`, `DotProductResult`,
`QuantiseResult` above. -/
def Obligations.LaneReduction : Prop :=
  Sys2Proof.Claims.LaneToScalarResult ∧ Sys2Proof.Claims.DotProductResult ∧ Sys2Proof.Claims.QuantiseResult

/-- Mask instructions: `mand`, `mor`, `mxor`, `mnot` and `mset` write a mask (m0 keeps its value), with a literal's low bits as a
mask; `mpop`, `mfirst` and `mtest` write the count, the lowest index or 16, and the selected bits to a scalar register; other
function codes of the row, and operands that a function does not use and that are not 0, are rejected as an illegal field. -/
def Obligations.MaskResult : Prop :=
  Sys2Proof.Claims.rejected 0x36 (fun w => 8 ≤ w % 32 ∨
    ((w % 32 = 3 ∨ w % 32 = 4 ∨ w % 32 = 5) ∧ (w / 2 ^ 7 % 2 ^ 6 ≠ 0 ∨ w / 2 ^ 5 % 2 ≠ 0)) ∨
    (w % 32 = 6 ∧ (w / 2 ^ 13 % 2 ^ 6 ≠ 0 ∨ w / 2 ^ 6 % 2 ≠ 0))) ∧
  ∀ (s : Sys2Proof.Machine.State) (d a : Sys2Proof.MReg) (b : Sys2Proof.MOpd) (r : Sys2Proof.SReg) (x : Sys2Proof.SOpd),
    Sys2Proof.Claims.TakesTraps s ∨ Sys2Proof.Claims.Unbroken s → s.me.sFull = BitVec.allOnes 64 →
    (∀ r, s.role s.cur r = .plain) →
    let writes (i : Sys2Proof.Instr) (m : Sys2Proof.Mask) : Prop :=
      ∃ t, Sys2Proof.Machine.exec i s = .next t ∧ t.me.mask d = (if d = 0 then 0xFFFF else m) ∧
        (∀ e, e ≠ d → t.me.mask e = s.me.mask e) ∧ t.me.s = s.me.s ∧ t.me.v = s.me.v ∧ t.me.flags = s.me.flags
    let scalar (i : Sys2Proof.Instr) (w : Sys2Proof.Word) : Prop :=
      ∃ t, Sys2Proof.Machine.exec i s = .next t ∧ t.me.reg r = (if r = 0 then 0 else w) ∧
        (∀ e, e ≠ r → t.me.reg e = s.me.reg e) ∧ t.me.m = s.me.m ∧ t.me.v = s.me.v ∧ t.me.flags = s.me.flags
    let y := s.me.mask a
    let z : Sys2Proof.Mask := match b with | .reg e => s.me.mask e | .lit l => l.extractLsb' 0 16
    let v : Sys2Proof.Mask := match x with | .reg e => (s.me.reg e.reg).extractLsb' 0 16 | .lit l => l.extractLsb' 0 16
    writes (.mand d a b) (y &&& z) ∧ writes (.mor d a b) (y ||| z) ∧ writes (.mxor d a b) (y ^^^ z) ∧
    writes (.mnot d a) (~~~y) ∧ writes (.mset d x) v ∧
    scalar (.mpop r a) (BitVec.ofNat 64 ((List.range 16).filter fun k => y.getLsbD k).length) ∧
    (∀ k, k < 16 → y.getLsbD k = true → (∀ j, j < k → y.getLsbD j = false) → scalar (.mfirst r a) (BitVec.ofNat 64 k)) ∧
    (y = 0 → scalar (.mfirst r a) 16) ∧ scalar (.mtest r a x) ((y &&& v).zeroExtend 64)

/-- The frame of the lane-wise instructions: whether it completes, waits or traps, one changes no scalar register,
mask, guard or constant, no vector register but its destinations, no byte of memory, and of the status only the flags. -/
def Sys2Proof.Claims.VectorFrame : Prop :=
  ∀ (i : Sys2Proof.Instr) (s t : Sys2Proof.Machine.State) (d : Sys2Proof.VReg),
    ((∃ a b m f, Sys2Proof.Claims.laneInt i = some (d, a, b, m, f)) ∨
      (∃ a b m y f, Sys2Proof.Claims.laneTwo i = some (d, a, b, m, y, f)) ∨
      (∃ a m y f, Sys2Proof.Claims.laneOne i = some (d, a, m, y, f)) ∨
      (∃ a m y c f, Sys2Proof.Claims.laneCb i = some (d, a, m, y, c, f)) ∨ (∃ a b m y, i = .vfma d a b m y) ∨
      (∃ a m y c, i = .vfmaCb d a m y c) ∨ (∃ a m k j, i = .vcvt d a m k j) ∨
      (∃ a b m, i = .vperm d a b m ∨ i = .vsel d a b m) ∨ (∃ imm, i = .vbcastF32 d imm) ∨
      (∃ a m, i = .vbcast d a m) ∨ (∃ a b, i = .vins d a b) ∨ ∃ a b m, i = .vslide d a b m) →
    Sys2Proof.Claims.TakesTraps s → Sys2Proof.Machine.exec i s = .next t →
    Sys2Proof.Claims.KeptByVector s.me t.me ∧
    (∀ r : Sys2Proof.VReg, r ≠ d → t.me.v[r] = s.me.v[r] ∧ t.me.vFull.getLsbD r.val = s.me.vFull.getLsbD r.val) ∧
    (∀ a, t.mem.byte a = s.mem.byte a) ∧ t.lines = s.lines ∧ Sys2Proof.Claims.OnlySlot s.cur s t

/-- The frame of the instructions that take vectors or masks to one scalar register, of those that write a mask, and of the
quantising ones: nothing changes but the destination, or the two or four destinations, and the flags; no byte of memory. -/
def Sys2Proof.Claims.VectorScalarFrame : Prop :=
  ∀ (i : Sys2Proof.Instr) (s t : Sys2Proof.Machine.State), Sys2Proof.Claims.TakesTraps s →
    Sys2Proof.Machine.exec i s = .next t →
    (∀ d : Sys2Proof.SReg,
      ((∃ e : Sys2Proof.LReg, d = Sys2Proof.Machine.lreg e ∧
        ((∃ a b, i = .vextN32 e a b ∨ i = .vextI32 e a b) ∨
          (∃ a k y, i = .vredsum e a k y ∨ i = .vredmax e a k y ∨ i = .vredmin e a k y) ∨
          (∃ a b m, i = .vdot8E4m3 e a b m ∨ i = .vdot8E5m2 e a b m ∨ i = .vdot8I8 e a b m ∨ i = .vdottT2 e a b m))) ∨
        (∃ a, i = .mpop d a ∨ i = .mfirst d a) ∨ (∃ a b, i = .mtest d a b)) →
      Sys2Proof.Claims.KeptByFloat s.me t.me ∧ Sys2Proof.Claims.OthersKept d s.me t.me ∧
      (∀ a, t.mem.byte a = s.mem.byte a) ∧ t.lines = s.lines ∧ Sys2Proof.Claims.OnlySlot s.cur s t) ∧
    (∀ d : Sys2Proof.MReg,
      ((∃ a b m c p, i = .vcmp d a b m c p) ∨ (∃ a b, i = .mand d a b ∨ i = .mor d a b ∨ i = .mxor d a b) ∨
        (∃ a, i = .mnot d a) ∨ ∃ b, i = .mset d b) →
      Sys2Proof.Claims.KeptByMask s.me t.me ∧ (∀ e, e ≠ d → t.me.mask e = s.me.mask e) ∧
      (∀ a, t.mem.byte a = s.mem.byte a) ∧ t.lines = s.lines ∧ Sys2Proof.Claims.OnlySlot s.cur s t) ∧
    (∀ (d : Sys2Proof.VReg) (n : Nat), ((∃ a b f, i = .vqnt d a b f) ∧ n = 2) ∨ ((∃ a b f, i = .vdqnt d a b f) ∧ n = 4) →
      i.wf = true →
      Sys2Proof.Claims.KeptByVector s.me t.me ∧
      (∀ r : Sys2Proof.VReg, r.val < d.val ∨ d.val + n ≤ r.val →
        t.me.v[r] = s.me.v[r] ∧ t.me.vFull.getLsbD r.val = s.me.vFull.getLsbD r.val) ∧
      (∀ a, t.mem.byte a = s.mem.byte a) ∧ t.lines = s.lines ∧ Sys2Proof.Claims.OnlySlot s.cur s t)

/-- What the vector and mask instructions leave: the statements `VectorFrame`, `VectorScalarFrame` above. -/
def Obligations.VectorFrame : Prop :=
  Sys2Proof.Claims.VectorFrame ∧ Sys2Proof.Claims.VectorScalarFrame

/-! ### The ctl registers (01 and the chapters that define each) -/

namespace Sys2Proof.Claims
open Sys2Proof.Machine

/-- A scalar source that is an ordinary full register. -/
def Readable (s : State) (a : SSrc) : Prop := s.role s.cur a.reg = .plain ∧ s.me.full a.reg = true

/-- The registers that a task may read (R45, R334, R351, R372, R393). -/
def taskReads (c : Nat) : Bool :=
  decide (c ≤ 0x00B) || c == 0x110 || c == 0x302 || decide (0x340 ≤ c ∧ c ≤ 0x345) || decide (0x350 ≤ c ∧ c ≤ 0x353)

/-- The registers that no instruction of a compute die changes (R45, R334, R372). -/
def readOnly (c : Nat) : Bool :=
  (decide (c ≤ 0x00B) && c != 0x001) || c == 0x200 || c == 0x302 || c == 0x323 || decide (0x340 ≤ c ∧ c ≤ 0x345)

/-- The registers with a field that is written 1 to clear (R141). -/
def writeOneToClear (c : Nat) : Bool :=
  c == 0x010 || c == 0x011 || c == 0x301 || c == 0x305 || c == 0x110 || c == 0x360 || c == 0x361

/-- A write by the supervisor that is done: the step answers a state with `f`, and PC behind the instruction. -/
def Done (i : Instr) (s : State) (f : State → Prop) : Prop :=
  ∃ t, exec i s = .next t ∧ f t ∧ t.me.pc = s.me.pc + 4

/-- The value that `ctl.wr`, `ctl.set` and `ctl.clr` of a register give to its field rules (R140). -/
def given (op : CtlOp) (a : SSrc) (c : BitVec 12) (s : State) : Word :=
  match op with
  | .wr => s.me.reg a.reg | .set => s.ctlRead c.toNat ||| s.me.reg a.reg | .clr => s.ctlRead c.toNat &&& ~~~(s.me.reg a.reg)
/-- The instruction of an access. -/
def ctlOf (op : CtlOp) (a : SSrc) (c : BitVec 12) : Instr :=
  match op with | .wr => .ctlWr a c | .set => .ctlSet a c | .clr => .ctlClr a c

end Sys2Proof.Claims

/-- A read of a listed register that the slot's level may read completes and gives its value to the destination, for every register
of the tables: position, privilege, crew and attachment in `ctl.stat`, rounding mode, flags and enables in `ctl.fpcsr`, the bound
key and path, the completion sequences, channels, guards, cycles since the die's reset, the trap frame, the crew and the flags of
the cluster, the registers of the die and those of the package. That `ctl.crewstat` reads 0 outside a crew, that `ctl.cflags` has no
delay, and when BUSY of `ctl.tlbinv` is 1 are the model's readings (entries 25 and 26). -/
def Obligations.CtlReadResult : Prop :=
  ∀ (s : Sys2Proof.Machine.State) (d : Sys2Proof.SReg) (c : BitVec 12),
    s.me.full d = true → s.role s.cur d = .plain → s.cur < 16384 →
    Sys2Proof.Claims.taskReads c.toNat = true ∨
      (s.me.priv ≠ 0 ∧ Sys2Proof.ctlIndexOk c.toNat = true ∧ c.toNat < 0xF00) →
    ∃ w, Sys2Proof.Machine.exec (.ctlRd d c) s = .next ((s.put d w).goTo (s.me.pc + 4)) ∧
      (c = 0x000 → w.extractLsb' 0 2 = s.me.priv ∧ (w.extractLsb' 2 4).toNat = s.cur % 16 ∧
        (w.extractLsb' 6 3).toNat = s.cur / 16 % 8 ∧ (w.extractLsb' 9 4).toNat = s.cur / 128 % 16 ∧
        (w.extractLsb' 13 3).toNat = s.cur / 2048 ∧ w.getLsbD 16 = s.attached s.cur ∧ w.getLsbD 17 = s.me.crew ∧
        w.getLsbD 21 = s.me.det) ∧
      (c = 0x001 → w.extractLsb' 0 3 = s.me.rm ∧ w.extractLsb' 3 5 = s.me.flags ∧ w.extractLsb' 8 5 = s.me.ten ∧
        w.extractLsb' 13 51 = 0) ∧
      (c = 0x002 → w = s.me.key) ∧ (c = 0x003 → w = s.me.path) ∧ (c = 0x004 → w.toNat = s.me.asid.toNat) ∧
      (c = 0x005 → w.toNat = (s.me.engine .m).sq.toNat) ∧ (c = 0x006 → w.toNat = (s.me.engine .c).sq.toNat) ∧
      (c = 0x007 → w.toNat = (s.me.engine .g).sq.toNat) ∧
      (c = 0x009 → ∀ g : Sys2Proof.GReg, w.extractLsb' (2 * g.val) 2 =
        match s.me.guard g with | .unresolved => 0 | .isTrue => 1 | .isFalse => 2) ∧
      (c = 0x00A → w.toNat = (s.now - (s.die (s.cur / 2048)).epoch) % 2 ^ 64) ∧ (c = 0x00B → w.toNat = s.me.kdesc.toNat) ∧
      (c = 0x010 → w = s.me.dirtyS) ∧ (c = 0x011 → w.toNat = s.me.dirtyV.toNat) ∧ (c = 0x040 → w = s.me.epc) ∧
      (c = 0x041 → w.toNat = s.me.cause.toNat) ∧ (c = 0x042 → w = s.me.tval) ∧ (c = 0x043 → w.toNat = s.me.estat.toNat) ∧
      (c = 0x044 → w = s.me.escratch) ∧ (c = 0x300 → w.toNat = (s.die (s.cur / 2048)).wdog.toNat) ∧
      (c = 0x302 → w.toNat = (s.die (s.cur / 2048)).incarn.toNat) ∧ (c = 0x303 → w = (s.die (s.cur / 2048)).tvec) ∧
      (c = 0x340 → w.toNat = s.up.toNat) ∧
      (c = 0x008 → (∀ n, (s.chan (Sys2Proof.Machine.coreOf s.cur) n).fifo.length ≤ 8) → ∀ n : Fin 4,
        let ch := s.chan (Sys2Proof.Machine.coreOf s.cur) n
        let g (lo k : Nat) : Nat := (w.extractLsb' (16 * n.val + lo) k).toNat
        (ch.en = false → g 0 16 = 0) ∧
        (ch.en = true → g 0 1 = 1 ∧ g 1 4 = ch.wslot.toNat ∧ g 5 4 = ch.rslot.toNat ∧ g 9 4 = ch.fifo.length ∧
          g 13 1 = ch.wrel.toNat ∧ g 14 1 = ch.rrel.toNat ∧ g 15 1 = 0)) ∧
      (c = 0x110 →
        let cr := s.crew (s.crewKey s.cur)
        (s.me.crew = false → w = 0) ∧
        (s.me.crew = true → w.extractLsb' 0 8 = cr.live ∧ w.extractLsb' 8 8 = cr.att ∧ w.extractLsb' 16 8 = cr.wdet ∧
          w.getLsbD 24 = cr.lock ∧ w.extractLsb' 25 7 = 0 ∧ w.extractLsb' 35 29 = 0 ∧
          (∀ k, k < 8 → cr.att.getLsbD k = true → (∀ j, j < k → cr.att.getLsbD j = false) → (w.extractLsb' 32 3).toNat = k))) ∧
      (c = 0x200 → w.extractLsb' 5 59 = 0 ∧ ∀ j, j < 5 → (w.getLsbD j = true ↔
        ∃ k, k < 128 ∧ (s.slot (s.cur / 128 * 128 + k)).flags.getLsbD j = true)) ∧
      (let D := s.die (s.cur / 2048)
       (c = 0x301 → w.toNat = D.undeliv.toNat) ∧ (c = 0x304 → w = D.asctx) ∧ (c = 0x305 → w.toNat = D.stale.toNat) ∧
       (c = 0x310 → w = D.vdir) ∧ (c = 0x311 → w = D.vstore) ∧ (c = 0x312 → w = D.memcfg) ∧ (c = 0x313 → w = D.vpurge) ∧
       (c = 0x314 → w = D.migq) ∧ (c = 0x315 → w.toNat = D.migHead.toNat * 2 ^ 16 + D.migTail.toNat) ∧
       (c = 0x320 → w = D.panovf) ∧ (c = 0x321 → w = D.cbpool) ∧ (c = 0x322 → w = D.preempt) ∧ (c = 0x323 → w = D.pres) ∧
       (c = 0x324 → w = D.resume) ∧
       (c = 0x330 → w.extractLsb' 0 63 = D.tlbinv.extractLsb' 0 63 ∧ (w.getLsbD 63 = true ↔ D.tlbinv.getLsbD 63 = true ∨
         ∃ e ∈ s.slots, e.1 / 2048 = s.cur / 2048 ∧ e.2.wait = .invalidate)) ∧
       (c = 0x331 → w = D.fq) ∧ (c = 0x332 → w.toNat = D.fqTail.toNat * 2 ^ 16 + D.fqHead.toNat) ∧ (c = 0x333 → w = D.fres) ∧
       (c = 0x341 → w.getLsbD 63 = s.pkgSet ∧ (w.extractLsb' 0 63).toNat = s.pkg % 1024) ∧
       (c = 0x342 → w = s.feat.extractLsb' 0 64) ∧ (c = 0x343 → w = s.feat.extractLsb' 64 64) ∧
       (c = 0x344 → w = s.feat.extractLsb' 128 64) ∧ (c = 0x345 → w = s.feat.extractLsb' 192 64) ∧
       (∀ g : Fin 4, (c.toNat = 0x350 + g.val → w = s.repl[g]) ∧ (c.toNat = 0x371 + g.val → w = D.dbgbp[g]) ∧
         (c.toNat = 0x380 + g.val → w = D.pmc[g])) ∧
       (c = 0x360 → w.extractLsb' 48 16 = D.corr ∧ w.extractLsb' 32 16 = D.trans ∧ w.extractLsb' 16 16 = D.last ∧
         (w.extractLsb' 0 16).toNat = s.spareRows (s.cur / 2048)) ∧
       (c = 0x361 → w.toNat = s.alarms.toNat * 4 + s.pol.toNat) ∧
       (c = 0x370 → w = if (s.slot (s.cur / 2048 * 2048 + (D.dbgctl.extractLsb' 2 11).toNat)).halted
         then D.dbgctl ||| BitVec.twoPow 64 13 else D.dbgctl) ∧
       (c = 0x375 → w = D.dbgcopy))

/-- The checks of an access, in order: an index of no table takes ILLEGAL_FIELD, one of the controller's range or above the
slot's level takes PRIVILEGED, before any source is read; `ctl.set` and `ctl.clr` of a register with a W1C field take
ILLEGAL_FIELD; a write of a register that is read-only at the slot's level does nothing. -/
def Obligations.CtlChecks : Prop :=
  ∀ (s : Sys2Proof.Machine.State) (d : Sys2Proof.SReg) (a : Sys2Proof.SSrc) (c : BitVec 12),
    let n := c.toNat
    let traps (cause : Nat) : Prop :=
      Sys2Proof.Machine.exec (.ctlRd d c) s = s.trap cause (Sys2Proof.Machine.wordOf (.ctlRd d c)) false ∧
      Sys2Proof.Machine.exec (.ctlWr a c) s = s.trap cause (Sys2Proof.Machine.wordOf (.ctlWr a c)) false ∧
      Sys2Proof.Machine.exec (.ctlSet a c) s = s.trap cause (Sys2Proof.Machine.wordOf (.ctlSet a c)) false ∧
      Sys2Proof.Machine.exec (.ctlClr a c) s = s.trap cause (Sys2Proof.Machine.wordOf (.ctlClr a c)) false
    (Sys2Proof.ctlIndexOk n = false → traps 0x02) ∧ (0xF00 ≤ n → traps 0x03) ∧
    (s.me.priv = 0 → Sys2Proof.ctlIndexOk n = true → Sys2Proof.Claims.taskReads n = false → traps 0x03) ∧
    (s.me.priv ≠ 0 → Sys2Proof.Claims.Readable s a → Sys2Proof.Claims.writeOneToClear n = true →
      Sys2Proof.Machine.exec (.ctlSet a c) s = s.trap 0x02 (Sys2Proof.Machine.wordOf (.ctlSet a c)) false ∧
      Sys2Proof.Machine.exec (.ctlClr a c) s = s.trap 0x02 (Sys2Proof.Machine.wordOf (.ctlClr a c)) false) ∧
    (s.me.priv ≠ 0 → Sys2Proof.Claims.Readable s a → Sys2Proof.Claims.readOnly n = true →
      Sys2Proof.Machine.exec (.ctlWr a c) s = .next (s.goTo (s.me.pc + 4)) ∧
      Sys2Proof.Machine.exec (.ctlSet a c) s = .next (s.goTo (s.me.pc + 4)) ∧
      Sys2Proof.Machine.exec (.ctlClr a c) s = .next (s.goTo (s.me.pc + 4))) ∧
    (s.me.priv = 0 → Sys2Proof.Claims.Readable s a → Sys2Proof.Claims.taskReads n = true → n ≠ 1 →
      Sys2Proof.Machine.exec (.ctlWr a c) s = .next (s.goTo (s.me.pc + 4)))

/-- Writes by the supervisor of every register without a step of its own: `ctl.wr` gives the register the value, `ctl.set` the
old value with bits set, `ctl.clr` with bits cleared, under the register's field map; dirty bits, the message and the error
counters and WDET are cleared where a 1 is written; `ctl.tvec` keeps its two low bits 0; the directory, the version store, the
overflow table, the pool and the fault queue ignore a write while they hold something, and `ctl.preempt` and `ctl.dbgctl` wait
while an operation runs. -/
def Sys2Proof.Claims.CtlWriteResult : Prop :=
  ∀ (s : Sys2Proof.Machine.State) (a : Sys2Proof.SSrc) (op : Sys2Proof.CtlOp), s.me.priv ≠ 0 → Sys2Proof.Claims.Readable s a →
    let x := s.me.reg a.reg
    let dd := Sys2Proof.Machine.dieOf s.cur
    let D (t : Sys2Proof.Machine.State) := t.die dd
    let done (c : BitVec 12) (f : Sys2Proof.Machine.State → Prop) : Prop :=
      Sys2Proof.Claims.Done (Sys2Proof.Claims.ctlOf op a c) s f ∧ Sys2Proof.Claims.Done (.ctlRegisterWrite op c a) s f
    let clears (c : BitVec 12) (f : Sys2Proof.Machine.State → Prop) : Prop :=
      Sys2Proof.Claims.Done (.ctlWr a c) s f ∧ Sys2Proof.Claims.Done (.ctlRegisterWrite .wr c a) s f
    let v (c : BitVec 12) : Sys2Proof.Word := Sys2Proof.Claims.given op a c s
    let f (c : BitVec 12) (lo n : Nat) : Nat := ((v c).extractLsb' lo n).toNat
    let held : Prop := ∃ e ∈ s.names, e.2.die = dd
    done 0x044 (fun t => t.me.escratch = v 0x044) ∧ done 0x040 (fun t => t.me.epc = v 0x040) ∧
    done 0x041 (fun t => t.me.cause = (v 0x041).extractLsb' 0 8) ∧ done 0x042 (fun t => t.me.tval = v 0x042) ∧
    done 0x043 (fun t => t.me.estat = (v 0x043).extractLsb' 0 5) ∧
    clears 0x010 (fun t => t.me.dirtyS = s.me.dirtyS &&& ~~~x) ∧
    clears 0x011 (fun t => t.me.dirtyV = s.me.dirtyV &&& ~~~(x.extractLsb' 0 32)) ∧
    clears 0x110 (fun t => s.me.crew = true →
      (t.crew (s.crewKey s.cur)).wdet = (s.crew (s.crewKey s.cur)).wdet &&& ~~~(x.extractLsb' 16 8)) ∧
    done 0x300 (fun t => (D t).wdog = (v 0x300).extractLsb' 0 32) ∧
    clears 0x301 (fun t => (D t).undeliv = (D s).undeliv &&& ~~~(x.extractLsb' 0 32)) ∧
    clears 0x305 (fun t => (D t).stale = (D s).stale &&& ~~~(x.extractLsb' 0 32)) ∧
    clears 0x360 (fun t => (D t).corr = (D s).corr &&& ~~~(x.extractLsb' 48 16) ∧
      (D t).trans = (D s).trans &&& ~~~(x.extractLsb' 32 16) ∧ (D t).last = (D s).last &&& ~~~(x.extractLsb' 16 16)) ∧
    done 0x303 (fun t => (D t).tvec = v 0x303 &&& ~~~3) ∧ done 0x304 (fun t => (D t).asctx = v 0x304) ∧
    done 0x314 (fun t => (D t).migq = v 0x314 &&& 0x00FFFFFFFFFFF00F) ∧
    (f 0x310 0 5 ≤ 20 → (¬ held → done 0x310 (fun t => (D t).vdir = v 0x310 &&& 0x00FFFFFFFFFF001F)) ∧
      (held → done 0x310 (fun t => (D t).vdir = (D s).vdir))) ∧
    (¬ held → done 0x311 (fun t => (D t).vstore = v 0x311 &&& 0x00FFFFFFFFFFFFFF)) ∧
    (held → done 0x311 (fun t => (D t).vstore = (D s).vstore)) ∧
    (f 0x320 0 5 ≤ 20 →
      ((∀ r ∈ (D s).pan, r.spill = none) → done 0x320 (fun t => (D t).panovf = v 0x320 &&& 0x00FFFFFFFFFFF01F)) ∧
      ((∃ r ∈ (D s).pan, r.spill ≠ none) → done 0x320 (fun t => (D t).panovf = (D s).panovf))) ∧
    (f 0x321 0 5 ≤ 20 → 16 ≤ f 0x321 8 5 → f 0x321 8 5 ≤ 24 → f 0x321 57 7 ≤ 64 →
      (s.poolUsed dd = false → done 0x321 (fun t => (D t).cbpool = v 0x321 &&& 0xFEFFFFFFFFFF1F1F)) ∧
      (s.poolUsed dd = true → done 0x321 (fun t => (D t).cbpool = (D s).cbpool))) ∧
    ((D s).pres.getLsbD 63 = false →
      done 0x322 (fun t => (D t).preempt = v 0x322 &&& 0x06001FFC ∧ (D t).pres = BitVec.twoPow 64 63)) ∧
    ((D s).pres.getLsbD 63 = true → Sys2Proof.Machine.exec (Sys2Proof.Claims.ctlOf op a 0x322) s = .next s) ∧
    ((D s).fqTail = (D s).fqHead → done 0x331 (fun t => (D t).fq = v 0x331 &&& 0x00FFFFFFFFFFF00F)) ∧
    ((D s).fqTail ≠ (D s).fqHead → done 0x331 (fun t => (D t).fq = (D s).fq)) ∧
    (∀ (g : Fin 4) (c : BitVec 12),
      (c.toNat = 0x350 + g.val → ((v c).getLsbD 63 = false ∨ 2 ≤ f c 30 2) →
        done c (fun t => t.repl[g] = v c &&& 0x80000000FFFFFFFF)) ∧
      (c.toNat = 0x371 + g.val → done c (fun t => (D t).dbgbp[g] = v c &&& 0xC0FFFFFFFFFFFFFC)) ∧
      (c.toNat = 0x380 + g.val → f c 56 8 ≤ 0x0A → f c 56 8 ≠ 1 → done c (fun t => (D t).pmc[g] = v c))) ∧
    ((D s).dbgctl.getLsbD 63 = true → Sys2Proof.Machine.exec (Sys2Proof.Claims.ctlOf op a 0x370) s = .next s) ∧
    ((D s).dbgctl.getLsbD 63 = false →
      let p := dd * 2048 + f 0x370 2 11
      let w := v 0x370 &&& 0x7800000000001FFC
      (f 0x370 60 3 = 0 → done 0x370 (fun t => (D t).dbgctl = w ||| ((D s).dbgctl &&& 0x0700000000000000))) ∧
      (1 ≤ f 0x370 60 3 → f 0x370 60 3 ≤ 4 →
        (p = s.cur ∨ p % 16 = 15 → done 0x370 (fun t => (D t).dbgctl = w ||| BitVec.ofNat 64 (2 ^ 57))) ∧
        (p ≠ s.cur → p % 16 ≠ 15 → done 0x370 (fun t => (D t).dbgctl = w ||| BitVec.twoPow 64 63))))

/-- A write of a value that a register's map refuses takes ILLEGAL_FIELD and leaves the register: a reserved rounding mode, a
directory or table size above 2^20, a block size or tile count out of range, a reserved event, an undefined replica group, a
pool share above four eighths, and a migration or fault queue position out of range. (`ctl.fpcsr` waits first for the slot's
accesses that may still merge flags, R20.) -/
def Sys2Proof.Claims.CtlBadValue : Prop :=
  ∀ (s : Sys2Proof.Machine.State) (a : Sys2Proof.SSrc), s.me.priv ≠ 0 → Sys2Proof.Claims.Readable s a →
    let x := s.me.reg a.reg
    let f (lo n : Nat) : Nat := (x.extractLsb' lo n).toNat
    let D := s.die (Sys2Proof.Machine.dieOf s.cur)
    let bad (c : BitVec 12) : Prop :=
      Sys2Proof.Machine.exec (.ctlWr a c) s = s.trap 0x02 (Sys2Proof.Machine.wordOf (.ctlWr a c)) false
    (5 ≤ f 0 3 → (s.me.accs.any Sys2Proof.Machine.Access.raises = false → bad 0x001) ∧ bad 0x312) ∧ (20 < f 0 5 → bad 0x310 ∧ bad 0x320 ∧ bad 0x321) ∧
    (f 8 5 < 16 ∨ 24 < f 8 5 ∨ 64 < f 57 7 → bad 0x321) ∧
    (x.getLsbD 63 = true → f 30 2 < 2 → bad 0x350 ∧ bad 0x351 ∧ bad 0x352 ∧ bad 0x353) ∧
    (4 < f 60 3 → bad 0x370 ∧ bad 0x375) ∧ (0x0A < f 56 8 → bad 0x380 ∧ bad 0x381 ∧ bad 0x382 ∧ bad 0x383) ∧
    (2 ^ (D.migq.extractLsb' 0 4).toNat ≤ f 0 16 → bad 0x315) ∧ (f 60 2 = 3 → bad 0x330) ∧
    (f 60 2 < 2 → f 0 12 = 0 → bad 0x330) ∧ (f 0 12 = 0 → bad 0x333) ∧
    ((D.fqTail - D.fqHead).toNat < (x.extractLsb' 0 16 - D.fqHead).toNat → bad 0x332)

/-- Writing ctl registers, and values that are refused: the statements `CtlWriteResult`, `CtlBadValue` above. -/
def Obligations.CtlWriteResult : Prop :=
  Sys2Proof.Claims.CtlWriteResult ∧ Sys2Proof.Claims.CtlBadValue

/-- Writes that are steps of their own: `ctl.fpcsr` takes RM, FLAGS and TEN together and nothing else of the slot's floating-point
state, and waits while an earlier floating-point atomic may still merge flags; a security policy only rises and its sources are
cleared where a 1 is written; queue positions, the pool share and a purge take their fields; a write of `ctl.tlbinv` with no earlier
store under way removes exactly the entries that its range covers, with FL the lines of the range too, and one with a store under
way waits. That a flush keeps the lines that hold empty words, and that the security policy takes no lower value, are the model's
readings (entries 26 and 50; R185, R411). -/
def Sys2Proof.Claims.CtlOwnResult : Prop :=
  (∀ (s : Sys2Proof.Machine.State) (a : Sys2Proof.SSrc) (op : Sys2Proof.CtlOp),
    Sys2Proof.Claims.Unbroken s → Sys2Proof.Claims.Readable s a →
    let v := Sys2Proof.Claims.given op a 0x001 s
    (s.me.accs.any Sys2Proof.Machine.Access.raises = false → (v.extractLsb' 0 3).toNat < 5 →
      Sys2Proof.Claims.Done (.fpcsrWrite op a) s (fun t =>
        t.me.rm = v.extractLsb' 0 3 ∧ t.me.flags = v.extractLsb' 3 5 ∧ t.me.ten = v.extractLsb' 8 5 ∧ t.me.s = s.me.s)) ∧
    (s.me.accs.any Sys2Proof.Machine.Access.raises = true → Sys2Proof.Machine.exec (.fpcsrWrite op a) s = .next s)) ∧
  ∀ (s : Sys2Proof.Machine.State) (a : Sys2Proof.SSrc) (op : Sys2Proof.CtlOp), s.me.priv ≠ 0 → Sys2Proof.Claims.Readable s a →
    let v (c : BitVec 12) : Sys2Proof.Word := Sys2Proof.Claims.given op a c s
    let f (c : BitVec 12) (lo n : Nat) : Nat := ((v c).extractLsb' lo n).toNat
    let dd := Sys2Proof.Machine.dieOf s.cur
    let D (t : Sys2Proof.Machine.State) := t.die dd
    let tlb (k : Nat) (i : Sys2Proof.Instr) : Prop :=
      let r := Sys2Proof.Machine.rangeOf (v 0x330)
      f 0x330 60 2 = k → (k < 2 → f 0x330 0 12 ≠ 0) → s.storesDone = true → s.walks = [] →
      ((v 0x330).getLsbD 62 = false → Sys2Proof.Claims.Done i s (fun t =>
        t.tlb = s.tlb.filter (fun e => !r.covers e) ∧ t.lines = s.lines ∧ t.mem = s.mem ∧
        (D t).tlbinv.extractLsb' 60 2 = (v 0x330).extractLsb' 60 2)) ∧
      ((v 0x330).getLsbD 62 = true → s.flushBusy r = false → Sys2Proof.Claims.Done i s (fun t =>
        t.tlb = s.tlb.filter (fun e => !r.covers e) ∧ (∀ e ∈ t.lines, r.line e.1 = true → e.2.empties ≠ []) ∧
        (∀ k, r.line k = false → t.lines.get? k = s.lines.get? k)))
    let fres (r : Bool) (i : Sys2Proof.Instr) : Prop :=
      (v 0x333).getLsbD 61 = r → f 0x333 0 12 ≠ 0 → s.storesDone = true → Sys2Proof.Claims.Done i s (fun t =>
        (D t).fres.extractLsb' 0 12 = (v 0x333).extractLsb' 0 12 ∧
        (s.merge (128 + dd) (f 0x333 0 12) (f 0x333 16 40) = none → t.wakes = s.wakes) ∧
        ((s.merge (128 + dd) (f 0x333 0 12) (f 0x333 16 40)).isSome = true →
          ∃ k, t.wakes.get? k = some { router := 128 + dd, asid := f 0x333 0 12, page := f 0x333 16 40, ref := r }))
    tlb 0 (.tlbinvPage op a) ∧ tlb 1 (.tlbinvAsid op a) ∧ tlb 2 (.tlbinvAll op a) ∧
    (f 0x330 60 2 = 2 → s.storesDone = false → ∃ t, Sys2Proof.Machine.exec (.tlbinvAll op a) s = .next t ∧ t.me.pc = s.me.pc ∧
      t.me.wait = .invalidate ∧ t.tlb = s.tlb) ∧
    fres false (.fresResident op a) ∧ fres true (.fresRefused op a) ∧
    ((D s).vpurge.getLsbD 63 = false → Sys2Proof.Claims.Done (.vpurgeStart op a) s (fun t =>
      (D t).vpurge.getLsbD 63 = true ∧ (D t).vpurge.extractLsb' 0 12 = (v 0x313).extractLsb' 0 12)) ∧
    ((D s).vpurge.getLsbD 63 = true → Sys2Proof.Machine.exec (.vpurgeStart op a) s = .next s) ∧
    (f 0x312 0 3 < 5 → s.l2Fits dd (f 0x312 0 3) = true → s.displaced dd (f 0x312 0 3 * 128) = [] → Sys2Proof.Claims.Done (.memcfgWrite op a) s (fun t =>
      (D t).memcfg.extractLsb' 0 3 = (v 0x312).extractLsb' 0 3 ∧ (D t).memcfg.getLsbD 8 = (D s).memcfg.getLsbD 8)) ∧
    (f 0x315 0 16 < 2 ^ ((D s).migq.extractLsb' 0 4).toNat → Sys2Proof.Claims.Done (.migtlTailWrite op a) s (fun t =>
      (D t).migTail = (v 0x315).extractLsb' 0 16 ∧ (D t).migHead = (D s).migHead)) ∧
    (((v 0x332).extractLsb' 0 16 - (D s).fqHead).toNat ≤ ((D s).fqTail - (D s).fqHead).toNat →
      Sys2Proof.Claims.Done (.fqtlHeadWrite op a) s (fun t =>
        (D t).fqHead = (v 0x332).extractLsb' 0 16 ∧ ((D s).reports = [] → (D t).fqTail = (D s).fqTail))) ∧
    (op = .wr → Sys2Proof.Claims.Done (.secpolWrite .wr a) s (fun t =>
      t.pol = (if f 0x361 0 2 ≠ 3 ∧ s.pol.toNat < f 0x361 0 2 then (v 0x361).extractLsb' 0 2 else s.pol) ∧
      t.alarms = s.alarms &&& ~~~((v 0x361).extractLsb' 2 8))) ∧
    (let w := v 0x324 &&& 0x00FFFFFFFFFFFFC0
     ∀ u, (D s).inPool w.toNat = true → s.physNum (w.toNat + 0x20) 1 % 16 = 2 → s.saved.get? w.toNat = some u →
      Sys2Proof.Claims.Done (.resumeRequest op a) s (fun t => (D t).resume = w ∧
        ∃ k m, t.recs.get? k = some m ∧ m.r.resume = some w.toNat ∧ m.die = Sys2Proof.Machine.dieOf u.pos))

/-- A write of `ctl.dbgcopy` that names a bank between two commands, a tile slot, the rendezvous points, the rings or a mailbox
completes, the register takes the value, and the copied bytes stand at DEST where memory is not cached (of a mailbox its waiting
requests, oldest first, and zeros behind them); the source stays. INDEX is looked at only where a unit has several of its kind,
which is the model's reading (entry 26). -/
def Obligations.DebugCopyResult : Prop :=
  ∀ (s : Sys2Proof.Machine.State) (a : Sys2Proof.SSrc) (op : Sys2Proof.CtlOp), s.me.priv ≠ 0 → Sys2Proof.Claims.Readable s a →
    let x := Sys2Proof.Claims.given op a 0x375 s
    let f (lo n : Nat) : Nat := (x.extractLsb' lo n).toNat
    let cl := Sys2Proof.Machine.dieOf s.cur * 16 + f 56 4
    let dst := f 12 44 * 4096
    let copies (i : Sys2Proof.Instr) (data : List Sys2Proof.Byte) : Prop :=
      s.lines = [] → (∀ k, k < data.length → ∃ e, s.phys (dst + k) = .dram e) →
      Sys2Proof.Claims.Done i s (fun t => (t.die (Sys2Proof.Machine.dieOf s.cur)).dbgcopy.extractLsb' 0 63 = x.extractLsb' 0 63 ∧
        t.mem.bytes dst data.length = data ∧ t.clusters = s.clusters ∧
        ∀ b, b < dst ∨ dst + data.length ≤ b → t.mem.byte b = s.mem.byte b)
    (f 60 3 = 0 → f 0 12 < 4 → s.bankQuiet cl (f 0 12) = true →
      copies (.dbgcopyBank op a) (((s.cluster cl).bank (f 0 12)).bytes)) ∧
    (f 60 3 = 1 → f 0 12 < 2048 → copies (.dbgcopyTileSlot op a) ((s.cluster cl).tileBytes (f 0 12))) ∧
    (f 60 3 = 2 → copies (.dbgcopyRendezvous op a)
      ((List.range 24).flatMap fun j => ((s.cluster cl).point j).bytes)) ∧
    (f 60 3 = 3 → copies (.dbgcopyRings op a) ((List.range 16).flatMap fun j => ((s.cluster cl).ring j).bytes)) ∧
    (f 60 3 = 4 → f 0 12 < 8 → ∀ l, s.mail.getD (cl * 8 + f 0 12) [] = l → l.length ≤ 8 →
      copies (.dbgcopyMailbox op a)
        (((l.map fun n => ((s.walks.get? n).map (Sys2Proof.Machine.Walk.word n)).getD 0) ++ List.replicate (8 - l.length) 0).flatMap
          (Sys2Proof.Machine.toBytes 16)))

/-- `ctl.wr`, `ctl.set` and `ctl.clr` of a register with a step of its own are that step, which the new value names, and of any
other register the common write. -/
def Sys2Proof.Claims.CtlWriteStep : Prop :=
  ∀ (s : Sys2Proof.Machine.State) (a : Sys2Proof.SSrc) (op : Sys2Proof.CtlOp), Sys2Proof.Claims.Readable s a →
    let f (c : BitVec 12) (lo n : Nat) : Nat := ((Sys2Proof.Claims.given op a c s).extractLsb' lo n).toNat
    let same (c : BitVec 12) (i : Sys2Proof.Instr) : Prop :=
      Sys2Proof.Machine.exec (Sys2Proof.Claims.ctlOf op a c) s = Sys2Proof.Machine.exec i s
    same 0x001 (.fpcsrWrite op a) ∧ same 0x312 (.memcfgWrite op a) ∧ same 0x313 (.vpurgeStart op a) ∧
    same 0x315 (.migtlTailWrite op a) ∧ same 0x324 (.resumeRequest op a) ∧ same 0x332 (.fqtlHeadWrite op a) ∧
    same 0x361 (.secpolWrite op a) ∧ (f 0x330 60 2 = 0 → same 0x330 (.tlbinvPage op a)) ∧
    (f 0x330 60 2 = 1 → same 0x330 (.tlbinvAsid op a)) ∧ (f 0x330 60 2 = 2 → same 0x330 (.tlbinvAll op a)) ∧
    (f 0x333 61 1 = 0 → same 0x333 (.fresResident op a)) ∧ (f 0x333 61 1 = 1 → same 0x333 (.fresRefused op a)) ∧
    (f 0x375 60 3 = 0 → same 0x375 (.dbgcopyBank op a)) ∧ (f 0x375 60 3 = 1 → same 0x375 (.dbgcopyTileSlot op a)) ∧
    (f 0x375 60 3 = 2 → same 0x375 (.dbgcopyRendezvous op a)) ∧ (f 0x375 60 3 = 3 → same 0x375 (.dbgcopyRings op a)) ∧
    (f 0x375 60 3 = 4 → same 0x375 (.dbgcopyMailbox op a)) ∧
    (∀ c : BitVec 12, Sys2Proof.ctlIndexOk c.toNat = true →
      c ∉ [0x001, 0x312, 0x313, 0x315, 0x324, 0x330, 0x332, 0x333, 0x361, 0x375] → same c (.ctlRegisterWrite op c a))

/-- ctl writes with an effect of their own: the statements `CtlOwnResult`, `CtlWriteStep` above. -/
def Obligations.CtlOwnResult : Prop :=
  Sys2Proof.Claims.CtlOwnResult ∧ Sys2Proof.Claims.CtlWriteStep

/-! ### Memory and scratchpad instructions (04) -/

namespace Sys2Proof.Claims
open Sys2Proof.Machine

/-- What the tables of R180, R183, R184, R189, R192 and R195 give an instruction that starts an access of one address: its
sources and destination, its address and size, the trap of a deterministic launch, and the access. -/
structure Issue where
  form : Form
  addr : Word
  size : Nat
  det : Option Nat
  kind : AccKind
  hint : Hint
  parts : List Part
  dst : FillDst

/-- One part: `size` bytes at `a`, with the data that it writes. -/
def onePart (a : Word) (size data : Nat) : List Part :=
  [{ va := a.toNat, size := size, lane := 0, data := data, st := .todo, acks := [] }]

/-- Sixteen parts: lane i at a + 4i (R180). -/
def vecParts (a : Word) (v : Vec) : List Part :=
  (List.range 16).map fun i =>
    { va := a.toNat + 4 * i, size := 4, lane := i, data := (v.extractLsb' (32 * i) 32).toNat, st := .todo, acks := [] }

/-- A load row of R180. -/
def loadIssue (size : Nat) (signed : Bool) (d : SReg) (b : SSrc) (h : Hint) (off : BitVec 10) (s : State) : Issue :=
  let q := formA [.fillS d] b
  let a := s.sval q 0 + BitVec.ofInt 64 (off.toInt * size)
  { form := q, addr := a, size := size, det := none, kind := .load false false, hint := h, parts := onePart a size 0,
    dst := .s d signed size }

/-- A store row of R180: memory takes the low bytes of the data register. -/
def storeIssue (size : Nat) (d : SReg) (b : SSrc) (h : Hint) (off : BitVec 10) (s : State) : Issue :=
  let q : Form := { srcs := [.s b.reg b.wait, .s d false], dsts := [], lit := false }
  let a := s.sval q 0 + BitVec.ofInt 64 (off.toInt * size)
  { form := q, addr := a, size := size, det := none, kind := .store false false, hint := h,
    parts := onePart a size ((s.sval q 1).toNat % 2 ^ (8 * size)), dst := .none }

/-- An atomic of R192: the compare value of a cas is the old destination register; a literal is extended as the operation
says; the returned word is zero-extended for the unsigned comparisons and the floating-point sum, else sign-extended. -/
def amoIssue (op : AmoOp) (n : Bool) (ret cmp : Option SReg) (det : Option Nat) (a : SSrc) (b : SOpd) (wide : Bool)
    (s : State) : Issue :=
  let q : Form := { srcs := .s a.reg a.wait :: (match b with | .reg r => [.s r.reg r.wait] | .lit _ => []) ++
                      (match cmp with | some c => [.s c false] | none => []),
                    dsts := match ret with | some d => [.fillS d] | none => [], lit := isLit b }
  let size := if wide then 8 else 4
  let v := s.bval q 1 (if n then .zext else .sext) b
  let c := match cmp with | some _ => s.sval q (if isLit b then 1 else 2) | none => 0
  let z := n || (match op with | .fadd _ => true | _ => false)
  { form := q, addr := s.sval q 0, size := size, det := det, kind := .atomic op c, hint := .dflt,
    parts := onePart (s.sval q 0) size (v.toNat % 2 ^ (8 * size)),
    dst := match ret with | some d => .s d (!z) size | none => .none }

/-- The instructions that start an access of one address. -/
def issue (i : Instr) (s : State) : Option Issue :=
  match i with
  | .ldI8 d b h off => some (loadIssue 1 true d b h off s)
  | .ldN8 d b h off => some (loadIssue 1 false d b h off s)
  | .ldI16 d b h off => some (loadIssue 2 true d b h off s)
  | .ldN16 d b h off => some (loadIssue 2 false d b h off s)
  | .ldI32 d b h off => some (loadIssue 4 true d b h off s)
  | .ldN32 d b h off => some (loadIssue 4 false d b h off s)
  | .ldI64 d b h off => some (loadIssue 8 true d b h off s)
  | .stI8 d b h off => some (storeIssue 1 d b h off s)
  | .stI16 d b h off => some (storeIssue 2 d b h off s)
  | .stI32 d b h off => some (storeIssue 4 d b h off s)
  | .stI64 d b h off => some (storeIssue 8 d b h off s)
  | .vld d b h off =>
    let q := formA [.fillV d] b
    let a := s.sval q 0 + BitVec.ofInt 64 (off.toInt * 64)
    some { form := q, addr := a, size := 64, det := none, kind := .load false false, hint := h, parts := vecParts a 0,
           dst := .v d (BitVec.allOnes 16) }
  | .vst d b h off =>
    let q : Form := { srcs := [.s b.reg b.wait, .v d false], dsts := [], lit := false }
    let a := s.sval q 0 + BitVec.ofInt 64 (off.toInt * 64)
    some { form := q, addr := a, size := 64, det := none, kind := .store false false, hint := h,
           parts := vecParts a (s.vval q 1), dst := .none }
  | .ldsync d b true wide off =>
    let q := formA [.fillS d] b
    let size : Nat := if wide then 8 else 4
    let a := s.sval q 0 + BitVec.ofInt 64 (off.toInt * size)
    some { form := q, addr := a, size := size, det := none, kind := .load false true, hint := .dflt, parts := onePart a size 0,
           dst := .s d false size }
  | .stfill a b true wide =>
    let q := formR [] a b
    let size := if wide then 8 else 4
    some { form := q, addr := s.sval q 0, size := size, det := none, kind := .store false true, hint := .dflt,
           parts := onePart (s.sval q 0) size ((s.bval q 1 .zext b).toNat % 2 ^ (8 * size)), dst := .none }
  | .lda d a narrow =>
    let q := formA [.fillS d] a
    let size := if narrow then 4 else 8
    some { form := q, addr := s.sval q 0, size := size, det := none, kind := .load true false, hint := .dflt,
           parts := onePart (s.sval q 0) size 0, dst := .s d false size }
  | .stl a b narrow =>
    let q := formR [] a b
    let size := if narrow then 4 else 8
    some { form := q, addr := s.sval q 0, size := size, det := none, kind := .store true false, hint := .dflt,
           parts := onePart (s.sval q 0) size ((s.bval q 1 .sext b).toNat % 2 ^ (8 * size)), dst := .none }
  | .amoAdd d a b w => some (amoIssue .add false (some d) none (some 0x21) a b w s)
  | .amoMinI d a b w => some (amoIssue .minI false (some d) none (some 0x21) a b w s)
  | .amoMinN d a b w => some (amoIssue .minN true (some d) none (some 0x21) a b w s)
  | .amoMaxI d a b w => some (amoIssue .maxI false (some d) none (some 0x21) a b w s)
  | .amoMaxN d a b w => some (amoIssue .maxN true (some d) none (some 0x21) a b w s)
  | .amoAnd d a b w => some (amoIssue .and false (some d) none (some 0x21) a b w s)
  | .amoOr d a b w => some (amoIssue .or false (some d) none (some 0x21) a b w s)
  | .amoXor d a b w => some (amoIssue .xor false (some d) none (some 0x21) a b w s)
  | .amoSwap d a b w => some (amoIssue .swap false (some d) none (some 0x21) a b w s)
  | .amoCas d a b w => some (amoIssue .cas false (some d) (some d) (some 0x21) a b w s)
  | .amoStadd a b w => some (amoIssue .add false none none none a b w s)
  | .amoStminI a b w => some (amoIssue .minI false none none none a b w s)
  | .amoStminN a b w => some (amoIssue .minN true none none none a b w s)
  | .amoStmaxI a b w => some (amoIssue .maxI false none none none a b w s)
  | .amoStmaxN a b w => some (amoIssue .maxN true none none none a b w s)
  | .amoStand a b w => some (amoIssue .and false none none none a b w s)
  | .amoStor a b w => some (amoIssue .or false none none none a b w s)
  | .amoStxor a b w => some (amoIssue .xor false none none none a b w s)
  | .amoStswap a b w => some (amoIssue .swap false none none (some 0x21) a b w s)
  | .amoStcas c a b w => some (amoIssue .cas false none (some c) (some 0x21) a b w s)
  | .famoAdd d a b => some (amoIssue (.fadd s.me.rm) false (some d) none (some 0x22) a b false s)
  | .famoStadd a b => some (amoIssue (.fadd s.me.rm) false none none (some 0x22) a b false s)
  | _ => none

/-- The slot's address space has a usable context entry (R38). -/
def InContext (s : State) : Prop :=
  s.me.asid = 0 ∨ ∃ r t k c, s.ctx (dieOf s.cur) s.me.asid.toNat = .ok r t k c

/-- Accesses that have not come to their end: some part is to be performed or acknowledged, a fill has not landed, or an outcome
is owed. -/
def unfinished (l : List Access) : List Access := l.filter fun a => !(a.complete && a.dst == .none && a.failed == none)

/-- The instruction starts an access and goes on: the access is the slot's youngest, its destination register becomes empty
and no other register changes, PC is behind the instruction, and nothing is written. -/
def Starts (i : Instr) (q : Form) (kind : AccKind) (h : Hint) (sp : Bool) (parts : List Part) (dst : FillDst) (s : State) :
    Prop :=
  ∃ t, exec i s = .next t ∧
    t.me.accs = (if sp then unfinished s.me.accs else s.me.accs) ++
      [{ id := s.seq, kind := kind, asid := s.me.asid.toNat, user := s.me.priv == 0, hint := h, sp := sp, parts := parts,
         dst := dst, since := s.now, reported := false }] ∧
    t.seq = s.seq + 1 ∧ t.me.pc = s.me.pc + (if q.lit then 8 else 4) ∧
    t.me.s = s.me.s ∧ t.me.v = s.me.v ∧ t.me.m = s.me.m ∧ t.me.g = s.me.g ∧ t.me.flags = s.me.flags ∧
    (∀ r : SReg, t.me.full r = (s.me.full r && !(match dst with | .s d _ _ => r == d && d != 0 | _ => false))) ∧
    (∀ r : VReg, t.me.vFull.getLsbD r.val = (s.me.vFull.getLsbD r.val && !(match dst with | .v d _ => r == d | _ => false))) ∧
    (∀ p, p ≠ s.cur → t.slot p = s.slot p) ∧ t.mem = s.mem ∧ t.lines = s.lines ∧ t.clusters = s.clusters

/-- The slot may start a further access (R337). -/
def Roomy (s : State) : Prop := s.outstanding s.cur < 32

/-- A byte of the scratchpad of the issuing slot's cluster. -/
def spByte (s : State) (o : Nat) : Byte :=
  ((s.cluster (clusterOf s.cur)).spWord (o / 4)).extractLsb' (8 * (o % 4)) 8

/-- No earlier access of the slot stands before an access of these pieces, offset and size, of the scratchpad: no acquire load is
unbound, no synchronising load observes a version, and no part that is still to be performed shares a byte with one (R178,
R182, R189, R199). -/
def SpFree (s : State) (l : List (Nat × Nat)) : Prop :=
  ∀ b ∈ s.me.accs, b.id < s.seq ∧ (b.isAcq = true → b.bound = true) ∧ s.observes s.cur b = false ∧
    (b.sp = true → ∀ y ∈ b.parts, y.performed = true ∨ ∀ c ∈ l, y.va + y.size ≤ c.1 ∨ c.1 + c.2 ≤ y.va)

/-- The instruction goes on, whatever stands before its access: PC is behind it, its slot's registers keep their values, and it
changes no memory and no other slot. -/
def Runs (i : Instr) (q : Form) (s : State) : Prop :=
  ∃ t, exec i s = .next t ∧ t.me.pc = s.me.pc + (if q.lit then 8 else 4) ∧
    t.me.s = s.me.s ∧ t.me.v = s.me.v ∧ t.me.m = s.me.m ∧ t.me.g = s.me.g ∧ t.me.flags = s.me.flags ∧
    (∀ p, p ≠ s.cur → t.slot p = s.slot p) ∧ t.mem = s.mem ∧ t.lines = s.lines

/-- The parts of a scratchpad load of `n` words or one smaller piece: what the words hold at issue, or POISON. -/
def spParts (s : State) (l : List (Nat × Nat × Nat)) : List Part :=
  let c := s.cluster (clusterOf s.cur)
  l.map fun (o, size, k) =>
    { va := o, size := size, lane := k, data := 0, acks := [],
      st := if (List.range size).any fun j => c.spPoison.has ((o + j) / 4) then .bad 0x45
            else .done (ofBytes ((List.range size).map fun j => spByte s (o + j))) }

/-- The instruction stores `d` at offset `o` of the scratchpad and goes on: those bytes read as `d`, every other byte as
before, full bits as before unless `fill`, and registers and memory as before. -/
def Stores (i : Instr) (q : Form) (o : Nat) (d : List Byte) (fill : Bool) (s : State) : Prop :=
  ∃ t, exec i s = .next t ∧
    (∀ k, k < d.length → spByte t (o + k) = d.getD k 0) ∧ (∀ a, a < o ∨ o + d.length ≤ a → spByte t a = spByte s a) ∧
    (∀ w, (t.cluster (clusterOf s.cur)).full w =
      ((s.cluster (clusterOf s.cur)).full w || (fill && decide (o / 4 ≤ w ∧ w < (o + d.length) / 4)))) ∧
    (∀ k, k ≠ clusterOf s.cur → t.cluster k = s.cluster k) ∧
    t.me.dirtyT.contains (o / 4096) = true ∧ t.me.pc = s.me.pc + (if q.lit then 8 else 4) ∧
    t.me.s = s.me.s ∧ t.me.sFull = s.me.sFull ∧ t.me.v = s.me.v ∧ t.me.vFull = s.me.vFull ∧
    t.me.accs = unfinished s.me.accs ∧
    (∀ p, p ≠ s.cur → t.slot p = s.slot p) ∧ t.mem = s.mem ∧ t.lines = s.lines

/-- An offset of the scratchpad that an access of `size` bytes may name (R174 to R176). -/
def SpOk (s : State) (a : Word) (size : Nat) : Prop :=
  a.toNat < 2 ^ 23 ∧ a.toNat % size = 0 ∧ (s.cluster (clusterOf s.cur)).retired.contains (a.toNat / 4096) = false

end Sys2Proof.Claims

/-- Loads, stores, `lda`, `stl`, synchronising accesses of memory and atomics that pass their checks start the access that their
table row gives them and retire; a load's register becomes empty until the fill. The literal of `stl` is sign-extended, which is the
model's reading (entry 38). -/
def Sys2Proof.Claims.AccessIssue : Prop :=
  ∀ (i : Sys2Proof.Instr) (s : Sys2Proof.Machine.State) (r : Sys2Proof.Claims.Issue),
    Sys2Proof.Claims.issue i s = some r → Sys2Proof.Claims.Unbroken s → s.gateOf s.cur r.form = .go →
    (r.det = none ∨ s.me.det = false) → Sys2Proof.Claims.InContext s → r.addr.toNat < 2 ^ 56 →
    r.addr.toNat % r.size = 0 → Sys2Proof.Claims.Roomy s →
    Sys2Proof.Claims.Starts i r.form r.kind r.hint false r.parts r.dst s

/-- The checks of those instructions at issue, in order: determinism, the context entry, the address range, alignment; the
first that fails takes its trap with the address, and a slot with 32 outstanding accesses waits. -/
def Sys2Proof.Claims.AccessChecks : Prop :=
  ∀ (i : Sys2Proof.Instr) (s : Sys2Proof.Machine.State) (r : Sys2Proof.Claims.Issue),
    Sys2Proof.Claims.issue i s = some r → s.gateOf s.cur r.form = .go →
    let traps (c : Nat) (v : Sys2Proof.Word) : Prop := Sys2Proof.Machine.exec i s = s.trap c v r.form.lit
    let entry := s.ctx (Sys2Proof.Machine.dieOf s.cur) s.me.asid.toNat
    (∀ n, r.det = some n → s.me.det = true → traps n 0) ∧
    ((r.det = none ∨ s.me.det = false) →
      (s.me.asid ≠ 0 → entry = .invalid → traps 0x46 r.addr) ∧ (s.me.asid ≠ 0 → entry = .poisoned → traps 0x45 r.addr) ∧
      (Sys2Proof.Claims.InContext s → 2 ^ 56 ≤ r.addr.toNat → traps 0x43 r.addr) ∧
      (Sys2Proof.Claims.InContext s → r.addr.toNat < 2 ^ 56 → r.addr.toNat % r.size ≠ 0 → traps 0x44 r.addr) ∧
      (Sys2Proof.Claims.InContext s → r.addr.toNat < 2 ^ 56 → r.addr.toNat % r.size = 0 → ¬ Sys2Proof.Claims.Roomy s →
        Sys2Proof.Machine.exec i s = .next s))

/-- Gathers and scatters in memory, and `clrfe`: each active lane is a 4-byte part at base + 4 × index, and `clrfe` a part in
each line of its range; inactive lanes have no part. With no active lane, or a range of no words, the instruction goes on and
starts nothing. -/
def Sys2Proof.Claims.LaneAccessIssue : Prop :=
  ∀ (s : Sys2Proof.Machine.State) (d : Sys2Proof.VReg) (a : Sys2Proof.LSrc) (b : Sys2Proof.VOpd) (m : Sys2Proof.MReg),
    Sys2Proof.Claims.Unbroken s → Sys2Proof.Claims.InContext s → Sys2Proof.Claims.Roomy s →
    let is := Sys2Proof.Machine.lref a :: Sys2Proof.Machine.brefV b
    let ld : Sys2Proof.Machine.Form := { srcs := is, dsts := [.fillV d], lit := Sys2Proof.Machine.isLit b }
    let st : Sys2Proof.Machine.Form := { srcs := is ++ [.v d false], dsts := [], lit := Sys2Proof.Machine.isLit b }
    let at_ (i : Nat) : Sys2Proof.Word := s.sval ld 0 + 4 * (Sys2Proof.Claims.vlane s b i).zeroExtend 64
    let part (i : Nat) (k : Nat) (x : Nat) : Sys2Proof.Machine.Part :=
      { va := (at_ i).toNat, size := 4, lane := k, data := x, st := .todo, acks := [] }
    let on := (List.range 16).filter fun i => (s.me.mask m).getLsbD i
    (s.sval ld 0).toNat % 4 = 0 → (∀ i ∈ on, (at_ i).toNat < 2 ^ 56) →
    (s.gateOf s.cur ld = .go → on = [] → Sys2Proof.Machine.exec (.vgather d a b m false) s = .next ((s.pops ld).retire ld)) ∧
    (s.gateOf s.cur st = .go → on = [] → Sys2Proof.Machine.exec (.vscatter d a b m false) s = .next ((s.pops st).retire st)) ∧
    (s.gateOf s.cur ld = .go → on ≠ [] →
      Sys2Proof.Claims.Starts (.vgather d a b m false) ld (.load false false) .dflt false (on.map fun i => part i i 0)
        (.v d (s.me.mask m)) s) ∧
    (s.gateOf s.cur st = .go → on ≠ [] →
      Sys2Proof.Claims.Starts (.vscatter d a b m false) st (.store false false) .dflt false
        (on.map fun i => part i (16 + i) (Sys2Proof.Machine.lane s.me.v[d] i).toNat) .none s) ∧
    (∀ (e : Sys2Proof.SSrc) (f : Sys2Proof.SOpd),
      let q := Sys2Proof.Machine.formR [] e f
      let n := (s.bval q 1 .zext f).toNat
      let x := (s.sval q 0).toNat
      s.gateOf s.cur q = .go → x % 4 = 0 → n % 4 = 0 → n ≤ 4096 → x % 4096 + n ≤ 4096 → x < 2 ^ 56 →
      (n = 0 → Sys2Proof.Machine.exec (.clrfe e f true) s = .next ((s.pops q).retire q)) ∧
      (0 < n → ∃ l : List (Nat × Nat),
        Sys2Proof.Claims.Starts (.clrfe e f true) q .clear .dflt false
          (l.map fun c => { va := c.1, size := c.2, lane := 0, data := 0, st := .todo, acks := [] }) .none s ∧
        (∀ c ∈ l, c.1 / 64 = (c.1 + c.2 - 1) / 64) ∧
        (∀ b, (∃ c ∈ l, c.1 ≤ b ∧ b < c.1 + c.2) ↔ x ≤ b ∧ b < x + n)))

/-- Scratchpad loads that no earlier access of the slot stands before bind at issue what the words hold, whatever their full bits,
and POISON where a word is poisoned; a synchronising load does so where its words are full, and otherwise starts a part that waits
at them. Whatever stands before them, they go on. The POISON is R397's, where R182 gives a scratchpad load no late outcome: the
model's reading (entry 33). -/
def Sys2Proof.Claims.ScratchLoad : Prop :=
  ∀ (s : Sys2Proof.Machine.State) (d : Sys2Proof.SReg) (v : Sys2Proof.VReg) (b : Sys2Proof.SSrc) (z : Sys2Proof.Size)
    (off : BitVec 10) (wide : Bool) (a : Sys2Proof.LSrc) (x : Sys2Proof.VOpd) (m : Sys2Proof.MReg),
    Sys2Proof.Claims.Unbroken s → Sys2Proof.Claims.Roomy s →
    let q := Sys2Proof.Machine.formA [.fillS d] b
    let qv := Sys2Proof.Machine.formA [.fillV v] b
    let qg : Sys2Proof.Machine.Form :=
      { srcs := Sys2Proof.Machine.lref a :: Sys2Proof.Machine.brefV x, dsts := [.fillV v], lit := Sys2Proof.Machine.isLit x }
    let at_ (n : Nat) : Sys2Proof.Word := s.sval q 0 + BitVec.ofInt 64 (off.toInt * n)
    let lane (i : Nat) : Sys2Proof.Word := s.sval qg 0 + 4 * (Sys2Proof.Claims.vlane s x i).zeroExtend 64
    let on := (List.range 16).filter fun i => (s.me.mask m).getLsbD i
    let sy : Nat := if wide then 8 else 4
    let vat := s.sval qv 0 + BitVec.ofInt 64 (off.toInt * 64)
    (s.gateOf s.cur q = .go → Sys2Proof.Claims.SpOk s (at_ z.bytes) z.bytes →
      Sys2Proof.Claims.Runs (.ldSp d b z off) q s ∧ Sys2Proof.Claims.Runs (.ldSpN d b z off) q s ∧
      (Sys2Proof.Claims.SpFree s [((at_ z.bytes).toNat, z.bytes)] →
        Sys2Proof.Claims.Starts (.ldSp d b z off) q (.load false false) .dflt true
          (Sys2Proof.Claims.spParts s [((at_ z.bytes).toNat, z.bytes, 0)]) (.s d true z.bytes) s ∧
        Sys2Proof.Claims.Starts (.ldSpN d b z off) q (.load false false) .dflt true
          (Sys2Proof.Claims.spParts s [((at_ z.bytes).toNat, z.bytes, 0)]) (.s d false z.bytes) s)) ∧
    (s.gateOf s.cur q = .go → Sys2Proof.Claims.SpOk s (at_ sy) sy →
      let full := ∀ k, k < sy / 4 → (s.cluster (Sys2Proof.Machine.clusterOf s.cur)).full ((at_ sy).toNat / 4 + k) = true
      Sys2Proof.Claims.Runs (.ldsync d b false wide off) q s ∧
      (Sys2Proof.Claims.SpFree s [((at_ sy).toNat, sy)] → full →
        Sys2Proof.Claims.Starts (.ldsync d b false wide off) q (.load false true) .dflt true
          (Sys2Proof.Claims.spParts s [((at_ sy).toNat, sy, 0)]) (.s d false sy) s) ∧
      ((∀ b ∈ s.me.accs, b.id < s.seq) → ¬ full →
        Sys2Proof.Claims.Starts (.ldsync d b false wide off) q (.load false true) .dflt true
          (Sys2Proof.Claims.onePart (at_ sy) sy 0) (.s d false sy) s)) ∧
    (s.gateOf s.cur qv = .go → Sys2Proof.Claims.SpOk s vat 64 →
      Sys2Proof.Claims.Runs (.vldSp v b off) qv s ∧
      (Sys2Proof.Claims.SpFree s [(vat.toNat, 64)] →
        Sys2Proof.Claims.Starts (.vldSp v b off) qv (.load false false) .dflt true
          (Sys2Proof.Claims.spParts s ((List.range 16).map fun i => (vat.toNat + 4 * i, 4, i)))
          (.v v (BitVec.allOnes 16)) s)) ∧
    (s.gateOf s.cur qg = .go → (s.sval qg 0).toNat % 4 = 0 → (∀ i ∈ on, Sys2Proof.Claims.SpOk s (lane i) 4) →
      Sys2Proof.Claims.Runs (.vgather v a x m true) qg s ∧
      (on = [] → Sys2Proof.Machine.exec (.vgather v a x m true) s = .next ((s.pops qg).retire qg)) ∧
      (on ≠ [] → Sys2Proof.Claims.SpFree s (on.map fun i => ((lane i).toNat, 4)) →
        Sys2Proof.Claims.Starts (.vgather v a x m true) qg (.load false false) .dflt true
          (Sys2Proof.Claims.spParts s (on.map fun i => ((lane i).toNat, 4, i))) (.v v (s.me.mask m)) s))

/-- Scratchpad stores that no earlier access of the slot stands before are performed at issue: the bytes at the offset take the
low bytes of the data register, or the lanes of the vector, and every other byte of the scratchpad and of memory keeps its
value; only `stfill` sets words full, and `clrfe` empties the words of its range and changes no byte. Whatever stands before
them they go on; a store to a tile slot that a `tst` has locked waits. -/
def Sys2Proof.Claims.ScratchStore : Prop :=
  ∀ (s : Sys2Proof.Machine.State) (d : Sys2Proof.SReg) (v : Sys2Proof.VReg) (b : Sys2Proof.SSrc) (z : Sys2Proof.Size)
    (off : BitVec 10) (e : Sys2Proof.SSrc) (o : Sys2Proof.SOpd) (wide : Bool),
    Sys2Proof.Claims.Unbroken s → Sys2Proof.Claims.Roomy s →
    let q : Sys2Proof.Machine.Form := { srcs := [.s b.reg b.wait, .s d false], dsts := [], lit := false }
    let qv : Sys2Proof.Machine.Form := { srcs := [.s b.reg b.wait, .v v false], dsts := [], lit := false }
    let qf := Sys2Proof.Machine.formR [] e o
    let c := s.cluster (Sys2Proof.Machine.clusterOf s.cur)
    let a := s.sval q 0 + BitVec.ofInt 64 (off.toInt * z.bytes)
    let av := s.sval qv 0 + BitVec.ofInt 64 (off.toInt * 64)
    let af := s.sval qf 0
    let n := (s.bval qf 1 .zext o).toNat
    let sf := if wide then 8 else 4
    (s.gateOf s.cur q = .go → Sys2Proof.Claims.SpOk s a z.bytes →
      (c.locked (a.toNat / 4096) = true → Sys2Proof.Machine.exec (.stSp d b z off) s = .next s) ∧
      (c.locked (a.toNat / 4096) = false → Sys2Proof.Claims.Runs (.stSp d b z off) q s ∧
        (Sys2Proof.Claims.SpFree s [(a.toNat, z.bytes)] →
          Sys2Proof.Claims.Stores (.stSp d b z off) q a.toNat (Sys2Proof.Machine.toBytes z.bytes (s.sval q 1).toNat) false s))) ∧
    (s.gateOf s.cur qv = .go → Sys2Proof.Claims.SpOk s av 64 → c.locked (av.toNat / 4096) = false →
      Sys2Proof.Claims.Runs (.vstSp v b off) qv s ∧ (Sys2Proof.Claims.SpFree s [(av.toNat, 64)] →
        Sys2Proof.Claims.Stores (.vstSp v b off) qv av.toNat (Sys2Proof.Machine.toBytes 64 (s.vval qv 1).toNat) false s)) ∧
    (s.gateOf s.cur qf = .go → Sys2Proof.Claims.SpOk s af sf → c.locked (af.toNat / 4096) = false →
      Sys2Proof.Claims.Runs (.stfill e o false wide) qf s ∧ (Sys2Proof.Claims.SpFree s [(af.toNat, sf)] →
        Sys2Proof.Claims.Stores (.stfill e o false wide) qf af.toNat (Sys2Proof.Machine.toBytes sf n) true s)) ∧
    (s.gateOf s.cur qf = .go → Sys2Proof.Claims.SpOk s af 4 → n % 4 = 0 → n ≤ 4096 → af.toNat % 4096 + n ≤ 4096 →
      Sys2Proof.Claims.Runs (.clrfe e o false) qf s ∧ (Sys2Proof.Claims.SpFree s [(af.toNat, n)] → ∃ t, Sys2Proof.Machine.exec (.clrfe e o false) s = .next t ∧
        (∀ w, (t.cluster (Sys2Proof.Machine.clusterOf s.cur)).full w =
          (c.full w && !decide (af.toNat / 4 ≤ w ∧ w < (af.toNat + n) / 4))) ∧
        (t.cluster (Sys2Proof.Machine.clusterOf s.cur)).sp = c.sp ∧ t.me.s = s.me.s ∧ t.mem = s.mem ∧
        t.me.pc = s.me.pc + (if qf.lit then 8 else 4))) ∧
    (∀ (k : Sys2Proof.LSrc) (x : Sys2Proof.VOpd) (m : Sys2Proof.MReg),
      let qg : Sys2Proof.Machine.Form :=
        { srcs := Sys2Proof.Machine.lref k :: Sys2Proof.Machine.brefV x ++ [.v v false], dsts := [],
          lit := Sys2Proof.Machine.isLit x }
      let lane (i : Nat) : Sys2Proof.Word := s.sval qg 0 + 4 * (Sys2Proof.Claims.vlane s x i).zeroExtend 64
      let on := (List.range 16).filter fun i => (s.me.mask m).getLsbD i
      s.gateOf s.cur qg = .go → (s.sval qg 0).toNat % 4 = 0 →
      (∀ i ∈ on, Sys2Proof.Claims.SpOk s (lane i) 4 ∧ c.locked ((lane i).toNat / 4096) = false) →
      Sys2Proof.Claims.Runs (.vscatter v k x m true) qg s ∧
      (Sys2Proof.Claims.SpFree s (on.map fun i => ((lane i).toNat, 4)) →
      ∃ t, Sys2Proof.Machine.exec (.vscatter v k x m true) s = .next t ∧
        (∀ i ∈ on, (∀ j ∈ on, i < j → lane i ≠ lane j) →
          (t.cluster (Sys2Proof.Machine.clusterOf s.cur)).spWord ((lane i).toNat / 4) =
            Sys2Proof.Machine.lane s.me.v[v] i) ∧
        (∀ w, (∀ i ∈ on, (lane i).toNat / 4 ≠ w) →
          (t.cluster (Sys2Proof.Machine.clusterOf s.cur)).spWord w = c.spWord w) ∧
        t.me.s = s.me.s ∧ t.me.v = s.me.v ∧ t.mem = s.mem ∧ t.me.pc = s.me.pc + (if qg.lit then 8 else 4)))

/-- Loads and stores of the scratchpad: the statements `ScratchLoad`, `ScratchStore` above. -/
def Obligations.ScratchAccess : Prop :=
  Sys2Proof.Claims.ScratchLoad ∧ Sys2Proof.Claims.ScratchStore

/-- The scratchpad instructions of one offset (R182 to R184): sources and destination, the offset, and its size. -/
def Sys2Proof.Claims.spAccess (i : Sys2Proof.Instr) (s : Sys2Proof.Machine.State) :
    Option (Sys2Proof.Machine.Form × Sys2Proof.Word × Nat) :=
  let ld (d : Sys2Proof.Machine.Dst) (b : Sys2Proof.SSrc) (off : BitVec 10) (n : Nat) :=
    let q := Sys2Proof.Machine.formA [d] b
    some (q, s.sval q 0 + BitVec.ofInt 64 (off.toInt * n), n)
  let st (d : Sys2Proof.Machine.Ref) (b : Sys2Proof.SSrc) (off : BitVec 10) (n : Nat) :=
    let q : Sys2Proof.Machine.Form := { srcs := [.s b.reg b.wait, d], dsts := [], lit := false }
    some (q, s.sval q 0 + BitVec.ofInt 64 (off.toInt * n), n)
  match i with
  | .ldSp d b z off => ld (.fillS d) b off z.bytes
  | .ldSpN d b z off => ld (.fillS d) b off z.bytes
  | .ldsync d b false wide off => ld (.fillS d) b off (if wide then 8 else 4)
  | .vldSp d b off => ld (.fillV d) b off 64
  | .stSp d b z off => st (.s d false) b off z.bytes
  | .vstSp d b off => st (.v d false) b off 64
  | .stfill a b false wide => let q := Sys2Proof.Machine.formR [] a b; some (q, s.sval q 0, if wide then 8 else 4)
  | _ => none

/-- The scratchpad's checks: an offset out of range takes PROTECTION, a misaligned one MISALIGNED_DATA, and one in a retired
tile slot POISON, each with the offset; a slot with 32 outstanding accesses waits. -/
def Sys2Proof.Claims.ScratchChecks : Prop :=
  ∀ (i : Sys2Proof.Instr) (s : Sys2Proof.Machine.State) (q : Sys2Proof.Machine.Form) (a : Sys2Proof.Word) (n : Nat),
    Sys2Proof.Claims.spAccess i s = some (q, a, n) → s.gateOf s.cur q = .go →
    let traps (c : Nat) : Prop := Sys2Proof.Machine.exec i s = s.trap c a q.lit
    let gone : Bool := (s.cluster (Sys2Proof.Machine.clusterOf s.cur)).retired.contains (a.toNat / 4096)
    (2 ^ 23 ≤ a.toNat → traps 0x43) ∧ (a.toNat < 2 ^ 23 → a.toNat % n ≠ 0 → traps 0x44) ∧
    (a.toNat < 2 ^ 23 → a.toNat % n = 0 → gone = true → traps 0x45) ∧
    (Sys2Proof.Claims.SpOk s a n → ¬ Sys2Proof.Claims.Roomy s → Sys2Proof.Machine.exec i s = .next s)

/-- The checks of gathers and scatters, in memory and in the scratchpad, each over every active lane before the next: the context
entry (in memory), the lanes' addresses, with the address of the first that is out of range, the base's alignment, and (in the
scratchpad) the tile slots, with the offset of the first lane in a retired one; then a slot with 32 outstanding accesses waits.
That the context's trap gives the base is the choice of log entry 68. -/
def Sys2Proof.Claims.LaneChecks : Prop :=
  ∀ (s : Sys2Proof.Machine.State) (d : Sys2Proof.VReg) (a : Sys2Proof.LSrc) (b : Sys2Proof.VOpd) (m : Sys2Proof.MReg) (sp : Bool)
    (i : Sys2Proof.Instr) (q : Sys2Proof.Machine.Form),
    let is := Sys2Proof.Machine.lref a :: Sys2Proof.Machine.brefV b
    (i, q) ∈ [(Sys2Proof.Instr.vgather d a b m sp, { srcs := is, dsts := [.fillV d], lit := Sys2Proof.Machine.isLit b }),
      (.vscatter d a b m sp, { srcs := is ++ [.v d false], dsts := [], lit := Sys2Proof.Machine.isLit b })] →
    s.gateOf s.cur q = .go →
    let base := s.sval q 0
    let lane (k : Nat) : Sys2Proof.Word := base + 4 * (Sys2Proof.Claims.vlane s b k).zeroExtend 64
    let on := (List.range 16).filter fun k => (s.me.mask m).getLsbD k
    let traps (c : Nat) (v : Sys2Proof.Word) : Prop := Sys2Proof.Machine.exec i s = s.trap c v q.lit
    let entry := s.ctx (Sys2Proof.Machine.dieOf s.cur) s.me.asid.toNat
    let limit := if sp then 2 ^ 23 else 2 ^ 56
    let gone (k : Nat) : Bool :=
      (s.cluster (Sys2Proof.Machine.clusterOf s.cur)).retired.contains ((lane k).toNat / 4096)
    (sp = false → s.me.asid ≠ 0 → (entry = .invalid → traps 0x46 base) ∧ (entry = .poisoned → traps 0x45 base)) ∧
    (sp = true ∨ Sys2Proof.Claims.InContext s →
      (∀ k ∈ on, limit ≤ (lane k).toNat → (∀ j ∈ on, j < k → (lane j).toNat < limit) → traps 0x43 (lane k)) ∧
      ((∀ k ∈ on, (lane k).toNat < limit) →
        (base.toNat % 4 ≠ 0 → traps 0x44 base) ∧
        (base.toNat % 4 = 0 →
          (∀ k ∈ on, sp = true → gone k = true → (∀ j ∈ on, j < k → gone j = false) → traps 0x45 (lane k)) ∧
          ((∀ k ∈ on, sp = true → gone k = false) → on ≠ [] → ¬ Sys2Proof.Claims.Roomy s →
            Sys2Proof.Machine.exec i s = .next s))))

/-- The checks of `clrfe`: in memory the context entry first, then its operands, then the address; in the scratchpad its operands,
then the offset and its tile slot; then a slot with 32 outstanding accesses waits, unless the range has no words. -/
def Sys2Proof.Claims.ClrfeChecks : Prop :=
  ∀ (s : Sys2Proof.Machine.State) (e : Sys2Proof.SSrc) (o : Sys2Proof.SOpd),
    let q := Sys2Proof.Machine.formR [] e o
    s.gateOf s.cur q = .go →
    let n := (s.bval q 1 .zext o).toNat
    let a := s.sval q 0
    let breach : Prop := a.toNat % 4 ≠ 0 ∨ n % 4 ≠ 0 ∨ 4096 < n ∨ 4096 < a.toNat % 4096 + n
    let traps (mem : Bool) (c : Nat) : Prop := Sys2Proof.Machine.exec (.clrfe e o mem) s = s.trap c a q.lit
    let entry := s.ctx (Sys2Proof.Machine.dieOf s.cur) s.me.asid.toNat
    let gone : Bool := (s.cluster (Sys2Proof.Machine.clusterOf s.cur)).retired.contains (a.toNat / 4096)
    (s.me.asid ≠ 0 → (entry = .invalid → traps true 0x46) ∧ (entry = .poisoned → traps true 0x45)) ∧
    (Sys2Proof.Claims.InContext s → (breach → traps true 0x44) ∧ (¬ breach → 2 ^ 56 ≤ a.toNat → traps true 0x43) ∧
      (¬ breach → a.toNat < 2 ^ 56 → 0 < n → ¬ Sys2Proof.Claims.Roomy s →
        Sys2Proof.Machine.exec (.clrfe e o true) s = .next s)) ∧
    (breach → traps false 0x44) ∧ (¬ breach → 2 ^ 23 ≤ a.toNat → traps false 0x43) ∧
    (¬ breach → a.toNat < 2 ^ 23 → gone = true → traps false 0x45) ∧
    (¬ breach → a.toNat < 2 ^ 23 → gone = false → 0 < n → ¬ Sys2Proof.Claims.Roomy s →
      Sys2Proof.Machine.exec (.clrfe e o false) s = .next s)

/-- The checks of memory and scratchpad accesses at issue: the statements `AccessChecks`, `ScratchChecks`, `LaneChecks`, `ClrfeChecks`
above. -/
def Obligations.AccessChecks : Prop :=
  Sys2Proof.Claims.AccessChecks ∧ Sys2Proof.Claims.ScratchChecks ∧ Sys2Proof.Claims.LaneChecks ∧ Sys2Proof.Claims.ClrfeChecks

/-- Prefetches complete whatever the address: no register and no full bit changes, and no byte of memory, unless the page is asked
back from another package; a line that the slot may read comes into the caches of its die with the retention that the form
names, once there is room, what would fault is dropped, and one without a translation waits for its walk. -/
def Sys2Proof.Claims.Prefetch : Prop :=
  ∀ (s : Sys2Proof.Machine.State) (a : Sys2Proof.SSrc) (i : Sys2Proof.Instr) (h : Sys2Proof.Hint),
    (i, h) ∈ [(Sys2Proof.Instr.pref a, Sys2Proof.Hint.dflt), (.prefSt a, .st), (.prefSk a, .sk)] → Sys2Proof.Claims.Unbroken s →
    let q := Sys2Proof.Machine.formA [] a
    let va := (s.sval q 0).toNat
    let asid := s.me.asid.toNat
    let cd := Sys2Proof.Machine.dieOf s.cur
    let reads (x : Sys2Proof.Machine.Attr) : Prop := x.r = true ∧ (s.me.priv = 0 → x.u = true) ∧ ¬ (h = .dflt ∧ x.ret = 3)
    let ret (x : Sys2Proof.Machine.Attr) : BitVec 2 := match h with | .dflt => x.ret | .sk => 2 | _ => 1
    let room := s.l2Room cd (Sys2Proof.Machine.lineKey asid va)
    s.gateOf s.cur q = .go →
    ∃ t, Sys2Proof.Machine.exec i s = .next t ∧ t.me.s = s.me.s ∧ t.me.sFull = s.me.sFull ∧ t.me.v = s.me.v ∧
      t.me.accs = s.me.accs ∧ t.me.pc = s.me.pc + 4 ∧
      ((∀ f x, s.xlateTlb asid va = .ok f x → s.hasMode f false = true) → t.mem = s.mem) ∧
      (2 ^ 56 ≤ va → t.lines = s.lines ∧ t.prefs = s.prefs) ∧
      (∀ l, va < 2 ^ 56 → s.line asid va = some l →
        (¬ reads l.attr → t.lines = s.lines ∧ t.prefs = s.prefs) ∧
        (reads l.attr → s.handing l.frame = false →
          ((l.seenBy cd).isSome = true → t.line asid va = some { l with ret := ret l.attr, pass := false }) ∧
          (l.seenBy cd = none → room = false → t.lines = s.lines ∧ (t.prefs.get? s.seq).isSome = true) ∧
          (l.seenBy cd = none → room = true → l.upd = none →
            ∃ m, t.line asid va = some m ∧ m.cur = l.cur ∧ cd ∈ m.present ∧ (∀ d ∈ l.present, d ∈ m.present) ∧ m.ret = ret l.attr))) ∧
      (va < 2 ^ 56 → s.line asid va = none →
        (∀ c, s.xlateTlb asid va = .fail c → t.lines = s.lines ∧ t.prefs = s.prefs) ∧
        (s.xlateTlb asid va = .miss → (∀ u ∈ s.unitWalks, u.who ≠ .pref s.seq) →
          t.lines = s.lines ∧ (t.prefs.get? s.seq).isSome = true ∧
          ∃ u ∈ t.unitWalks, u.who = .pref s.seq ∧ u.asid = asid ∧ u.page = va / 2 ^ 16 ∧ u.failed = none) ∧
        (∀ f x, s.xlateTlb asid va = .ok f x →
          (¬ reads x → t.lines = s.lines ∧ t.prefs = s.prefs) ∧
          (reads x → s.hasMode f false = true → s.handing f = false → (∃ d, s.phys f = .dram d) → room = true →
            s.l3Room va = true →
            ∃ m, t.line asid va = some m ∧ m.cur = s.mem.bytes (f / 64 * 64) 64 ∧ m.present = [cd] ∧ m.ret = ret x)))

/-- A `fence` completes once every earlier load of the slot has its value and every earlier store, atomic, `stl`, `stfill` and
`clrfe` is performed with respect to the compute dies of its scope, and waits before that; it writes no register and no
memory. A `digest.add` of the task that has not reached its sum counts as such a store, and so does a write that a load of the
slot has read early (R294, R405). -/
def Sys2Proof.Claims.FenceResult : Prop :=
  ∀ (s : Sys2Proof.Machine.State) (a : Sys2Proof.SSrc) (scope : Fin 6),
    Sys2Proof.Claims.Unbroken s →
    let q := Sys2Proof.Machine.formA [] a
    let own := Sys2Proof.Machine.dieOf s.cur
    let named (d : Nat) : Prop := d = own ∨ (3 ≤ scope.val ∧ d < 8 ∧ (s.sval q 0).toNat.testBit d = true)
    let early : Prop :=
      (∃ b ∈ s.me.accs, ∃ x ∈ b.parts,
        x.performed = false ∨ (b.isLoad = false ∧ ∃ d ∈ x.acks, named d ∧ s.up.getLsbD d = true)) ∨
      (∃ b ∈ s.me.borrowed, ∃ d ∈ b.2, named d ∧ s.up.getLsbD d = true) ∨ s.digesting s.me.tid s.seq = true
    s.gateOf s.cur q = .go → s.cur < 16384 → s.up.getLsbD own = true →
    (early → Sys2Proof.Machine.exec (.fence a scope) s = .next s) ∧
    (¬ early → ∃ t, Sys2Proof.Machine.exec (.fence a scope) s = .next t ∧ t.me.pc = s.me.pc + 4 ∧ t.me.s = s.me.s ∧
      t.me.sFull = s.me.sFull ∧ t.me.v = s.me.v ∧ t.me.vFull = s.me.vFull ∧ t.me.m = s.me.m ∧ t.me.g = s.me.g ∧
      t.me.accs = s.me.accs ∧ t.mem = s.mem ∧ t.lines = s.lines ∧ t.clusters = s.clusters)

/-- A `drain` completes at once where no task of its core has a copy command; it waits where one is under way that writes into
its class, such as a version load into the scratchpad; and one that waits completes once every command that it waits for has
ended, and not before. -/
def Sys2Proof.Claims.DrainResult : Prop :=
  ∀ (s : Sys2Proof.Machine.State) (p : Sys2Proof.DrainPath),
    Sys2Proof.Claims.Unbroken s →
    let slots := (List.range 16).map fun k => Sys2Proof.Machine.coreOf s.cur * 16 + k
    let waiting (l : List (Nat × Sys2Proof.W32)) : Sys2Proof.Machine.State := s.modMe fun x => { x with wait := .drain l }
    (s.me.wait = .none → s.cur < 16384 → s.saved = [] → (∀ k ∈ slots, ((s.slot k).engine .c).queue = []) →
      ∃ t, Sys2Proof.Machine.exec (.drain p) s = .next t ∧ t.me.pc = s.me.pc + 4 ∧ t.me.s = s.me.s ∧ t.mem = s.mem) ∧
    (s.me.wait = .none → s.drainSet s.cur p ≠ [] → Sys2Proof.Machine.exec (.drain p) s = .next (waiting (s.drainSet s.cur p))) ∧
    (s.cur < 16384 → ∀ k ∈ slots, ∀ c ∈ ((s.slot k).engine .c).queue,
      c.opc = 0x23 → (c.words.getD 0 0).getLsbD 13 = false → ((s.slot k).tid, c.ticket) ∈ s.drainSet s.cur .sp) ∧
    (∀ n : List (Nat × Sys2Proof.W32), s.me.wait = .drain n →
      ((∀ c ∈ n, s.cmdEnded c.1 c.2 = true) → ∃ t, Sys2Proof.Machine.exec (.drain p) s = .next t ∧ t.me.wait = .none ∧
        t.me.pc = s.me.pc + 4 ∧ t.me.s = s.me.s ∧ t.mem = s.mem) ∧
      ((∃ c ∈ n, s.cmdEnded c.1 c.2 = false) → Sys2Proof.Machine.exec (.drain p) s = .next s))

/-- Prefetches, `fence` and `drain`: the statements `Prefetch`, `FenceResult`, `DrainResult` above. -/
def Obligations.PrefetchAndDrain : Prop :=
  Sys2Proof.Claims.Prefetch ∧ Sys2Proof.Claims.FenceResult ∧ Sys2Proof.Claims.DrainResult

/-- The new word of an atomic: the operation on the old word and the operand at the word's width, signed or unsigned as the
row says; compare-and-swap compares the whole word; the floating-point sum is rounded in the mode in effect at issue. -/
def Sys2Proof.Claims.AtomicValue : Prop :=
  ∀ (w : Nat) (x y c : BitVec (8 * w)) (z : Sys2Proof.Word) (rm : BitVec 3) (a b : BitVec 32),
    let new (op : Sys2Proof.Machine.AmoOp) := Sys2Proof.Machine.amoNew op w x.toNat y.toNat z.toNat
    new .add = ((x + y).toNat, 0) ∧ new .and = ((x &&& y).toNat, 0) ∧ new .or = ((x ||| y).toNat, 0) ∧
    new .xor = ((x ^^^ y).toNat, 0) ∧ new .swap = (y.toNat, 0) ∧
    new .minI = ((if x.toInt ≤ y.toInt then x else y).toNat, 0) ∧
    new .maxI = ((if x.toInt ≤ y.toInt then y else x).toNat, 0) ∧
    new .minN = ((if x.toNat ≤ y.toNat then x else y).toNat, 0) ∧
    new .maxN = ((if x.toNat ≤ y.toNat then y else x).toNat, 0) ∧
    (c.toNat = z.toNat % 2 ^ (8 * w) → new .cas = ((if x = c then y else x).toNat, 0)) ∧
    (Sys2Proof.Machine.amoNew (.fadd rm) 4 a.toNat b.toNat 0 =
      Sys2Proof.Fp.add Sys2Proof.Fp.f32 (Sys2Proof.Fp.RM.ofField rm.toNat) (Sys2Proof.Fp.f32.val a.toNat)
        (Sys2Proof.Fp.f32.val b.toNat))

/-- Memory instructions that pass their checks start their access: the statements `AccessIssue`, `LaneAccessIssue`, `AtomicValue`
above. -/
def Obligations.AccessIssue : Prop :=
  Sys2Proof.Claims.AccessIssue ∧ Sys2Proof.Claims.LaneAccessIssue ∧ Sys2Proof.Claims.AtomicValue

/-! ### The memory system's steps (04, 07) -/

namespace Sys2Proof.Claims
open Sys2Proof.Machine

/-- Part `k` of access `id` of slot `p`, still to be performed, in memory. -/
def Waits (s : State) (p id k : Nat) (a : Access) (x : Part) : Prop :=
  s.acc p id = some a ∧ a.parts[k]? = some x ∧ x.st = .todo ∧ a.sp = false

/-- The registers of every slot, with their full bits, are as they were. -/
def RegsKept (s t : State) : Prop :=
  ∀ p, (t.slot p).s = (s.slot p).s ∧ (t.slot p).sFull = (s.slot p).sFull ∧ (t.slot p).v = (s.slot p).v ∧
    (t.slot p).vFull = (s.slot p).vFull ∧ (t.slot p).pc = (s.slot p).pc ∧ (t.slot p).priv = (s.slot p).priv

/-- Every byte of memory outside a range is as it was. -/
def Outside (s t : State) (f n : Nat) : Prop := ∀ b, b < f ∨ f + n ≤ b → t.mem.byte b = s.mem.byte b

/-- Every line but that of one key is as it was. -/
def LinesKept (s t : State) (key : Nat) : Prop := ∀ k, k ≠ key → t.lines.get? k = s.lines.get? k

/-- `n` bytes from an offset of a line's contents. -/
def cut (b : List Byte) (off n : Nat) : List Byte := (b.drop off).take n

/-- The contents of a line with `d` written from an offset. -/
def Written (old new : List Byte) (off : Nat) (d : List Byte) : Prop :=
  new.length = old.length ∧ ∀ j, j < old.length →
    new.getD j 0 = if off ≤ j ∧ j < off + d.length then d.getD (j - off) 0 else old.getD j 0

end Sys2Proof.Claims

/-- The fill of a load lands: a load whose line is in its die's caches, allowed and unpoisoned, with no update or old copy
outstanding and its page not being handed over, and for a synchronising load whose words are full, gives its register the bytes
at the address, extended as the row says, and the register is full; nothing else of any slot's registers and no byte of memory
changes. A synchronising load at an empty word waits. -/
def Sys2Proof.Claims.LoadFill : Prop :=
  ∀ (s : Sys2Proof.Machine.State) (p id : Nat) (a : Sys2Proof.Machine.Access) (x : Sys2Proof.Machine.Part)
    (l : Sys2Proof.Machine.Line) (b : List Sys2Proof.Byte) (acq sync signed : Bool) (d : Sys2Proof.SReg) (size : Nat),
    s.tiles.get? id = none → Sys2Proof.Claims.Waits s p id 0 a x → a.parts = [x] → a.kind = .load acq sync →
    a.dst = .s d signed size → x.size = size → d ≠ 0 → s.role p d = .plain → s.ordered p a x = true →
    s.line a.asid x.va = some l → s.handing l.frame = false → l.attr.allows a.need = true →
    l.seenBy (Sys2Proof.Machine.dieOf p) = some b → l.upd = none → l.stale = [] → l.poison = false → l.pass = false →
    let n := Sys2Proof.Machine.ofBytes (Sys2Proof.Claims.cut b (x.va % 64) size)
    let empty (j : Nat) : Prop := j < (x.size + 3) / 4 ∧ x.va % 64 / 4 + j ∈ l.empties
    ((∃ j, sync = true ∧ empty j) → Sys2Proof.Machine.exec (.fillLand p id 0) s = .next s) ∧
    ((∀ j, sync = true → ¬ empty j) → ∃ t, Sys2Proof.Machine.exec (.fillLand p id 0) s = .next t ∧
      (t.slot p).reg d = (if signed then (BitVec.ofNat (8 * size) n).signExtend 64 else BitVec.ofNat 64 n) ∧
      (t.slot p).full d = true ∧ Sys2Proof.Claims.OthersKept d (s.slot p) (t.slot p) ∧
      (t.slot p).v = (s.slot p).v ∧ (t.slot p).pc = (s.slot p).pc ∧ (∀ q, q ≠ p → t.slot q = s.slot q) ∧
      t.mem = s.mem ∧ (∃ m, t.line a.asid x.va = some m ∧ m.cur = l.cur ∧ m.dirty = l.dirty))

/-- The lanes of a `vld` or `vgather` bind one by one, each to the bytes at its own address, while others still wait; and once every
lane has its value the vector register takes them, a lane with no part keeps its value, and the register is full. -/
def Sys2Proof.Claims.VectorFill : Prop :=
  ∀ (s : Sys2Proof.Machine.State) (p id k : Nat) (a : Sys2Proof.Machine.Access) (x : Sys2Proof.Machine.Part) (d : Sys2Proof.VReg)
    (m : Sys2Proof.Mask),
    s.tiles.get? id = none → s.acc p id = some a → a.parts[k]? = some x → a.dst = .v d m → a.sp = false →
    (∀ (l : Sys2Proof.Machine.Line) (b : List Sys2Proof.Byte) (acq : Bool), a.kind = .load acq false → x.st = .todo →
      (∃ j y, j ≠ k ∧ a.parts[j]? = some y ∧ y.performed = false) → s.ordered p a x = true →
      s.line a.asid x.va = some l → s.handing l.frame = false → l.attr.allows a.need = true →
      l.seenBy (Sys2Proof.Machine.dieOf p) = some b → l.upd = none → l.stale = [] → l.poison = false → l.pass = false →
      ∃ t c, Sys2Proof.Machine.exec (.fillLand p id k) s = .next t ∧ t.acc p id = some c ∧
        c.parts[k]? = some { x with st := .done (Sys2Proof.Machine.ofBytes (Sys2Proof.Claims.cut b (x.va % 64) x.size)) } ∧
        (∀ j, j ≠ k → c.parts[j]? = a.parts[j]?) ∧ (t.slot p).v = (s.slot p).v ∧ (t.slot p).vFull = (s.slot p).vFull ∧
        (t.slot p).s = (s.slot p).s ∧ (∀ q, q ≠ p → t.slot q = s.slot q) ∧ t.mem = s.mem) ∧
    ((∀ y ∈ a.parts, ∃ v, y.st = .done v) →
      ∃ t, Sys2Proof.Machine.exec (.fillLand p id k) s = .next t ∧ (t.slot p).vFull.getLsbD d.val = true ∧
        (∀ i, i < 16 →
          (∀ y v, a.parts.find? (fun z => z.lane == i) = some y → y.st = .done v →
            Sys2Proof.Machine.lane (t.slot p).v[d] i = BitVec.ofNat 32 v) ∧
          ((∀ y ∈ a.parts, y.lane ≠ i) →
            Sys2Proof.Machine.lane (t.slot p).v[d] i = Sys2Proof.Machine.lane (s.slot p).v[d] i)) ∧
        (∀ r : Sys2Proof.VReg, r ≠ d → (t.slot p).v[r] = (s.slot p).v[r]) ∧ (t.slot p).s = (s.slot p).s ∧
        (∀ q, q ≠ p → t.slot q = s.slot q) ∧ t.mem = s.mem ∧ t.lines = s.lines)

/-- A write reaches its line's home slice, where its die holds the line for write and its page is neither locked nor being handed
over: a store with no other sharer in its die is
committed at once, one with sharers leaves the contents as they are until the last of their L1s has acknowledged; a `stfill`
makes its words full with its commit; an atomic
reads and writes the word in one step; `clrfe` empties words and changes no byte. No register and no byte of memory outside
the line changes. -/
def Sys2Proof.Claims.SliceWrite : Prop :=
  ∀ (s : Sys2Proof.Machine.State) (p id k : Nat) (a : Sys2Proof.Machine.Access) (x : Sys2Proof.Machine.Part)
    (l : Sys2Proof.Machine.Line),
    Sys2Proof.Claims.Waits s p id k a x → s.line a.asid x.va = some l → s.ordered p a x = true →
    l.attr.allows a.need = true → l.writable (Sys2Proof.Machine.dieOf p) = true → x.va % 64 + x.size ≤ l.cur.length →
    s.handing l.frame = false → s.locked a.asid x.va = false → s.lostMem l.frame = false → l.pass = false →
    let key := a.asid * 2 ^ 50 + x.va / 64
    let near := l.l1.filter fun c => c != p / 16 && c / 128 == p / 2048
    let off := x.va % 64
    let writes (f : Sys2Proof.Machine.Line → Prop) : Prop :=
      ∃ t m, Sys2Proof.Machine.exec (.sliceWrite p id k) s = .next t ∧ t.lines.get? key = some m ∧ f m ∧ m.stale = l.stale ∧
        Sys2Proof.Claims.LinesKept s t key ∧ Sys2Proof.Claims.RegsKept s t ∧ t.mem = s.mem
    (∀ rel fill, a.kind = .store rel fill →
      (near = [] → writes fun m =>
        Sys2Proof.Claims.Written l.cur m.cur off (Sys2Proof.Machine.toBytes x.size x.data) ∧ m.dirty = true ∧ m.upd = none ∧
        (fill = false → m.empties = l.empties) ∧
        (fill = true → ∀ w, w ∈ m.empties ↔ w ∈ l.empties ∧ ¬ (off / 4 ≤ w ∧ w < off / 4 + (x.size + 3) / 4))) ∧
      (near ≠ [] → writes fun m => m.cur = l.cur ∧
        ∃ u, m.upd = some u ∧ u.off = off ∧ u.data = Sys2Proof.Machine.toBytes x.size x.data ∧ u.wait = near ∧ u.fill = fill)) ∧
    (∀ op c, a.kind = .atomic op c → l.poison = false → (∀ rm, op = .fadd rm → l.attr.d = false) →
      let old := Sys2Proof.Machine.ofBytes (Sys2Proof.Claims.cut l.cur off x.size)
      let new := Sys2Proof.Machine.amoNew op x.size old x.data c.toNat
      (writes fun m => Sys2Proof.Claims.Written l.cur m.cur off (Sys2Proof.Machine.toBytes x.size new.1) ∧ m.dirty = true) ∧
      ∃ t, Sys2Proof.Machine.exec (.sliceWrite p id k) s = .next t ∧ (t.slot p).flags = (s.slot p).flags ||| new.2) ∧
    (a.kind = .clear → writes fun m => m.cur = l.cur ∧
      ∀ w, w ∈ m.empties ↔ w ∈ l.empties ∨ off / 4 ≤ w ∧ w < off / 4 + (x.size + 3) / 4)

/-- Loads land with the bytes of their line, and writes are committed at their slice: the statements `LoadFill`, `VectorFill`,
`SliceWrite` above. -/
def Obligations.LoadAndSlice : Prop :=
  Sys2Proof.Claims.LoadFill ∧ Sys2Proof.Claims.VectorFill ∧ Sys2Proof.Claims.SliceWrite

/-- The steps of a line's coherence. The last acknowledgement of an update commits it, an earlier one does not; the directory
gives a die a copy, or write ownership with the old contents left in flight at every other die; an acknowledgement of an
invalidation ends that die's old copy; a compute die's L2 gives up a line that replacement may choose, without changing its
contents; a base die's L3 writes a modified line back to its frame and drops it. A streaming line goes before the others
of its set: with one there, no other line is given up. -/
def Sys2Proof.Claims.LineSteps : Prop :=
  ∀ (s : Sys2Proof.Machine.State) (asid va c die : Nat) (l : Sys2Proof.Machine.Line),
    va % 64 = 0 → va < 2 ^ 56 →
    let key := asid * 2 ^ 50 + va / 64
    s.lines.get? key = some l →
    let goes (i : Sys2Proof.Instr) (f : Sys2Proof.Machine.Line → Prop) : Prop :=
      ∃ t m, Sys2Proof.Machine.exec i s = .next t ∧ t.lines.get? key = some m ∧ f m ∧
        Sys2Proof.Claims.LinesKept s t key ∧ Sys2Proof.Claims.RegsKept s t ∧ t.mem = s.mem
    (∀ u, l.upd = some u → u.off + u.data.length ≤ l.cur.length → c ∈ u.wait →
      (u.wait.filter (· != c) = [] → goes (.sharerUpdateAck key c) fun m =>
        Sys2Proof.Claims.Written l.cur m.cur u.off u.data ∧ m.upd = none ∧ m.dirty = true) ∧
      (u.wait.filter (· != c) ≠ [] → goes (.sharerUpdateAck key c) fun m =>
        m.cur = l.cur ∧ m.upd = some { u with wait := u.wait.filter (· != c) })) ∧
    (l.upd = none → l.stale.has die = false → s.locked asid va = false → l.empties = [] → die ∉ l.present →
      l.owner ≠ some die → s.handing l.frame = false → s.l2Room die key = true →
      (∀ e ∈ s.farPuts, Sys2Proof.Machine.lineKey 0 e.1 ≠ key) → (∀ g ∈ s.farGets, Sys2Proof.Machine.lineKey 0 g.1 ≠ key) →
      (s.wanted die key false = true → goes (.directoryRequest die key false) fun m =>
        m.cur = l.cur ∧ die ∈ m.present ∧ m.owner = none ∧ (∀ d, d ∈ l.present ∨ l.owner = some d → d ∈ m.present)) ∧
      (s.wanted die key true = true → s.hasMode l.frame true = true → goes (.directoryRequest die key true) fun m =>
        m.cur = l.cur ∧ m.owner = some die ∧ m.present = [die] ∧
        (∀ d, d ≠ die → d ∈ l.present ∨ l.owner = some d → m.stale.get? d = some l.cur))) ∧
    (l.stale.has die = true → goes (.invalidateAck die key) fun m =>
      m.cur = l.cur ∧ m.stale.has die = false ∧ (∀ d, d ≠ die → m.stale.get? d = l.stale.get? d)) ∧
    (l.upd = none → l.empties = [] → s.locked asid va = false → s.replaceable die key l = true →
      (die < 8 → die ∈ l.present → l.stale.has die = false → goes (.l2Eviction die key) fun m =>
        m.cur = l.cur ∧ m.dirty = l.dirty ∧ die ∉ m.present ∧ m.owner ≠ some die) ∧
      (8 ≤ die → l.present = [] → l.owner = none → l.stale = [] → l.poison = false → (∃ e, s.phys l.frame = .dram e) →
        s.pages.get? (l.frame / 2 ^ 16) = none → s.pdir.get? (l.frame / 2 ^ 16) = none →
        ∃ t, Sys2Proof.Machine.exec (.l2Eviction die key) s = .next t ∧ Sys2Proof.Claims.RegsKept s t ∧
          t.mem.bytes l.frame l.cur.length = (if l.dirty then l.cur else s.mem.bytes l.frame l.cur.length) ∧
          Sys2Proof.Claims.Outside s t l.frame l.cur.length ∧ t.lines.get? key = none)) ∧
    (die < 8 → l.ret ≠ 1 → (∃ e ∈ s.rivals die key, e.2.ret = 1) → Sys2Proof.Machine.exec (.l2Eviction die key) s = .next s)

/-- A part whose line is on no chip: with a translation that allows it, and room in its die's L2 and in the L3, the line comes
on chip from its frame for the part's die; an access that bypasses the caches is performed at memory, a store changing exactly
its own bytes there, a load taking the bytes that stand there and changing nothing; without a translation it waits for a walk,
posted once for its page. A bypassing part whose line other dies hold has it written back and given up first. -/
def Sys2Proof.Claims.MissTranslate : Prop :=
  ∀ (s : Sys2Proof.Machine.State) (p id k f e : Nat) (a : Sys2Proof.Machine.Access) (x : Sys2Proof.Machine.Part)
    (at_ : Sys2Proof.Machine.Attr),
    Sys2Proof.Claims.Waits s p id k a x →
    let by_ (b : Sys2Proof.Machine.Attr) : Bool := a.hint == .by || (a.hint == .dflt && b.ret == 3)
    let cd := Sys2Proof.Machine.dieOf p
    let key := Sys2Proof.Machine.lineKey a.asid x.va
    (s.line a.asid x.va = none → s.xlateTlb a.asid x.va = .ok f at_ → at_.allows a.need = true → s.phys f = .dram e →
      s.farNeeds cd a.asid x.va f at_ (!a.isLoad) = none →
      (by_ at_ = false ∨ a.kind = .clear → s.l2Room cd key = true → s.l3Room x.va = true →
        ∃ t l, Sys2Proof.Machine.exec (.l3MissTranslate p id k) s = .next t ∧ t.line a.asid x.va = some l ∧
          l.cur = s.mem.bytes (f / 64 * 64) 64 ∧ l.frame = f / 64 * 64 ∧ l.attr = at_ ∧ l.dirty = false ∧
          l.present = [cd] ∧ l.poison = s.poisonAt (f / 64 * 64) ∧
          Sys2Proof.Claims.LinesKept s t key ∧ Sys2Proof.Claims.RegsKept s t ∧ t.mem = s.mem) ∧
      (by_ at_ = true → s.ordered p a x = true → s.lostMem f = false → s.locked a.asid x.va = false →
        ∀ rel fill, a.kind = .store rel fill →
        ∃ t, Sys2Proof.Machine.exec (.l3MissTranslate p id k) s = .next t ∧
          t.mem.bytes f x.size = Sys2Proof.Machine.toBytes x.size x.data ∧ Sys2Proof.Claims.Outside s t f x.size ∧
          t.lines = s.lines ∧ Sys2Proof.Claims.RegsKept s t) ∧
      (by_ at_ = true → s.ordered p a x = true → s.poisonAt f = false → a.dst ≠ .none →
        ∀ acq sync, a.kind = .load acq sync →
        ∃ t b y, Sys2Proof.Machine.exec (.l3MissTranslate p id k) s = .next t ∧ t.acc p id = some b ∧ b.parts[k]? = some y ∧
          y.st = .done (Sys2Proof.Machine.ofBytes (s.mem.bytes f x.size)) ∧
          t.mem = s.mem ∧ t.lines = s.lines ∧ Sys2Proof.Claims.RegsKept s t)) ∧
    (s.line a.asid x.va = none → s.xlateTlb a.asid x.va = .miss →
      s.walkOf (s.transDie a.asid (x.va / 2 ^ 16)) a.asid (x.va / 2 ^ 16) = none →
      ∃ t w, Sys2Proof.Machine.exec (.l3MissTranslate p id k) s = .next t ∧ t.walks.get? s.seq = some w ∧ w.asid = a.asid ∧
        w.page = x.va / 2 ^ 16 ∧ w.answer = none ∧ t.mem = s.mem ∧ t.lines = s.lines ∧ Sys2Proof.Claims.RegsKept s t ∧
        ∃ b y, t.acc p id = some b ∧ b.parts[k]? = some y ∧ y.st = .walking s.seq) ∧
    (∀ l, s.line a.asid x.va = some l → by_ l.attr = true → a.kind ≠ .clear → l.seenBy cd = none → l.upd = none → l.stale = [] →
      l.empties = [] → l.poison = false → s.locked a.asid x.va = false → s.phys l.frame = .dram e →
      ∃ t, Sys2Proof.Machine.exec (.l3MissTranslate p id k) s = .next t ∧ t.line a.asid x.va = none ∧
        t.mem.bytes l.frame l.cur.length = (if l.dirty then l.cur else s.mem.bytes l.frame l.cur.length) ∧
        Sys2Proof.Claims.Outside s t l.frame l.cur.length ∧ Sys2Proof.Claims.RegsKept s t)

/-- The steps of a line, and a part that misses: the statements `LineSteps`, `MissTranslate` above. -/
def Obligations.LineAndMiss : Prop :=
  Sys2Proof.Claims.LineSteps ∧ Sys2Proof.Claims.MissTranslate

/-- Page walks: a request that its TLB holds enters a mailbox that has room; the rake of that core answers the oldest one in its
mailbox; the answer installs a leaf, or fails the accesses that wait for it with their page fault, and an answer to an earlier
incarnation of the memory die is dropped and counted. A unit that waits for the walk goes on with it, or learns its failure. -/
def Sys2Proof.Claims.WalkSteps : Prop :=
  ∀ (s : Sys2Proof.Machine.State) (n c : Nat) (rest : List Nat) (w : Sys2Proof.Machine.Walk),
    s.walks.get? n = some w →
    (w.box = none → w.answer = none → s.mailbox w.cd w.asid w.page = some c →
      (∀ m ∈ s.walks, m.1 < n → m.2.box ≠ none ∨ m.2.answer ≠ none ∨ m.2.cd ≠ w.cd ∨ m.2.mdie ≠ w.mdie) →
      ∃ t, Sys2Proof.Machine.exec (.mailboxSpacePost n) s = .next t ∧
        t = { s with walks := s.walks.set n { w with box := some c }, mail := s.mail.set c (s.mail.getD c [] ++ [n]) }) ∧
    (s.mail.getD c [] = n :: rest → (s.slot (c * 16 + 15)).use = .rake → (∀ a, s.walk w.cd w.asid w.page ≠ .far a) →
      ∃ t, Sys2Proof.Machine.exec (.rakeWalk c) s = .next t ∧
        t.walks.get? n = some { w with answer := some (s.walk w.cd w.asid w.page) } ∧ t.mail.getD c [] = rest ∧
        t.slots = s.slots ∧ t.mem = s.mem) ∧
    (∀ r, w.answer = some r →
      let missed (t : Sys2Proof.Machine.State) (f : Sys2Proof.Machine.Access → Sys2Proof.Machine.PartState) : Prop :=
        ∀ p, (t.slot p).accs = (s.slot p).accs.map fun a =>
          { a with parts := a.parts.map fun y => if y.st = .walking n then { y with st := f a } else y }
      let units (t : Sys2Proof.Machine.State) (c : Option Nat) : Prop :=
        (∀ u ∈ s.unitWalks, u.walk ≠ n ∨ u.failed ≠ none → u ∈ t.unitWalks) ∧
        (∀ u ∈ s.unitWalks, u.walk = n → u.failed = none → match c with
          | none => u ∉ t.unitWalks
          | some k => { u with failed := some k } ∈ t.unitWalks)
      ∃ t, Sys2Proof.Machine.exec (.walkAnswer n) s = .next t ∧ t.walks = s.walks.del n ∧ t.mem = s.mem ∧
        Sys2Proof.Claims.RegsKept s t ∧
        (w.inc ≠ (s.die w.mdie).incarn → t.tlb = s.tlb ∧ missed t (fun _ => .todo) ∧ units t none ∧
          (t.die w.mdie).stale = Sys2Proof.Machine.satInc (s.die w.mdie).stale) ∧
        (w.inc = (s.die w.mdie).incarn →
          (∀ page log2 frame at_, r = .leaf page log2 frame at_ →
            t.tlb = { mdie := w.mdie, asid := w.asid, page := page, log2 := log2, frame := frame, attr := at_ } :: s.tlb ∧
            missed t (fun _ => .todo) ∧ units t none) ∧
          (r = .notPresent → t.tlb = s.tlb ∧ missed t (fun a => .bad (if a.isLoad then 0x40 else 0x41)) ∧ units t (some 0)) ∧
          (r = .malformed → missed t (fun _ => .bad 0x43) ∧ units t (some 0x43)) ∧
          (r = .invalidContext → missed t (fun _ => .bad 0x46) ∧ units t (some 0x46)) ∧
          (r = .poisoned → missed t (fun _ => .bad 0x45) ∧ units t (some 0x45))))

/-- The walk of a page from a usable context: a present, well-formed entry of the root table names the middle table, an entry of
that one a block of 8,192 pages or the leaf table, and an entry there a page, or a run of 32; an entry that is not present
ends it, and a table word where no memory is, or a malformed one, is malformed. The 32 leaves of a run that keeps the
conditions make one entry from the first leaf's frame on; in a run that breaks them, the page is translated by the leaf of
some page of the run, with its own offset, and in no other way. -/
def Sys2Proof.Claims.WalkResult : Prop :=
  ∀ (s : Sys2Proof.Machine.State) (cd asid page root t k c e0 e1 e2 : Nat) (g : Nat → Nat),
    (s.ctx cd asid = .invalid → s.walk cd asid page = .invalidContext) ∧
    (s.ctx cd asid = .poisoned → s.walk cd asid page = .poisoned) ∧
    (s.ctx cd asid = .ok root t k c →
    let word (a e : Nat) : Prop := s.isMem a = true ∧ s.isFar a = false ∧ s.physPoison a = false ∧ s.physSeen cd a = e
    let sound (level e : Nat) : Prop := e.testBit 0 = true ∧ Sys2Proof.Machine.pteMalformed level e = false
    let base (e : Nat) : Nat := e / 2 ^ 16 % 2 ^ 40 * 2 ^ 16
    let a0 := root + 8 * (page / 2 ^ 26 % 2 ^ 14)
    let a1 := base e0 + 8 * (page / 2 ^ 13 % 2 ^ 13)
    let a2 := base e1 + 8 * (page % 2 ^ 13)
    let run (k : Nat) : Nat := base e1 + 8 * (page % 2 ^ 13 / 32 * 32) + 8 * k
    (s.isMem a0 = false → s.walk cd asid page = .malformed) ∧
    (word a0 e0 → e0.testBit 0 = false → s.walk cd asid page = .notPresent) ∧
    (word a0 e0 → e0.testBit 0 = true → Sys2Proof.Machine.pteMalformed 0 e0 = true → s.walk cd asid page = .malformed) ∧
    (word a0 e0 → sound 0 e0 → word a1 e1 →
      (e1.testBit 0 = false → s.walk cd asid page = .notPresent) ∧
      (sound 1 e1 → e1.testBit 5 = true →
        s.walk cd asid page = .leaf (page / 2 ^ 13 * 2 ^ 13) 13 (base e1) (Sys2Proof.Machine.pteAttr e1)) ∧
      (sound 1 e1 → e1.testBit 5 = false → word a2 e2 →
        (e2.testBit 0 = false → s.walk cd asid page = .notPresent) ∧
        (sound 2 e2 → e2.testBit 6 = false → s.walk cd asid page = .leaf page 0 (base e2) (Sys2Proof.Machine.pteAttr e2)) ∧
        (sound 2 e2 → e2.testBit 6 = true → (∀ k, k < 32 → s.isFar (run k) = false) →
          ((∀ k, k < 32 → word (run k) (g k) ∧ g k % 2 ^ 16 = g 0 % 2 ^ 16 ∧
              g k / 2 ^ 16 % 2 ^ 40 = g 0 / 2 ^ 16 % 2 ^ 40 + k) → g 0 / 2 ^ 16 % 32 = 0 →
            s.walk cd asid page = .leaf (page / 32 * 32) 5 (base (g 0)) (Sys2Proof.Machine.pteAttr e2)) ∧
          (s.walk cd asid page = .leaf (page / 32 * 32) 5 (base e2 / 2 ^ 21 * 2 ^ 21) (Sys2Proof.Machine.pteAttr e2) ∨
            ∃ k e, k < 32 ∧ word (run k) e ∧ sound 2 e ∧ e.testBit 6 = true ∧
              s.walk cd asid page = .leaf page 0 (base e) (Sys2Proof.Machine.pteAttr e))))))

/-- Page walks and their answers: the statements `WalkSteps`, `WalkResult` above. -/
def Obligations.PageWalk : Prop :=
  Sys2Proof.Claims.WalkSteps ∧ Sys2Proof.Claims.WalkResult

/-- A report with a cause is made on a die: it is an entry of the fault queue, or waits behind the others while that is full. -/
def Sys2Proof.Claims.Reported (s t : Sys2Proof.Machine.State) (d cause : Nat) : Prop :=
  ((s.die d).fqFull = false → (s.die d).reports = [] →
    (t.die d).fqTail = (s.die d).fqTail + 1 ∧ (t.die d).reports = []) ∧
  ((s.die d).fqFull = true →
    (t.die d).fqTail = (s.die d).fqTail ∧ ∃ e, e.kind = 3 ∧ e.cause = cause ∧ (t.die d).reports = (s.die d).reports ++ [e])

/-- Such a report with room in the queue is an entry of KIND 3 there, with its cause, and its sequence number in w7, where the
queue's memory is not cached (R360). -/
def Sys2Proof.Claims.ReportEntry (s t : Sys2Proof.Machine.State) (d cause : Nat) : Prop :=
  Sys2Proof.Claims.Reported s t d cause ∧
  let a := (s.die d).fqNext
  let w (k : Nat) : Nat := Sys2Proof.Machine.ofBytes (t.mem.bytes (a + 8 * k) 8)
  ((s.die d).fqFull = false → (s.die d).reports = [] → s.lines = [] → (∀ k, k < 64 → ∃ e, s.phys (a + k) = .dram e) →
    w 0 / 2 ^ 12 % 16 = 3 ∧ w 1 % 256 = cause ∧ w 7 = 2 ^ 63 + (s.die d).fqSeq % 2 ^ 32)

/-- Late outcomes and posted causes at a boundary of a running slot that waits for nothing: the oldest failed access fills its
register with 0 and traps there with its cause and address; with no late outcome ready the oldest posted cause traps with its
ticket; a synchronising load that has waited TIMEOUT cycles is reported once, by an entry of the fault queue with its cause, and goes on
waiting. -/
def Obligations.BoundaryTraps : Prop :=
  ∀ (s : Sys2Proof.Machine.State) (p : Nat),
    let x := s.slot p
    let tv := (s.die (Sys2Proof.Machine.dieOf p)).tvec
    p < 16384 → s.atBoundary p = true → x.use ≠ .skim → x.wait = .none →
    (∀ a c addr (d : Sys2Proof.SReg) signed size, Sys2Proof.Machine.oldest (s.readyOutcomes p) = some (.acc a c addr) →
      a.failed = some c → c ≠ 0x40 → c ≠ 0x41 → c < 256 → a.dst = .s d signed size → d ≠ 0 → s.role p d = .plain →
      ∃ t, Sys2Proof.Machine.exec (.lateOutcomeTaken p) s = .next t ∧ (t.slot p).reg d = 0 ∧ (t.slot p).full d = true ∧
        Sys2Proof.Claims.OthersKept d x (t.slot p) ∧ (t.slot p).cause.toNat = c ∧ (t.slot p).epc = x.pc ∧
        (t.slot p).pc = tv ∧ (t.slot p).priv = 1 ∧ (0x42 ≤ c → c ≤ 0x47 → (t.slot p).tval = BitVec.ofNat 64 addr) ∧
        (∀ b ∈ (t.slot p).accs, b.id ≠ a.id) ∧ (∀ b ∈ x.accs, b.id ≠ a.id → b ∈ (t.slot p).accs) ∧ t.mem = s.mem) ∧
    (∀ c rest, x.posted = c :: rest → s.readyOutcomes p = [] →
      ∃ t, Sys2Proof.Machine.exec (.postedCauseTaken p) s = .next t ∧ (t.slot p).cause = c.cause ∧
        (t.slot p).tval = c.ticket.zeroExtend 64 ∧ (t.slot p).epc = x.pc ∧ (t.slot p).pc = tv ∧ (t.slot p).priv = 1 ∧
        (t.slot p).posted = rest ∧ (t.slot p).s = x.s ∧ (t.slot p).sFull = x.sFull ∧ t.mem = s.mem) ∧
    (∀ id a y rest q, s.acc p id = some a → a.kind = .load q true → a.parts = y :: rest → y.st = .todo →
      a.reported = false → let n := (s.die (Sys2Proof.Machine.dieOf p)).wdog.toNat
      n ≠ 0 → a.since + n ≤ s.now →
      ∃ t b, Sys2Proof.Machine.exec (.syncTimeout p id) s = .next t ∧ t.acc p id = some b ∧ b.reported = true ∧
        b.parts = a.parts ∧ (t.slot p).s = x.s ∧ (t.slot p).sFull = x.sFull ∧
        Sys2Proof.Claims.ReportEntry s t (Sys2Proof.Machine.dieOf p) 0x47 ∧
        Sys2Proof.Machine.exec (.syncTimeout p id) t = .next t)

/-! ### Tile instructions and versions (04, 06) -/

namespace Sys2Proof.Claims
open Sys2Proof.Machine

/-- Sources, destination and handle of a tile instruction (R196 to R202). -/
def tileForm (i : Instr) (s : State) : Option (Form × Word) :=
  match i with
  | .tld a b _ => let q := formR [] a b; some (q, s.sval q 0)
  | .tst a b => let q := formR [] a b; some (q, s.sval q 0)
  | .twait a => let q := formA [] a; some (q, s.sval q 0)
  | .twaitY a => let q := formA [] a; some (q, s.sval q 0)
  | .tdrop a => let q := formA [] a; some (q, s.sval q 0)
  | .tpeek d a b => let q := formR [.fillS d] a b; some (q, s.sval q 0)
  | .thmake d a b => let q := formR [.s d] a b; some (q, s.sval q 0)
  | .tq d a => let q := formA [.fillS d] a; some (q, s.sval q 0)
  | _ => none

/-- No table word that the checks of an instruction read lies in another package's memory without being here. -/
def TablesHere (s : State) (f : Nat → Nat → Nat → List Nat) : Prop :=
  s.farTable (dieOf s.cur) s.me.asid.toNat f = none

/-- The handle names a tile of a tensor whose homes are in this package, and its descriptor is here. -/
def Handle (s : State) (h : Word) : Prop :=
  TablesHere s (fun tdt _ _ => [tdt + 64 * (h.toNat / 2 ^ 52)]) ∧
  ∃ d, s.desc (dieOf s.cur) s.me.asid.toNat (h.toNat / 2 ^ 52) = some d ∧ h.toNat / 2 ^ 24 % 2 ^ 28 < d.tiles ∧ d.pkg = none

/-- The instruction sends a request to the home of its handle and goes on, or waits where PC stays: the request has this kind,
no register is written, and no byte of memory changes. -/
def Asks (i : Instr) (kind : TileKind) (h next : Word) (s : State) (f : State → Prop) : Prop :=
  ∃ t r, exec i s = .next t ∧ t.tiles.get? s.seq = some r ∧ r.kind = kind ∧ r.h = h ∧ r.st = .sent ∧ r.slot = s.cur ∧
    r.tid = s.me.tid ∧ r.asid = s.me.asid.toNat ∧ t.me.pc = next ∧ t.me.s = s.me.s ∧ t.me.v = s.me.v ∧ t.mem = s.mem ∧
    t.lines = s.lines ∧ f t

/-- A request of its kind stands at its home on die `die`, which is in service and in this package. -/
def AtHome (s : State) (die n : Nat) (r : TileReq) : Prop :=
  s.tiles.get? n = some r ∧ r.home.pkg = none ∧ s.homeDie r.home = die ∧ s.up.getLsbD die = true

end Sys2Proof.Claims

/-- Tile instructions that pass their checks: `tld` empties its tile slot and asks for the version, `tst` locks its source and asks
to store it with its reader count, `twait` and `twait.y` wait at their own address for the answer, `tdrop` asks to drop it, `tpeek`
and `tq` empty their register until the answer, and `thmake` advances the version of its handle. That `twait.y` waits in its slot at
PRIV 1 is the model's choice (entry 64). -/
def Sys2Proof.Claims.TileIssue : Prop :=
  ∀ (s : Sys2Proof.Machine.State) (d : Sys2Proof.SReg) (a : Sys2Proof.SSrc) (b : Sys2Proof.SOpd) (peek : Bool),
    Sys2Proof.Claims.Unbroken s →
    let q := Sys2Proof.Machine.formR [] a b
    let qa := Sys2Proof.Machine.formA [] a
    let qp := Sys2Proof.Machine.formR [.fillS d] a b
    let qt := Sys2Proof.Machine.formA [.fillS d] a
    let qm := Sys2Proof.Machine.formR [.s d] a b
    let c (t : Sys2Proof.Machine.State) := t.cluster (Sys2Proof.Machine.clusterOf s.cur)
    let h := s.sval q 0
    let v := (s.bval q 1 .zext b).toNat
    let tile := v / 2 ^ 16 % 2 ^ 11
    let ver := h.toNat % 2 ^ 24
    let next := s.me.pc + (if q.lit then 8 else 4)
    let empties (t : Sys2Proof.Machine.State) : Prop :=
      ∀ r : Sys2Proof.SReg, t.me.full r = (s.me.full r && !(r == d && d != 0))
    Sys2Proof.Claims.Handle s h →
    (Sys2Proof.Claims.Roomy s → s.gateOf s.cur q = .go → (c s).retired.contains tile = false →
      ((c s).tld.has tile = false → (c s).locked tile = false →
        Sys2Proof.Claims.Asks (.tld a b peek) (.load (!peek) tile) h next s fun t =>
          (∀ w, (c t).full w = ((c s).full w && w / 1024 != tile)) ∧ (c t).tld.get? tile = some s.seq) ∧
      (ver ≠ 0 → v % 2 ^ 16 ≠ 0 → s.me.fillsNext tile = false →
        Sys2Proof.Claims.Asks (.tst a b) (.store tile (v % 2 ^ 16)) h next s fun t =>
          (c t).locked tile = true ∧ ∀ w, (c t).full w = (c s).full w)) ∧
    (Sys2Proof.Claims.Roomy s → s.gateOf s.cur qa = .go →
      (s.me.wait = .none →
        Sys2Proof.Claims.Asks (.twait a) .wait h s.me.pc s (fun t => t.me.wait = .tile s.seq) ∧
        Sys2Proof.Claims.Asks (.twaitY a) .waitY h s.me.pc s (fun t => t.me.wait = .tile s.seq)) ∧
      (ver ≠ 0 → Sys2Proof.Claims.Asks (.tdrop a) .drop h (s.me.pc + 4) s fun _ => True)) ∧
    (Sys2Proof.Claims.Roomy s → s.gateOf s.cur qp = .go → v % 2 ^ 10 < 544 →
      Sys2Proof.Claims.Asks (.tpeek d a b) (.peek d (v % 2 ^ 10)) h next s empties) ∧
    (Sys2Proof.Claims.Roomy s → s.gateOf s.cur qt = .go → s.me.det = false →
      Sys2Proof.Claims.Asks (.tq d a) (.query d) h (s.me.pc + 4) s empties) ∧
    (s.gateOf s.cur qm = .go → ver + v < 2 ^ 24 →
      Sys2Proof.Machine.exec (.thmake d a b) s = .next (((s.pops qm).put d (h + BitVec.ofNat 64 v)).retire qm)) ∧
    (∀ n r val e f, s.me.wait = .tile n → s.tiles.get? n = some r → r.st = .answered val e f →
      let done (i : Sys2Proof.Instr) : Prop :=
        ∃ t, Sys2Proof.Machine.exec i s = .next t ∧ t.me.pc = s.me.pc + 4 ∧ t.me.wait = .none ∧ t.tiles.get? n = none ∧
          t.me.s = s.me.s ∧ t.mem = s.mem
      done (.twait a) ∧ done (.twaitY a))

/-- The checks of tile instructions at issue, in order: `tq` of a deterministic launch; an address space without a usable context
entry, a handle without a valid descriptor, and a tile at or above its count, each with the handle; then each instruction's own: a
`tst` of version 0 or with no reader, a `tdrop` of version 0, a `tpeek` of word 544 or more, and a `thmake` past the last version.
That handle as the faulting value of ASID_INVALID and POISON is the model's choice (entry 68). -/
def Sys2Proof.Claims.TileChecks : Prop :=
  ∀ (i : Sys2Proof.Instr) (s : Sys2Proof.Machine.State) (q : Sys2Proof.Machine.Form) (h : Sys2Proof.Word),
    Sys2Proof.Claims.tileForm i s = some (q, h) → s.me.wait = .none → s.gateOf s.cur q = .go →
    let traps (c : Nat) (v : Sys2Proof.Word) : Prop := Sys2Proof.Machine.exec i s = s.trap c v q.lit
    let entry := s.ctx (Sys2Proof.Machine.dieOf s.cur) s.me.asid.toNat
    let desc := s.desc (Sys2Proof.Machine.dieOf s.cur) s.me.asid.toNat (h.toNat / 2 ^ 52)
    let det := match i with | .tq _ _ => s.me.det | _ => false
    let ver := h.toNat % 2 ^ 24
    (det = true → traps 0x21 0) ∧
    (det = false →
      (entry = .invalid → traps 0x46 h) ∧ (entry = .poisoned → traps 0x45 h) ∧
      (∀ r t k c, entry = .ok r t k c →
        (s.isFar (t + 64 * (h.toNat / 2 ^ 52)) = false →
          (desc = none → traps 0x63 h) ∧
          (∀ d, desc = some d → d.tiles ≤ h.toNat / 2 ^ 24 % 2 ^ 28 → traps 0x64 h)) ∧
        (Sys2Proof.Claims.Handle s h →
          (∀ a b, i = .tst a b → (ver = 0 → traps 0x60 h) ∧
            (ver ≠ 0 → (s.bval q 1 .zext b).toNat % 2 ^ 16 = 0 → traps 0x66 h)) ∧
          (∀ a, i = .tdrop a → ver = 0 → traps 0x66 h) ∧
          (∀ d a b, i = .tpeek d a b → 544 ≤ (s.bval q 1 .zext b).toNat % 2 ^ 10 → traps 0x64 h) ∧
          (∀ d a b, i = .thmake d a b → 2 ^ 24 ≤ ver + (s.bval q 1 .zext b).toNat → traps 0x65 h))))

/-- Tile instructions and their checks at issue: the statements `TileIssue`, `TileChecks` above. -/
def Obligations.TileIssue : Prop :=
  Sys2Proof.Claims.TileIssue ∧ Sys2Proof.Claims.TileChecks

/-- A request reaches its home: a version at or below FLOOR answers VERSION_RETIRED, an absent one makes the request a waiter at
the end of its name's list, and a full one is delivered, a consuming load lowering a count above 1; a `tq` is answered at
once with the state and count of its version, the versions present, the waiters and the newest full version (R202). -/
def Sys2Proof.Claims.VersionRequest : Prop :=
  ∀ (s : Sys2Proof.Machine.State) (die n : Nat) (r : Sys2Proof.Machine.TileReq) (m : Sys2Proof.Machine.Name),
    Sys2Proof.Claims.AtHome s die n r → r.st = .sent →
    let key := s.nameKey r
    let ver := r.h.toNat % 2 ^ 24
    s.names.get? key = some m → m.lost = false → ver ≠ 0 →
    let goes (f : Sys2Proof.Machine.State → Prop) : Prop :=
      ∃ t, Sys2Proof.Machine.exec (.versionRequest die n) s = .next t ∧ f t ∧ Sys2Proof.Claims.RegsKept s t
    let st (t : Sys2Proof.Machine.State) : Option Sys2Proof.Machine.TileState := (t.tiles.get? n).map (·.st)
    (∀ d, r.kind = .query d → m.slots.length ≤ 8 → (∀ e ∈ m.slots, e.2.version < 2 ^ 24 ∧ e.2.count < 2 ^ 16) →
      goes fun t => ∃ v : Sys2Proof.Word, st t = some (.answered v [] []) ∧ t.names = s.names ∧
        v.toNat % 2 ^ 2 = (if ver ≤ m.floor then 3 else match m.find ver with
          | some (_, x) => if x.full then 2 else 1
          | none => 0) ∧
        v.toNat / 2 ^ 2 % 2 ^ 14 = 0 ∧
        v.toNat / 2 ^ 48 = (match m.find ver with
          | some (_, x) => if x.full then x.count else 0
          | none => 0) ∧
        v.toNat / 2 ^ 44 % 2 ^ 4 = m.slots.length ∧
        v.toNat / 2 ^ 40 % 2 ^ 4 = Nat.min 15 (m.waiters.filter fun w => w.1 == ver).length ∧
        (∀ e ∈ m.slots, e.2.full = true → e.2.version ≤ v.toNat / 2 ^ 16 % 2 ^ 24) ∧
        (v.toNat / 2 ^ 16 % 2 ^ 24 = 0 ∨ ∃ e ∈ m.slots, e.2.full = true ∧ e.2.version = v.toNat / 2 ^ 16 % 2 ^ 24)) ∧
    (∀ c k, r.kind = .load c k →
      (ver ≤ m.floor → goes fun t => st t = some (.bad 0x61 0) ∧ t.names = s.names) ∧
      (m.floor < ver → m.find ver = none → goes fun t => st t = some .queued ∧
        ∃ m', t.names.get? key = some m' ∧ m'.waiters = m.waiters ++ [(ver, n)] ∧ m'.slots = m.slots) ∧
      (∀ j v, m.floor < ver → m.find ver = some (j, v) → m.slots.get? j = some v → v.full = true → v.poison = false → v.loc < 2 →
        2 ≤ v.count → v.count ≠ 0xFFFF → goes fun t =>
        st t = some (.delivering v.data (List.range 1024)) ∧
        ∃ m' v', t.names.get? key = some m' ∧ m'.slots.get? j = some v' ∧ v'.full = true ∧ v'.data = v.data ∧
          v'.count = (if c then v.count - 1 else v.count))) ∧
    (r.kind = .wait → ∀ j v, m.floor < ver → m.find ver = some (j, v) → m.slots.get? j = some v → v.full = true → goes fun t =>
      ∃ e f, st t = some (.answered 0 e f))

/-- A store reaches its home: with its version above FLOOR and absent, a free slot of the name and a free frame, and no store
before it, it reserves the version with its reader count; a version that exists answers VERSION_EXISTS and creates none. When
the source is ready the copy makes the version full with its 4,096 bytes, and the request is over. -/
def Obligations.VersionStore : Prop :=
  ∀ (s : Sys2Proof.Machine.State) (die n pick k count : Nat) (r : Sys2Proof.Machine.TileReq) (m : Sys2Proof.Machine.Name),
    Sys2Proof.Claims.AtHome s die n r → r.kind = .store k count →
    let key := s.nameKey r
    let ver := r.h.toNat % 2 ^ 24
    s.names.get? key = some m → m.lost = false →
    (r.st = .sent → m.stores = [] → m.slots.length < 8 →
      (ver ≤ m.floor ∨ (m.find ver).isSome = true →
        ∃ t, Sys2Proof.Machine.exec (.versionStoreRequest die n pick) s = .next t ∧
          (t.tiles.get? n).map (·.st) = some (.bad 0x60 0) ∧
          (∃ m', t.names.get? key = some m' ∧ m'.slots = m.slots) ∧
          (t.cluster (Sys2Proof.Machine.clusterOf r.slot)).locks =
            (s.cluster (Sys2Proof.Machine.clusterOf r.slot)).locks.erase k) ∧
      (m.floor < ver → m.find ver = none → (s.placeVersion die m.slice pick).isSome = true →
        ∃ t m' j v, Sys2Proof.Machine.exec (.versionStoreRequest die n pick) s = .next t ∧
          (t.tiles.get? n).map (·.st) = some .copying ∧ t.names.get? key = some m' ∧ m'.slots.get? j = some v ∧
          v.version = ver ∧ v.full = false ∧ v.count = count ∧ Sys2Proof.Claims.RegsKept s t)) ∧
    (∀ d b j v, r.st = .copying → s.storeSource n r = some (d, b, false) → m.find ver = some (j, v) → v.loc < 2 →
      m.waiters = [] →
      ∃ t m' v', Sys2Proof.Machine.exec (.versionCopyDone die n) s = .next t ∧ t.tiles.get? n = none ∧
        t.names.get? key = some m' ∧ m'.slots.get? j = some v' ∧ v'.full = true ∧ v'.version = v.version ∧ v'.data = d ∧
        v'.side = b ∧ v'.poison = false ∧ v'.count = v.count ∧ Sys2Proof.Claims.RegsKept s t)

/-- Answers on their way back: a word of a delivery reaches its tile slot and becomes full, and the last one takes the mark of
its own `tld` off the tile slot; an arrival notice answers the request that rides on it, or is dropped and counted where it names
another incarnation of its die; the answer of a `tpeek` fills its register; a wait of TIMEOUT cycles is reported once. -/
def Sys2Proof.Claims.VersionAnswers : Prop :=
  ∀ (s : Sys2Proof.Machine.State) (n : Nat) (r : Sys2Proof.Machine.TileReq),
    s.tiles.get? n = some r →
    let cl := Sys2Proof.Machine.clusterOf r.slot
    (∀ c k d left w, r.kind = .load c k → r.st = .delivering d left → w ∈ left → w < 1024 →
      ∃ t, Sys2Proof.Machine.exec (.tileDelivery n w) s = .next t ∧
        (t.cluster cl).spWord (1024 * k + w) =
          BitVec.ofNat 32 (Sys2Proof.Machine.ofBytes (Sys2Proof.Claims.cut d (4 * w) 4)) ∧
        (t.cluster cl).full (1024 * k + w) = true ∧
        (∀ i, i ≠ 1024 * k + w → (t.cluster cl).spWord i = (s.cluster cl).spWord i ∧ (t.cluster cl).full i = (s.cluster cl).full i) ∧
        (left.filter (· != w) = [] → t.tiles.get? n = none ∧
          (t.cluster cl).tld = (s.cluster cl).tld.filter fun e => e != (k, n)) ∧
        (left.filter (· != w) ≠ [] → (t.tiles.get? n).map (·.st) = some (.delivering d (left.filter (· != w))) ∧
          (t.cluster cl).tld = (s.cluster cl).tld) ∧
        t.slots = s.slots ∧ t.mem = s.mem) ∧
    (∀ e die m v b f, s.notices.get? e = some m → m.die = die → m.ids = [n] →
      (m.inc = (s.die die).incarn → r.kind = .wait → r.st = .noticed v b f →
        ∃ t, Sys2Proof.Machine.exec (.arrivalNotice die e) s = .next t ∧ t.notices.get? e = none ∧
          (t.tiles.get? n).map (·.st) = some (.answered v b f) ∧ t.slots = s.slots ∧ t.mem = s.mem) ∧
      (m.inc ≠ (s.die die).incarn → (∀ z ∈ s.tiles, z.1 = n → z.2 = r) →
        ∃ t, Sys2Proof.Machine.exec (.arrivalNotice die e) s = .next t ∧ t.notices.get? e = none ∧
          ((∃ v b f, r.st = .noticed v b f) → Sys2Proof.Machine.dieOf r.slot = die → r.inc = m.inc → t.tiles.get? n = none) ∧
          ((∀ v b f, r.st ≠ .noticed v b f) → t.tiles.get? n = some r) ∧
          (t.die die).stale = Sys2Proof.Machine.satInc (s.die die).stale ∧ t.slots = s.slots ∧ t.mem = s.mem)) ∧
    (∀ (d : Sys2Proof.SReg) i v b f p part, r.kind = .peek d i → r.st = .answered v b f → s.findTask r.tid = some p → p < 16384 →
      d ≠ 0 → s.role p d = .plain →
      ∃ t, Sys2Proof.Machine.exec (.fillLand p n part) s = .next t ∧ (t.slot p).reg d = v ∧ (t.slot p).full d = true ∧
        Sys2Proof.Claims.OthersKept d (s.slot p) (t.slot p) ∧ t.tiles.get? n = none ∧ t.mem = s.mem) ∧
    (∀ p, let limit := (s.die (Sys2Proof.Machine.dieOf r.slot)).wdog.toNat
      r.st = .queued → r.ofTask = true ∨ r.ofEngine = true → r.reported = false → limit ≠ 0 → r.since + limit ≤ s.now →
      s.findTask r.tid = some p → p < 16384 → (∀ d, r.kind ≠ .query d) →
      (∀ m ∈ s.held, ¬ ((m.typ = 0x01 ∨ m.typ = 0x04) ∧ m.tag = n % 2 ^ 32)) →
      ∃ t, Sys2Proof.Machine.exec (.versionWaitTimeout n) s = .next t ∧ t.tiles.get? n = some { r with reported := true } ∧
        Sys2Proof.Claims.ReportEntry s t (Sys2Proof.Machine.dieOf p) 0x62 ∧ t.slots = s.slots)

/-- Requests at version homes and their answers: the statements `VersionRequest`, `VersionAnswers` above. -/
def Obligations.VersionHome : Prop :=
  Sys2Proof.Claims.VersionRequest ∧ Sys2Proof.Claims.VersionAnswers

/-! ### Tasks, records and launches (10, 11) -/

namespace Sys2Proof.Claims
open Sys2Proof.Machine

/-- The record that the program of a slot creates from a selector (R212, R213): its path is the child path of the slot's next
spawn index, its class, priority, affinity and entry are the selector's, and it counts as one fold. -/
def FromProgram (s : State) (r : Rec) (key sel : Word) : Prop :=
  r.key = key ∧ r.path = childpath s.me.path s.me.idx ∧ r.folds = 1 ∧ r.sealed = false ∧ r.lr = false ∧
  r.entry = sel.toNat % 2 ^ 16 ∧ r.cls = sel.toNat / 2 ^ 16 % 2 ^ 6 ∧ r.prio = sel.toNat / 2 ^ 22 % 2 ^ 2 ∧
  r.asid = s.me.asid.toNat ∧ r.lnch = s.me.lnch ∧ r.det = s.me.det

/-- A record starts on its way to the pan of a die, the spawn index is consumed, and the slot goes on. -/
def Posts (i : Instr) (q : Form) (s : State) (f : RecMsg → Prop) : Prop :=
  ∃ t m, exec i s = .next t ∧ t.recs.get? s.seq = some m ∧ f m ∧ m.slot = s.cur ∧ m.tid = s.me.tid ∧
    t.me.idx = s.me.idx + 1 ∧ t.me.pc = s.me.pc + (if q.lit then 8 else 4) ∧ t.me.s = s.me.s ∧ t.me.v = s.me.v ∧
    t.mem = s.mem ∧ t.dies = (s.count (dieOf s.cur) 0x01 1).dies

/-- The class entry that a selector names is here. -/
def ClassHere (s : State) (sel : Word) : Prop := TablesHere s (fun _ _ t => [t + 16 * (sel.toNat / 2 ^ 16 % 2 ^ 6)])

/-- The class of a selector is valid, as the issuing slot's die reads it. -/
def ClassOf (s : State) (sel : Word) (c : Cls) : Prop :=
  ClassHere s sel ∧ s.cls (dieOf s.cur) s.me.asid.toNat (sel.toNat / 2 ^ 16 % 2 ^ 6) = some c

/-- The checks of an instruction that names a class, all with the key as faulting value: a context entry that is invalid or poisoned,
an invalid class, and, where it `selects` a die, a class that depends on order in a deterministic launch and a reserved
affinity. -/
def ClassTraps (i : Instr) (q : Form) (key sel : Word) (selects : Bool) (s : State) : Prop :=
  let traps (c : Nat) : Prop := exec i s = s.trap c key q.lit
  let entry := s.ctx (dieOf s.cur) s.me.asid.toNat
  let aff := sel.toNat / 2 ^ 24 % 2 ^ 4
  (entry = .invalid → traps 0x46) ∧ (entry = .poisoned → traps 0x45) ∧
  (∀ r t k c, entry = .ok r t k c → ClassHere s sel →
    (s.cls (dieOf s.cur) s.me.asid.toNat (sel.toNat / 2 ^ 16 % 2 ^ 6) = none → traps 0x82) ∧
    (∀ c, ClassOf s sel c → selects = true →
      (s.me.det = true → c.independent = false → traps 0x23) ∧
      ((s.me.det = true → c.independent = true) → 8 ≤ aff → aff ≤ 0xD → traps 0x02)))

/-- The die that an affinity names for a record created on a die (R309). -/
def AffinityDie (s : State) (aff d : Nat) (key : Word) (e : Nat) : Prop :=
  if aff < 8 ∧ s.up.getLsbD aff = true then e = aff else if aff = 0xF then e = d else e = s.keyDie key

/-- Nothing of the slot's task is outstanding, and its engines have no command. -/
def Finished (s : State) : Prop :=
  s.quietTask s.cur = true ∧ s.me.use = .task ∧ ∀ e ∈ engines, (s.me.engine e).queue = []

end Sys2Proof.Claims

/-- `spawn`, `spawnk` and `callr` that pass their checks post the record of R212 and R213 with their arguments, to the die of the
affinity, or to the key-hash die in a deterministic launch, and consume the spawn index; `callr` empties its register, and its
record does not fold and carries a token. The class of `spawn`, `spawnk`, `callr` and `reap` is checked first, and `spawn` with
more append words than its class has traps; the key is the faulting value, which for a context entry that cannot be used is the
model's choice (entry 68). `launch` reads its record once the slot's earlier stores to it are performed; of a
valid one it takes a free control block and posts the launch's own record, and it waits where none is free. -/
def Sys2Proof.Claims.SpawnResult : Prop :=
  ∀ (s : Sys2Proof.Machine.State) (a : Sys2Proof.SSrc) (b : Sys2Proof.SOpd) (d : Sys2Proof.SReg),
    Sys2Proof.Claims.Unbroken s →
    let args : List Sys2Proof.Machine.Ref := (List.range 8).map fun j => .s (Fin.ofNat 64 (3 + j)) false
    let qs : Sys2Proof.Machine.Form :=
      { srcs := .s a.reg a.wait :: Sys2Proof.Machine.brefS b ++ args, dsts := [], lit := Sys2Proof.Machine.isLit b }
    let qk := Sys2Proof.Machine.formR [] a b
    let qc := { qs with dsts := [.fillS d] }
    let n := (Sys2Proof.Machine.brefS b).length + 1
    let dd := Sys2Proof.Machine.dieOf s.cur
    let sel := s.bval qs 1 .zext b
    let key := s.sval qs 0
    let aff := sel.toNat / 2 ^ 24 % 2 ^ 4
    let acnt := sel.toNat / 2 ^ 32 % 2 ^ 5
    let goes (m : Sys2Proof.Machine.RecMsg) (f : Nat) : Prop :=
      if s.me.det then m.die = s.keyDie key else Sys2Proof.Claims.AffinityDie s f dd key m.die
    (∀ c, Sys2Proof.Claims.ClassOf s sel c → (s.me.det = true → c.independent = true) → ¬ (8 ≤ aff ∧ aff ≤ 0xD) →
      (s.gateOf s.cur qs = .go → acnt = 0 ∨ (c.run < 8 ∧ acnt ≤ c.area) →
        Sys2Proof.Claims.Posts (.spawn a b) qs s fun m =>
          Sys2Proof.Claims.FromProgram s m.r key sel ∧ m.r.acnt = acnt ∧ m.r.nf = false ∧ m.r.token = 0 ∧ goes m aff ∧
          ∀ j : Fin 8, m.r.payload[j] = s.sval qs (n + j.val)) ∧
      (s.gateOf s.cur qk = .go →
        Sys2Proof.Claims.Posts (.spawnk a b) qk s fun m =>
          Sys2Proof.Claims.FromProgram s m.r key sel ∧ m.r.acnt = 0 ∧ m.r.nf = false ∧ m.r.token = 0 ∧ goes m aff ∧
          m.r.payload.toList = [1, 0, 0, 0, 0, 0, 0, 0])) ∧
    (∀ c, Sys2Proof.Claims.ClassOf s sel c → s.gateOf s.cur qc = .go → s.cur < 16384 →
      Sys2Proof.Claims.Posts (.callr d a b) qc s fun m =>
        Sys2Proof.Claims.FromProgram s m.r key sel ∧ m.r.nf = true ∧ m.r.token.getLsbD 63 = true ∧ m.dst = some d ∧
        goes m 0xE ∧ ∀ j : Fin 8, m.r.payload[j] = s.sval qs (n + j.val)) ∧
    (let qr (v : Sys2Proof.VReg) := Sys2Proof.Machine.formR [.v v] a b
      let checks := Sys2Proof.Claims.ClassTraps
      (s.gateOf s.cur qs = .go → checks (.spawn a b) qs key sel true s ∧
        (∀ c, Sys2Proof.Claims.ClassOf s sel c → (s.me.det = true → c.independent = true) → ¬ (8 ≤ aff ∧ aff ≤ 0xD) → acnt ≠ 0 →
          c.run = 8 ∨ c.area < acnt → Sys2Proof.Machine.exec (.spawn a b) s = s.trap 0x82 key qs.lit)) ∧
      (s.gateOf s.cur qk = .go → checks (.spawnk a b) qk key sel true s) ∧
      (s.gateOf s.cur qc = .go → checks (.callr d a b) qc key sel false s) ∧
      (∀ v, s.gateOf s.cur (qr v) = .go → checks (.reap v a b) (qr v) key sel true s)) ∧
    (let qa := Sys2Proof.Machine.formA [] a
      let need : Sys2Proof.Machine.Need := { r := true, u := s.me.priv == 0 }
      let asid := s.me.asid.toNat
      let x := s.sval qa 0
      let reads (t : Sys2Proof.Machine.State) (o : Nat) := t.cohRead (.slot s.cur) dd asid (x.toNat + o) 64 need
      s.gateOf s.cur qa = .go → Sys2Proof.Claims.InContext s → x.toNat < 2 ^ 56 → x.toNat % 64 = 0 →
      (s.inOrder (s.readAccess x.toNat 128) = false → Sys2Proof.Machine.exec (.launch a) s = .next s) ∧
      (s.inOrder (s.readAccess x.toNat 128) = true →
        (∀ u c, reads s 0 = (u, .error c) →
          (c = 1 → Sys2Proof.Machine.exec (.launch a) s = .next u) ∧
          (1 < c → Sys2Proof.Machine.exec (.launch a) s = u.trap c x false)) ∧
        (∀ w u v b0 b1, reads s 0 = (u, .ok b0) → reads u 64 = (v, .ok b1) →
          (∀ i : Fin 16, w[i] = BitVec.ofNat 64 (Sys2Proof.Machine.ofBytes (Sys2Proof.Claims.cut (b0 ++ b1) (8 * i.val) 8))) →
          let block := v.freeBlock (v.affDie (w[0].toNat / 2 ^ 24 % 2 ^ 4) dd w[1])
          v.farTable dd asid (Sys2Proof.Machine.launchTables w) = none →
          (v.launchOk dd asid w = false → Sys2Proof.Machine.exec (.launch a) s = v.trap 0x88 x false) ∧
          (v.launchOk dd asid w = true → block = none → Sys2Proof.Machine.exec (.launch a) s = .next v) ∧
          (∀ cb, v.launchOk dd asid w = true → block = some cb →
            ∃ t l m, Sys2Proof.Machine.exec (.launch a) s = .next t ∧ t.launches.get? cb = some l ∧ l.words = w ∧ l.asid = asid ∧
              l.started = false ∧ t.recs.get? v.seq = some m ∧ m.r.lr = true ∧ m.r.lnch = cb ∧ m.r.key = w[1] ∧
              t.me.idx = s.me.idx + 1 ∧ t.me.pc = s.me.pc + 4 ∧ t.me.s = s.me.s ∧ t.mem = s.mem))))

/-- Other task and channel instructions: `rec.ld` reads KEY, PATH, header or spawn index, and traps above 3; `path` gives the path
of the spawn index and its operand; `reap` takes the oldest record that it may, into every lane; `reply` sends its value under the
task's token and ends the task as `texit` does, which frees the slot; `yield` of a task that has no crew, or is the last live member
of its crew, leaves the slot and re-queues it, and where other members live only PC advances, as in the model it does above PRIV 0
and in a slot without a control block (entry 64); `chan.cfg` configures a channel whose ends are two slots, the issuing one among
them, and clears both ends' registers; its release frees the issuing slot's end. The layout of a token is the model's choice (entry
36), and what `texit` and `reply` wait for beyond R179 its reading (entry 34). -/
def Sys2Proof.Claims.TaskResult : Prop :=
  ∀ (s : Sys2Proof.Machine.State) (d : Sys2Proof.SReg) (v : Sys2Proof.VReg) (a : Sys2Proof.SSrc) (b : Sys2Proof.SOpd),
    Sys2Proof.Claims.Unbroken s →
    let qd := Sys2Proof.Machine.formB [.s d] b
    let qv := Sys2Proof.Machine.formR [.v v] a b
    let qa := Sys2Proof.Machine.formA [] a
    let dd := Sys2Proof.Machine.dieOf s.cur
    let core := Sys2Proof.Machine.coreOf s.cur
    let k := (s.bval qd 0 .zext b).toNat
    let free (t : Sys2Proof.Machine.State) : Prop :=
      (t.slot s.cur).use = .free ∧ (t.slot s.cur).accs = [] ∧ (t.slot s.cur).crew = false
    let alone : Prop := s.me.crew = false ∨ s.liveMembers (s.crewKey s.cur) ≤ 1
    (s.gateOf s.cur qd = .go →
      (k ≤ 3 → Sys2Proof.Claims.Writes (.recLd d b) qd d
        (if k = 0 then s.me.key else if k = 1 then s.me.path else if k = 2 then s.me.hdr else s.me.idx) s) ∧
      Sys2Proof.Claims.Writes (.path d b) qd d (Sys2Proof.Machine.childpath s.me.path (s.me.idx + s.bval qd 0 .zext b)) s ∧
      (3 < k → Sys2Proof.Machine.exec (.recLd d b) s = s.trap 0x02 (Sys2Proof.Machine.wordOf (.recLd d b)) qd.lit)) ∧
    (let sel := s.bval qv 1 .zext b
      let key := s.sval qv 0
      let aff := sel.toNat / 2 ^ 24 % 2 ^ 4
      ∀ c, s.gateOf s.cur qv = .go → Sys2Proof.Claims.ClassOf s sel c → (s.me.det = true → c.independent = true) →
      ¬ (8 ≤ aff ∧ aff ≤ 0xD) → ∀ e, (if s.me.det then e = s.keyDie key else Sys2Proof.Claims.AffinityDie s aff dd key e) →
      (∀ r, s.reapable e s.me.asid.toNat (sel.toNat / 2 ^ 16 % 2 ^ 6) key c.gate = some r →
        ∃ t, Sys2Proof.Machine.exec (.reap v a b) s = .next t ∧ t.me.vFull.getLsbD v.val = true ∧
          (∀ i : Fin 8, t.me.v[v].extractLsb' (64 * i.val) 64 = r.payload[i]) ∧
          (t.die e).pan = (s.die e).pan.filter (fun y => y.stamp != r.stamp) ∧ t.me.s = s.me.s ∧
          t.me.pc = s.me.pc + (if qv.lit then 8 else 4)) ∧
      (s.reapable e s.me.asid.toNat (sel.toNat / 2 ^ 16 % 2 ^ 6) key c.gate = none →
        Sys2Proof.Machine.exec (.reap v a b) s = .next s)) ∧
    (Sys2Proof.Claims.Finished s → ∃ t, Sys2Proof.Machine.exec .texit s = .next t ∧ free t) ∧
    (s.quietTask s.cur = false → s.me.laterHeld = 0 → Sys2Proof.Machine.exec .texit s = .next s) ∧
    (s.quietTask s.cur = false → s.me.laterHeld ≠ 0 →
      Sys2Proof.Machine.exec .texit s = .next (s.modMe fun x => { x with laterHeld := 0 })) ∧
    (s.gateOf s.cur qa = .go → s.me.replied = false →
      (s.me.token = 0 → Sys2Proof.Machine.exec (.reply a) s = s.trap 0x87 s.me.key false) ∧
      (s.me.token ≠ 0 → s.fenced s.cur (2 ^ (s.me.token.toNat / 2 ^ 38 % 2 ^ 3)) = true → Sys2Proof.Claims.Finished s →
        ∃ t, Sys2Proof.Machine.exec (.reply a) s = .next t ∧ free t ∧
          t.replies.get? s.seq = some { token := s.me.token, val := s.sval qa 0 })) ∧
    ((s.me.use ≠ .task ∨ s.me.priv ≠ 0 ∨ ¬ alone → Sys2Proof.Machine.exec .yield s = .next (s.retire (Sys2Proof.Machine.form0 []))) ∧
      (s.me.use = .task → s.me.priv = 0 → alone → s.canLeave s.cur = false → Sys2Proof.Machine.exec .yield s = .next s) ∧
      (s.me.use = .task → s.me.priv = 0 → alone → s.canLeave s.cur = true →
      ∃ t u n m, Sys2Proof.Machine.exec .yield s = .next t ∧ (t.slot s.cur).use = .free ∧
        t.saved.get? s.me.block = some u ∧ t.recs.get? n = some m ∧ m.r.resume = some s.me.block)) ∧
    (let x := (s.sval qa 0).toNat
      let n : Fin 4 := Fin.ofNat 4 x
      let w := x / 2 ^ 2 % 2 ^ 4
      let r := x / 2 ^ 6 % 2 ^ 4
      let bad : Prop := (s.cur % 16 ≠ w ∧ s.cur % 16 ≠ r) ∨ w = r ∨ w = 15 ∨ r = 15
      s.gateOf s.cur qa = .go →
      (bad → Sys2Proof.Machine.exec (.chanCfg a) s = s.trap 0x0A (BitVec.ofNat 64 n.val) false) ∧
      (¬ bad → (s.chan core n).en = true → (s.chan core n).wslot.toNat ≠ w ∨ (s.chan core n).rslot.toNat ≠ r →
        Sys2Proof.Machine.exec (.chanCfg a) s = s.trap 0x0A (BitVec.ofNat 64 n.val) false) ∧
      (¬ bad → (s.chan core n).en = false → s.role s.cur a.reg = .plain →
        ∃ t, Sys2Proof.Machine.exec (.chanCfg a) s = .next t ∧ (t.chan core n).en = true ∧ (t.chan core n).wslot.toNat = w ∧
          (t.chan core n).rslot.toNat = r ∧ (t.chan core n).fifo = [] ∧ t.me.pc = s.me.pc + 4 ∧
          (∀ z : Sys2Proof.SReg, z.val = 60 + n.val →
            (t.slot (core * 16 + w)).reg z = 0 ∧ (t.slot (core * 16 + r)).reg z = 0) ∧
          (∀ y : Fin 4, y ≠ n → t.chan core y = s.chan core y) ∧ t.mem = s.mem) ∧
      ((s.chan core n).endAt (s.cur % 16) = false →
        Sys2Proof.Machine.exec (.chanCfgRel a) s = s.trap 0x0A (BitVec.ofNat 64 n.val) false) ∧
      ((s.chan core n).endAt (s.cur % 16) = true → (s.chan core n).wslot ≠ (s.chan core n).rslot → s.role s.cur a.reg = .plain →
        ∃ t, Sys2Proof.Machine.exec (.chanCfgRel a) s = .next t ∧ (t.chan core n).endAt (s.cur % 16) = false ∧
          t.me.pc = s.me.pc + 4 ∧ (∀ z : Sys2Proof.SReg, z.val = 60 + n.val → t.me.full z = true ∧ t.me.reg z = 0) ∧
          t.mem = s.mem))

/-- Instructions that create records, and other task and channel instructions: the statements `SpawnResult`, `TaskResult` above. -/
def Obligations.TaskResult : Prop :=
  Sys2Proof.Claims.SpawnResult ∧ Sys2Proof.Claims.TaskResult

/-- Records on their way and in a pan. A record that folds with none, with room in its bank, joins its die's pan with the next
STAMP; one that matches a waiting record of a class without an append area folds into it, word by word. A bank with room takes back
its earliest spilled record. A reply fills its caller's register, and is dropped and counted where it names an earlier incarnation.
A die with a free place that none of its dispatchable records could use asks the others for a record, and one with two to spare
sends its last, sealed. The layout of the reply's token is the model's choice (entry 36). -/
def Sys2Proof.Claims.RecordSteps : Prop :=
  ∀ (s : Sys2Proof.Machine.State) (die n : Nat),
    let P (t : Sys2Proof.Machine.State) := (t.die die).pan
    let x := s.die die
    (∀ m, s.recs.get? n = some m → m.die = die → s.up.getLsbD die = true → m.free = true → m.r.resume = none → m.r.det = false →
      (∀ z ∈ s.recs, z.1 < n → z.2.precedes m = false) →
      (∀ r ∈ x.pan, r.det = false) →
      ((s.cls die m.r.asid m.r.cls = none ∨ m.r.nf = true ∨ m.r.sealed = true) → x.place m.r = some none →
        ∃ t, Sys2Proof.Machine.exec (.recordArrival die n) s = .next t ∧ t.recs.get? n = none ∧
          P t = x.pan ++ [{ m.r with stamp := x.enq, spill := none }] ∧
          (t.die die).enq = (x.enq + 1) % 2 ^ 64 ∧ t.slots = s.slots) ∧
      (∀ c w, s.cls die m.r.asid m.r.cls = some c → c.run = 8 → m.r.nf = false → m.r.sealed = false → m.r.lr = false → w ∈ x.pan →
        w.sealed = false → w.spill = none → w.nf = false → w.key = m.r.key → w.cls = m.r.cls → w.asid = m.r.asid →
        (∀ y ∈ x.pan, y.sealed = false → m.r.matches' y = true → y = w) → (∀ y ∈ x.pan, y.stamp = w.stamp → y = w) →
        ∃ t, Sys2Proof.Machine.exec (.recordArrival die n) s = .next t ∧ t.recs.get? n = none ∧
          (P t).length = x.pan.length ∧
          (∃ f ∈ P t, f.stamp = w.stamp ∧ f.folds = Nat.min (w.folds + 1) 0xFFFF ∧
            f.path = (if m.r.path.toNat < w.path.toNat then m.r.path else w.path) ∧
            ∀ i : Fin 8, f.payload[i] = Sys2Proof.Machine.foldWord (c.ops.getD i.val 0) w.payload[i] m.r.payload[i]) ∧
          (∀ y ∈ x.pan, y ≠ w → y ∈ P t))) ∧
    (∀ r, x.pan = [r] → r.spill.isSome = true → r.det = false →
      ∃ t, Sys2Proof.Machine.exec (.panOverflowReturn die) s = .next t ∧ P t = [{ r with spill := none }]) ∧
    (∀ r p, s.replies.get? n = some r →
      let e := r.token.toNat / 2 ^ 38 % 2 ^ 3
      let d : Sys2Proof.SReg := Fin.ofNat 64 (r.token.toNat / 2 ^ 41 % 2 ^ 6)
      (r.token.toNat / 2 ^ 47 % 2 ^ 16 ≠ (s.die e).incarn.toNat →
        ∃ t, Sys2Proof.Machine.exec (.replyDelivery n) s = .next t ∧ t.replies.get? n = none ∧
          (t.die e).stale = Sys2Proof.Machine.satInc (s.die e).stale ∧ t.slots = s.slots) ∧
      (r.token.toNat / 2 ^ 47 % 2 ^ 16 = (s.die e).incarn.toNat → s.slots = [(p, s.slot p)] → p < 16384 →
        (s.slot p).live = true → p / 2048 = e → (s.slot p).tid % 2 ^ 38 = r.token.toNat % 2 ^ 38 → d ≠ 0 →
        s.role p d = .plain →
        ∃ t, Sys2Proof.Machine.exec (.replyDelivery n) s = .next t ∧ t.replies.get? n = none ∧ (t.slot p).reg d = r.val ∧
          (t.slot p).full d = true ∧ Sys2Proof.Claims.OthersKept d (s.slot p) (t.slot p) ∧ t.mem = s.mem)) ∧
    ((∃ p ∈ s.usableSlots die [] 0 14 none, ∀ r ∈ s.selection die, s.couldUse die p r = false) → x.steal = [] →
      s.up.getLsbD die = true →
      ∃ t, Sys2Proof.Machine.exec (.idleDieSteal die) s = .next t ∧ (t.die die).steal.length = 7 ∧ t.slots = s.slots ∧
        t.mem = s.mem) ∧
    (∀ v rest y z r, x.steal = v :: rest → s.up.getLsbD v = true → v ≠ die →
      (s.selection v).filter (s.stealable v) = y ++ [z, r] →
      ∃ t m k, Sys2Proof.Machine.exec (.stealRequest die) s = .next t ∧ t.recs.get? k = some m ∧ m.die = die ∧ m.r = { r with sealed := true } ∧
        (t.die die).steal = [] ∧ (∀ w ∈ (t.die v).pan, w.stamp ≠ r.stamp) ∧ t.slots = s.slots)

/-- The scheduler and launches. The first record in selection order that finds a place starts as a task there, with the
registers, PC, key, path and mode of a new task and every register full; one that names no valid descriptor is removed and
reported, and its caller answered with 0x88; a launch's own record starts the launch. A started launch adds its next task
record to a pan, posts the dependant record of the lowest instance whose tasks have ended, and frees its control block once
every part has ended, with its notice written, or reported where its page was refused. A dependant record whose affinity is 0xF
goes to the die of the launch's control block, which is the model's choice (entry 66). -/
def Sys2Proof.Claims.Scheduling : Prop :=
  ∀ (s : Sys2Proof.Machine.State) (die n : Nat),
    let ready : Prop := (s.die die).poolBase ≠ 0 ∧ (s.die die).quiet = false ∧ s.up.getLsbD die = true
    (∀ r rest, ready → s.selection die = r :: rest → r.lr = false → r.resume = none → r.asid ≠ 0 →
      ∀ k p ps b, s.kernel die r.asid r.entry = some k → k.skim = false → k.crewM1 = 0 →
      s.usableSlots die [] k.slo k.shi r.dom = p :: ps → s.freeBlocks die 1 [] = some [b] →
      ∃ t, Sys2Proof.Machine.exec (.dispatch die) s = .next t ∧
        (let y := t.slot p
         y.use = .task ∧ y.pc = BitVec.ofNat 64 k.pc ∧ y.rm = BitVec.ofNat 3 k.rm ∧ y.path = r.path ∧ y.priv = 0 ∧
         y.flags = 0 ∧ y.ten = 0 ∧ y.idx = 0 ∧ y.sFull = BitVec.allOnes 64 ∧ y.vFull = BitVec.allOnes 32 ∧
         (∀ i, i < 64 → y.s.toList.getD i 0 =
            if i = 2 then BitVec.ofNat 64 (b + 0x2000 + 64 * k.stk)
            else if 3 ≤ i ∧ i < 11 then r.payload.toList.getD (i - 3) 0 else 0) ∧
         (∀ v : Sys2Proof.VReg, y.v[v] = 0) ∧ (∀ g : Sys2Proof.GReg, g ≠ 0 → y.guard g = .unresolved)) ∧
        (r.dev = false → (t.slot p).key = r.key) ∧ (∀ q, q ≠ p → t.slot q = s.slot q) ∧
        (∀ w ∈ (t.die die).pan, w.stamp ≠ r.stamp)) ∧
    (∀ r rest, ready → s.selection die = r :: rest → r.lr = false → r.resume = none → s.recKernel die r = none →
      (s.die die).fqFull = false →
      ∃ t, Sys2Proof.Machine.exec (.dispatch die) s = .next t ∧ (t.die die).fqTail = (s.die die).fqTail + 1 ∧
        (∀ w ∈ (t.die die).pan, w.stamp ≠ r.stamp) ∧ t.slots = s.slots ∧
        (r.token ≠ 0 → t.replies.get? s.seq = some { token := r.token, val := 0x88 })) ∧
    (∀ r rest l, ready → s.selection die = r :: rest → r.lr = true →
      s.launches.get? r.lnch = some l →
      ∃ t, Sys2Proof.Machine.exec (.dispatch die) s = .next t ∧ t.launches.get? r.lnch = some { l with started := true } ∧
        t.slots = s.slots) ∧
    (∀ l, s.launches.get? n = some l → s.up.getLsbD l.die = true → l.started = true →
      let total := Sys2Proof.Machine.lProd l.words 0 (Sys2Proof.Machine.lLevels l.words)
      (∀ d r, l.next < total → s.expandRec n l = ((none, d), r) → (s.die d).place r = some none →
        ∃ t w, Sys2Proof.Machine.exec (.launchExpansion n) s = .next t ∧
          t.launches.get? n = some { l with next := l.next + 1 } ∧ w ∈ (t.die d).pan ∧ w.key = r.key ∧
          w.payload = r.payload ∧ w.stamp = (s.die d).enq ∧ w.lnch = n ∧ t.slots = s.slots) ∧
      (let sel := l.words[7].toNat
        let per := Sys2Proof.Machine.lProd l.words (l.words[0].toNat / 2 ^ 48 % 2 ^ 3 + 1) (Sys2Proof.Machine.lLevels l.words)
        let ended (k : Nat) : Prop := k ∉ l.posted ∧ (k + 1) * per ≤ l.next ∧ s.launchTasks n (some k) = false
        ∀ k, k < Sys2Proof.Machine.lProd l.words 0 (l.words[0].toNat / 2 ^ 48 % 2 ^ 3 + 1) → ended k → (∀ j, j < k → ¬ ended j) →
        (sel = 0 → ∃ t, Sys2Proof.Machine.exec (.instanceComplete n) s = .next t ∧
          t.launches.get? n = some { l with posted := k :: l.posted } ∧ t.recs = s.recs) ∧
        (sel ≠ 0 → ∃ t m, Sys2Proof.Machine.exec (.instanceComplete n) s = .next t ∧
          t.launches.get? n = some { l with posted := k :: l.posted } ∧ t.recs.get? s.seq = some m ∧
          m.r.key = l.words[6] + BitVec.ofNat 64 k ∧ m.r.entry = sel % 2 ^ 16 ∧
          m.r.payload.toList = [1, 0, 0, 0, 0, 0, 0, 0] ∧
          Sys2Proof.Claims.AffinityDie s (sel / 2 ^ 24 % 2 ^ 4) l.die m.r.key m.die)) ∧
      (l.wait = none → s.launchDone n l = true →
        (l.words[4] = 0 →
          ∃ t, Sys2Proof.Machine.exec (.launchComplete n) s = .next t ∧ t.launches.get? n = none ∧ t.mem = s.mem) ∧
        (l.words[4] ≠ 0 → l.refused = true → (s.die l.die).fqFull = false →
          ∃ t, Sys2Proof.Machine.exec (.launchComplete n) s = .next t ∧ t.launches.get? n = none ∧
            (t.die l.die).fqTail = (s.die l.die).fqTail + 1) ∧
        (∀ u, l.words[4] ≠ 0 → l.refused = false → l.words[4].toNat < 2 ^ 56 →
          s.cohWrite (.notice n) l.die l.asid l.words[4].toNat (Sys2Proof.Machine.toBytes 8 l.words[5].toNat) .now
              { w := true, u := true } = (u, .ok ()) →
          ∃ t, Sys2Proof.Machine.exec (.launchComplete n) s = .next t ∧ t.launches.get? n = none ∧ t.mem = u.mem ∧
            t.lines = u.lines)))

/-- Records in pans, placement, and launches: the statements `RecordSteps`, `Scheduling` above. -/
def Obligations.Scheduling : Prop :=
  Sys2Proof.Claims.RecordSteps ∧ Sys2Proof.Claims.Scheduling

/-! ### Crews, rendezvous points, barriers, guards and digests (07, 11, 14) -/

namespace Sys2Proof.Claims
open Sys2Proof.Machine

/-- The instruction goes on: PC is behind it, no register of any slot and no byte of memory changes, and `f` holds. -/
def Passes (i : Instr) (lit : Bool) (s : State) (f : State → Prop) : Prop :=
  ∃ t, exec i s = .next t ∧ t.me.pc = s.me.pc + (if lit then 8 else 4) ∧ t.me.s = s.me.s ∧ t.me.sFull = s.me.sFull ∧
    t.me.v = s.me.v ∧ t.me.vFull = s.me.vFull ∧ t.mem = s.mem ∧ f t

/-- The barrier object that sixteen bytes give (R234). -/
def objectOf (b : List Byte) : Barrier :=
  let n := ofBytes b
  { out := n / 2 ^ 96 % 2 ^ 32, inb := n / 2 ^ 64 % 2 ^ 32, exp := n / 2 ^ 44 % 2 ^ 20, pend := n / 2 ^ 24 % 2 ^ 20,
    gen := n / 2 ^ 20 % 2 ^ 4, uflow := n.testBit 1, init := n.testBit 0 }

/-- An object after a change: a phase is over when PEND, OUT and IN are 0 (R235). -/
def settled (b : Barrier) : Barrier :=
  if b.init = true ∧ b.pend = 0 ∧ b.out = 0 ∧ b.inb = 0 then { b with gen := (b.gen + 1) % 16, pend := b.exp } else b

end Sys2Proof.Claims

/-- Crew instructions and the crew's front end. `detach` and `split` clear the issuing member, or every member, of the attached
set; `lockstep` of the leader sets LOCK; `crewid` shows the crew; `rejoin` outside a crew branches, in a crew waits at its target
with its mask, and attaches exactly the members of a complete group at the target: all that wait there, with the live members that
their masks name. Where a member's mask leaves itself out, the group that it stands for is the model's reading (entry 63). Decode
gives the instruction at its point to every attached member; a member that stalls it for more than 4,096 cycles, which under LOCK
count from its turn in the model's reading (entry 57), is detached and marked; a wait at a `rejoin` is reported once. -/
def Obligations.CrewResult : Prop :=
  ∀ (s : Sys2Proof.Machine.State) (a : Sys2Proof.SSrc) (b : Sys2Proof.SOpd) (d : Sys2Proof.SReg),
    Sys2Proof.Claims.Unbroken s →
    let ck := s.crewKey s.cur
    let m := Sys2Proof.Machine.memberOf s.cur
    let qa := Sys2Proof.Machine.formA [] a
    let q := Sys2Proof.Machine.formR [] a b
    let qd := Sys2Proof.Machine.form0 [.s d]
    let to_ := s.me.pc + s.bval q 1 .sext b
    Sys2Proof.Claims.Passes .detach false s (fun t => t.attached s.cur = false) ∧
    Sys2Proof.Claims.Passes .split false s (fun t => s.me.crew = true → (t.crew ck).att = 0) ∧
    (s.gateOf s.cur qa = .go → Sys2Proof.Claims.Passes (.lockstep a) false s fun t =>
      (s.attached s.cur = true → Sys2Proof.Machine.leaderOf (s.crew ck).att = m → (t.crew ck).lock = (s.sval qa 0 != 0)) ∧
      (s.attached s.cur = false → (t.crew ck).lock = (s.crew ck).lock)) ∧
    (s.gateOf s.cur qd = .go → ∃ v, Sys2Proof.Claims.Writes (.crewid d) qd d v s ∧ (s.me.crew = false → v = 0) ∧
      (s.me.crew = true → (v.extractLsb' 0 3).toNat = m ∧ v.getLsbD 3 = true ∧ v.getLsbD 4 = s.attached s.cur ∧
        v.extractLsb' 16 8 = (s.crew ck).live ∧ v.extractLsb' 24 8 = (s.crew ck).att ∧
        ((s.crew ck).att ≠ 0 → (v.extractLsb' 8 3).toNat = Sys2Proof.Machine.leaderOf (s.crew ck).att))) ∧
    (s.me.wait = .none → s.gateOf s.cur q = .go →
      (to_.extractLsb' 0 2 ≠ 0 →
        Sys2Proof.Machine.exec (.rejoin a b) s = s.trap 0x07 (Sys2Proof.Machine.wordOf (.rejoin a b)) q.lit) ∧
      (to_.extractLsb' 0 2 = 0 → s.me.crew = false → ∃ t, Sys2Proof.Machine.exec (.rejoin a b) s = .next t ∧ t.me.pc = to_) ∧
      (to_.extractLsb' 0 2 = 0 → s.me.crew = true → ∃ t k, Sys2Proof.Machine.exec (.rejoin a b) s = .next t ∧
        t.me.wait = .rejoin to_ k q.lit ∧
        (let named (i : Nat) : Bool := (s.sval q 0).getLsbD i;
          (named m = true → ∀ i, i < 8 → k.getLsbD i = named i) ∧
          (named m = false → k = 0 ∨ ∀ i, i < 8 → k.getLsbD i = (named i || i == m))) ∧
        t.me.pc = s.me.pc ∧ t.attached s.cur = false)) ∧
    (∀ t k l, s.me.wait = .rejoin t k l →
      let g := s.rejoinGroup ck m t k
      let at_ (n : Nat) (j : BitVec 8) : Prop := s.rejoinAt ck n = some (t, j)
      let here (n : Nat) : Prop := ∃ j, at_ n j
      let p (n : Nat) := Sys2Proof.Machine.crewSlot ck n
      ((∀ n ∈ g, here n) →
        (∀ n ∈ g, (s.slot (p n)).priv ≠ 0 ∨ (s.die (Sys2Proof.Machine.dieOf (p n))).breakAt (s.slot (p n)).pc = none) →
        ∃ u, Sys2Proof.Machine.exec (.rejoin a b) s = .next u ∧
          (∀ n ∈ g, (u.slot (p n)).pc = t ∧ (u.slot (p n)).wait = .none) ∧
          (∀ n, n < 8 → ((u.crew ck).att.getLsbD n = true ↔ n ∈ g)) ∧ (u.crew ck).dpc = t) ∧
      (¬ (∀ n ∈ g, here n) → Sys2Proof.Machine.exec (.rejoin a b) s = .next s) ∧
      (k = 0 → g = [m]) ∧
      (k ≠ 0 →
        (∀ n j, n < 8 → at_ n j → j ≠ 0 → n ∈ g) ∧
        (∀ n ∈ g, ∀ j, at_ n j → ∀ i, i < 8 → j.getLsbD i = true → (s.crew ck).live.getLsbD i = true → i ∈ g) ∧
        (∀ n ∈ g, (∃ j, at_ n j ∧ j ≠ 0) ∨
          ((s.crew ck).live.getLsbD n = true ∧ ∃ o ∈ g, ∃ j, at_ o j ∧ j.getLsbD n = true)))) ∧
    (∀ c i w l t, let x := s.crew c
      let lead := Sys2Proof.Machine.crewSlot c (Sys2Proof.Machine.leaderOf x.att)
      x.att ≠ 0 → x.await = none → (∀ n, n < 8 → x.att.getLsbD n = true → (x.bufs.getD n []).length < 32) →
      s.fetchInstr lead x.dpc = (t, .instr i, w, l) → Sys2Proof.Machine.Instr.steers i = false → (∀ o, i ≠ .bra o ∧ i ≠ .call o) →
      ∃ u e, Sys2Proof.Machine.exec (.frontEndDecode c) s = .next u ∧ e.pc = x.dpc ∧ e.word = w ∧ e.lit = l ∧ e.branch = none ∧
        (∀ n, n < 8 → (u.crew c).bufs.getD n [] = x.bufs.getD n [] ++ (if x.att.getLsbD n then [e] else [])) ∧
        (u.crew c).dpc = x.dpc + (if i.literal.isSome then 8 else 4) ∧ (u.crew c).await = none ∧ u.slots = s.slots) ∧
    (∀ c n f, n < 8 → (s.crew c).att.getLsbD n = true → (s.crew c).await = none →
      ((s.crew c).lock = false ∧ ((s.crew c).bufs.getD n []).length = 32 ∧ (s.crew c).fullAt.get? n = some f) ∨
        ((s.crew c).lock = true ∧ (s.crew c).heldAt.get? n = some f) → f + 4096 < s.now → (s.slot (Sys2Proof.Machine.crewSlot c n)).issued + 4096 < s.now →
      ∃ u, Sys2Proof.Machine.exec (.crewStallDetach c n) s = .next u ∧ (u.crew c).att.getLsbD n = false ∧
        (u.crew c).wdet.getLsbD n = true ∧ u.slots = s.slots) ∧
    (∀ c t f, (s.crew c).rejoins = [(t, f, false)] → let limit := (s.die (Sys2Proof.Machine.crewDie c)).wdog.toNat
      limit ≠ 0 → f + limit ≤ s.now → (∃ n, n < 8 ∧ ∃ j, s.rejoinAt c n = some (t, j)) →
      ∃ u, Sys2Proof.Machine.exec (.rejoinTimeout c) s = .next u ∧ (u.crew c).rejoins = [(t, f, true)] ∧
        Sys2Proof.Claims.ReportEntry s u (Sys2Proof.Machine.crewDie c) 0x83 ∧ u.slots = s.slots)

/-- Rendezvous points and guards: `rv.init` prepares a point, `rv.arr` counts an arrival, the last of which starts a new
generation, and gives the generation before it, and `rv.wait` waits for a new generation; `rv.init` of a prepared point
changes nothing where its count is the same; a point of another team, out of range or not prepared, and another count, take
RV_MISUSE. `gset` resolves a guard by its operand, while a command at the head of its queue keeps what its guard was when it
came there; `gclr` makes a guard unresolved once no command that has neither ended nor been discarded names it. -/
def Sys2Proof.Claims.PointResult : Prop :=
  ∀ (s : Sys2Proof.Machine.State) (a : Sys2Proof.SSrc) (b : Sys2Proof.SOpd) (d : Sys2Proof.SReg) (g : Sys2Proof.GReg),
    Sys2Proof.Claims.Unbroken s →
    let q := Sys2Proof.Machine.formR [] a b
    let qd := Sys2Proof.Machine.formA [.s d] a
    let qb := Sys2Proof.Machine.formB [] b
    let cl := Sys2Proof.Machine.clusterOf s.cur
    let n := (s.sval q 0).toNat
    let x := (s.cluster cl).point n
    let e := (s.bval q 1 .zext b).toNat
    let mine : Prop := n ≤ 23 ∧ ((s.cluster cl).ptTeam = none ∨ (s.cluster cl).ptTeam = some (s.team s.cur))
    let p (t : Sys2Proof.Machine.State) := (t.cluster cl).point n
    (s.gateOf s.cur q = .go → (¬ mine → Sys2Proof.Machine.exec (.rvInit a b) s = s.trap 0x85 s.me.key q.lit ∧
        Sys2Proof.Machine.exec (.rvWait a b) s = s.trap 0x85 s.me.key q.lit) ∧
      (mine → e = 0 ∨ 0xFFFF < e → Sys2Proof.Machine.exec (.rvInit a b) s = s.trap 0x85 s.me.key q.lit) ∧
      (mine → x.init = false → 1 ≤ e → e ≤ 0xFFFF → Sys2Proof.Claims.Passes (.rvInit a b) q.lit s fun t =>
        (p t).init = true ∧ (p t).e.toNat = e ∧ (p t).arrived = 0 ∧ (p t).gen = x.gen ∧
        (t.cluster cl).ptTeam = some (s.team s.cur)) ∧
      (mine → x.init = true → x.e.toNat ≠ e → Sys2Proof.Machine.exec (.rvInit a b) s = s.trap 0x85 s.me.key q.lit) ∧
      (mine → x.init = true → x.e.toNat = e → 1 ≤ e → Sys2Proof.Claims.Passes (.rvInit a b) q.lit s fun t =>
        p t = x ∧ (t.cluster cl).ptTeam = some (s.team s.cur)) ∧
      (mine → x.init = false → Sys2Proof.Machine.exec (.rvWait a b) s = s.trap 0x85 s.me.key q.lit) ∧
      (mine → x.init = true →
        (x.gen ≠ (s.bval q 1 .zext b).extractLsb' 0 32 → Sys2Proof.Claims.Passes (.rvWait a b) q.lit s fun t =>
          t.clusters = s.clusters) ∧
        (x.gen = (s.bval q 1 .zext b).extractLsb' 0 32 → Sys2Proof.Machine.exec (.rvWait a b) s = .next s))) ∧
    (s.gateOf s.cur qd = .go → ¬ mine ∨ x.init = false →
      Sys2Proof.Machine.exec (.rvArr d a) s = s.trap 0x85 s.me.key false) ∧
    (s.gateOf s.cur qd = .go → mine → x.init = true →
      (s.fenced s.cur (2 ^ Sys2Proof.Machine.dieOf s.cur) = false → Sys2Proof.Machine.exec (.rvArr d a) s = .next s) ∧
      (s.fenced s.cur (2 ^ Sys2Proof.Machine.dieOf s.cur) = true → s.role s.cur d = .plain →
        ∃ t, Sys2Proof.Machine.exec (.rvArr d a) s = .next t ∧ (d ≠ 0 → t.me.reg d = x.gen.zeroExtend 64) ∧
          Sys2Proof.Claims.OthersKept d s.me t.me ∧ t.me.pc = s.me.pc + 4 ∧
          (x.arrived + 1 = x.e.toNat → (p t).arrived = 0 ∧ (p t).gen = x.gen + 1) ∧
          (x.arrived + 1 ≠ x.e.toNat → (p t).arrived = x.arrived + 1 ∧ (p t).gen = x.gen) ∧ t.mem = s.mem)) ∧
    (s.gateOf s.cur qb = .go →
      (g = 0 → Sys2Proof.Machine.exec (.gset g b) s = s.trap 0x02 (Sys2Proof.Machine.wordOf (.gset g b)) qb.lit) ∧
      (g ≠ 0 → Sys2Proof.Claims.Passes (.gset g b) qb.lit s fun t =>
        t.me.guard g = (if s.bval qb 0 .zext b = 0 then .isFalse else .isTrue) ∧ (∀ h, h ≠ g → t.me.guard h = s.me.guard h) ∧
        ∀ e c rest, (s.me.engine e).queue = c :: rest → c.guard = g.val → c.started = false → c.fate = none →
          s.me.guard g ≠ .unresolved → ∃ c', (t.me.engine e).queue = c' :: rest ∧ c'.ticket = c.ticket ∧
            c'.fate = some (decide (s.me.guard g = .isTrue)))) ∧
    (g = 0 → Sys2Proof.Machine.exec (.gclr g) s = s.trap 0x02 (Sys2Proof.Machine.wordOf (.gclr g)) false) ∧
    (g ≠ 0 →
      ((∀ e ∈ Sys2Proof.Machine.engines, ∀ c ∈ (s.me.engine e).queue, c.fate ≠ some false → c.guard ≠ g.val) →
        Sys2Proof.Claims.Passes (.gclr g) false s fun t =>
          t.me.guard g = .unresolved ∧ ∀ h, h ≠ g → t.me.guard h = s.me.guard h) ∧
      ((∃ e ∈ Sys2Proof.Machine.engines, ∃ c ∈ (s.me.engine e).queue, c.fate ≠ some false ∧ c.guard = g.val) →
        Sys2Proof.Machine.exec (.gclr g) s = .next s))

/-- Barrier objects, in the scratchpad or in memory: `bo.init` prepares one for its count of arrivals, `bo.add` raises its two
byte counts, `bo.arr` takes an arrival from PEND and gives the phase, `bo.wait` goes on when its phase is over and waits before;
the object is rewritten in one step, a phase that is over starting the next. A count of 0, an object that is not prepared, and
`bo.init` of one whose phase is not at its start take RV_MISUSE; a bad address traps at issue. An object that cannot be read is a
late outcome of the three, which on an absent page are left to be performed before the next instruction, and holds `bo.wait` at
its own address. Digests: `digest.add` asks for the named version in its group, and `digest.end` sends the digest of its step to
every other member, clears the sum and empties its register until the verdict. -/
def Sys2Proof.Claims.BarrierResult : Prop :=
  ∀ (s : Sys2Proof.Machine.State) (a : Sys2Proof.SSrc) (b : Sys2Proof.SOpd) (d : Sys2Proof.SReg),
    Sys2Proof.Claims.Unbroken s →
    let q := Sys2Proof.Machine.formR [] a b
    let qd := Sys2Proof.Machine.formA [.s d] a
    let cl := Sys2Proof.Machine.clusterOf s.cur
    let dd := Sys2Proof.Machine.dieOf s.cur
    let at_ := s.sval q 0
    let v := (s.bval q 1 .zext b).toNat
    let asid := s.me.asid.toNat
    let spObj (t : Sys2Proof.Machine.State) : Sys2Proof.Machine.Barrier :=
      Sys2Proof.Claims.objectOf ((t.cluster cl).spBytes at_.toNat 16)
    let next (l : Bool) := s.me.pc + (if l then 8 else 4)
    let fits : Prop := Sys2Proof.Claims.SpOk s at_ 16 ∧ (s.cluster cl).locked (at_.toNat / 4096) = false ∧
      (s.cluster cl).spBad at_.toNat 16 = false ∧ s.inOrder (s.barrierAccess at_.toNat true) = true
    let reads := s.cohRead (.slot s.cur) dd asid at_.toNat 16 { r := true, w := true, u := s.me.priv == 0 }
    let aligned : Prop := at_.toNat % 16 = 0 ∧ at_.toNat < 2 ^ 56 ∧ Sys2Proof.Claims.InContext s ∧ s.mySwitch at_ false = none
    let put_ (u : Sys2Proof.Machine.State) (x : Sys2Proof.Machine.Barrier) : Sys2Proof.Machine.State × Except Nat Unit :=
      (u.sequence dd (u.scPage dd asid at_.toNat)).cohWrite (.slot s.cur) dd asid at_.toNat (Sys2Proof.Machine.toBytes 16 x.toNat)
        .keep { r := true, w := true }
    let opened (u : Sys2Proof.Machine.State) (o : List Sys2Proof.Byte) : Prop :=
      aligned ∧ reads = (u, .ok o) ∧ u.inOrder (s.barrierAccess at_.toNat false) = true
    let initial (e : Nat) : Sys2Proof.Machine.Barrier :=
      { out := 0, inb := 0, exp := e, pend := e, gen := 0, uflow := false, init := true }
    let added (x : Sys2Proof.Machine.Barrier) : Sys2Proof.Machine.Barrier :=
      Sys2Proof.Claims.settled { x with out := (x.out + v % 2 ^ 32) % 2 ^ 32, inb := (x.inb + v / 2 ^ 32) % 2 ^ 32 }
    let arrived (x : Sys2Proof.Machine.Barrier) : Sys2Proof.Machine.Barrier := Sys2Proof.Claims.settled { x with pend := x.pend - 1 }
    let e := v % 2 ^ 20
    let forms (sp : Bool) : List (Sys2Proof.Instr × Sys2Proof.Machine.Form) :=
      [(.boInit a b sp, q), (.boAdd a b sp, q), (.boWait a b sp, q), (.boArr d a sp, qd)]
    let entry := s.ctx dd asid
    let late (c : Nat) (sp : Bool) : Prop :=
      let is (i : Sys2Proof.Instr) (l : Bool) (f : Sys2Proof.Machine.State → Prop) : Prop :=
        ∃ t z, Sys2Proof.Machine.exec i s = .next t ∧ t.me.pc = next l ∧ t.me.late = s.me.late ++ [z] ∧ z.cause = c ∧
          z.tval = at_ ∧ z.fill = none ∧ t.mem = s.mem ∧ (sp = true → t.clusters = s.clusters) ∧ f t
      (s.gateOf s.cur q = .go →
        (e ≠ 0 → is (.boInit a b sp) q.lit fun t => t.me.s = s.me.s) ∧ is (.boAdd a b sp) q.lit fun t => t.me.s = s.me.s) ∧
      (s.gateOf s.cur qd = .go → s.role s.cur d = .plain → is (.boArr d a sp) false fun t =>
        (d ≠ 0 → t.me.reg d = 0) ∧ Sys2Proof.Claims.OthersKept d s.me t.me)
    (s.gateOf s.cur q = .go → e = 0 → ∀ sp : Bool, (sp = false → Sys2Proof.Claims.InContext s) →
      Sys2Proof.Machine.exec (.boInit a b sp) s = s.trap 0x85 s.me.key q.lit) ∧
    (∀ (sp : Bool) (i : Sys2Proof.Instr) (r : Sys2Proof.Machine.Form), (i, r) ∈ forms sp → s.gateOf s.cur r = .go →
      let traps (c : Nat) : Prop := Sys2Proof.Machine.exec i s = s.trap c at_ r.lit
      let limit := if sp then 2 ^ 23 else 2 ^ 56
      (sp = false → s.me.asid ≠ 0 → (entry = .invalid → traps 0x46) ∧ (entry = .poisoned → traps 0x45)) ∧
      ((sp = false → Sys2Proof.Claims.InContext s) → (i = .boInit a b sp → e ≠ 0) →
        (limit ≤ at_.toNat → traps 0x43) ∧ (at_.toNat < limit → at_.toNat % 16 ≠ 0 → traps 0x44) ∧
        (sp = true → at_.toNat < limit → at_.toNat % 16 = 0 → (s.cluster cl).retired.contains (at_.toNat / 4096) = true →
          traps 0x45) ∧
        (sp = true → Sys2Proof.Claims.SpOk s at_ 16 →
          (s.cluster cl).locked (at_.toNat / 4096) = true ∨ s.inOrder (s.barrierAccess at_.toNat true) = false →
          Sys2Proof.Machine.exec i s = .next s))) ∧
    (Sys2Proof.Claims.SpOk s at_ 16 → (s.cluster cl).locked (at_.toNat / 4096) = false →
      s.inOrder (s.barrierAccess at_.toNat true) = true → (s.cluster cl).spBad at_.toNat 16 = true →
      late 0x45 true ∧
      (s.gateOf s.cur q = .go → Sys2Proof.Machine.exec (.boWait a b true) s = .next (s.boundaryTrap s.cur 0x45 at_))) ∧
    (s.gateOf s.cur q = .go → fits → let x := spObj s
      let goes (i : Sys2Proof.Instr) (f : Sys2Proof.Machine.State → Prop) : Prop :=
        ∃ t, Sys2Proof.Machine.exec i s = .next t ∧ t.me.pc = next q.lit ∧ t.me.s = s.me.s ∧ t.mem = s.mem ∧ f t
      (e ≠ 0 → x.init = true → x.pend ≠ x.exp →
        Sys2Proof.Machine.exec (.boInit a b true) s = s.trap 0x85 s.me.key q.lit) ∧
      (e ≠ 0 → x.init = false ∨ x.pend = x.exp → goes (.boInit a b true) fun t => spObj t = initial e) ∧
      (x.init = false → Sys2Proof.Machine.exec (.boAdd a b true) s = s.trap 0x85 s.me.key q.lit ∧
        Sys2Proof.Machine.exec (.boWait a b true) s = s.trap 0x85 s.me.key q.lit) ∧
      (x.init = true → goes (.boAdd a b true) fun t => spObj t = added x) ∧
      (x.init = true → x.gen = (v + 1) % 16 → goes (.boWait a b true) fun t => t.clusters = s.clusters) ∧
      (x.init = true → x.gen = v % 16 → Sys2Proof.Machine.exec (.boWait a b true) s = .next s) ∧
      (x.init = true → x.gen ≠ (v + 1) % 16 → x.gen ≠ v % 16 →
        Sys2Proof.Machine.exec (.boWait a b true) s = s.trap 0x86 s.me.key q.lit)) ∧
    (s.gateOf s.cur qd = .go → fits → (spObj s).init = false →
      Sys2Proof.Machine.exec (.boArr d a true) s = s.trap 0x85 s.me.key false) ∧
    (s.gateOf s.cur qd = .go → fits → let x := spObj s
      x.init = true → s.role s.cur d = .plain →
      (x.pend = 0 ∨ s.fenced s.cur s.allDies = false → Sys2Proof.Machine.exec (.boArr d a true) s = .next s) ∧
      (x.pend ≠ 0 → s.fenced s.cur s.allDies = true → ∃ t, Sys2Proof.Machine.exec (.boArr d a true) s = .next t ∧
        (d ≠ 0 → (t.me.reg d).toNat = x.gen) ∧ spObj t = arrived x ∧ t.me.pc = s.me.pc + 4 ∧ t.mem = s.mem)) ∧
    (∀ u o, opened u o → let x := Sys2Proof.Claims.objectOf o
      let goes (i : Sys2Proof.Instr) (w : Sys2Proof.Machine.State) : Prop :=
        ∃ t, Sys2Proof.Machine.exec i s = .next t ∧ t.me.pc = next q.lit ∧ t.mem = w.mem ∧ t.lines = w.lines ∧ t.me.s = s.me.s
      let v_ := u.sequence dd (u.scPage dd asid at_.toNat)
      let misuse (i : Sys2Proof.Instr) (l : Bool) : Prop := Sys2Proof.Machine.exec i s = v_.trap 0x85 v_.me.key l
      (s.gateOf s.cur qd = .go → x.init = false → misuse (.boArr d a false) false) ∧
      (s.gateOf s.cur q = .go →
        (e ≠ 0 → x.init = true → x.pend ≠ x.exp → misuse (.boInit a b false) q.lit) ∧
        (x.init = false → misuse (.boAdd a b false) q.lit ∧ misuse (.boWait a b false) q.lit) ∧
        (x.init = true → x.gen = v % 16 → Sys2Proof.Machine.exec (.boWait a b false) s = .next v_) ∧
        (x.init = true → x.gen ≠ (v + 1) % 16 → x.gen ≠ v % 16 →
          Sys2Proof.Machine.exec (.boWait a b false) s = v_.trap 0x86 v_.me.key q.lit) ∧
        (∀ w, put_ u (initial e) = (w, .ok ()) → e ≠ 0 → x.init = false ∨ x.pend = x.exp → goes (.boInit a b false) w) ∧
        (∀ w, put_ u (added x) = (w, .ok ()) → x.init = true → goes (.boAdd a b false) w) ∧
        (∀ w c, put_ u (added x) = (w, .error c) → x.init = true → Sys2Proof.Machine.exec (.boAdd a b false) s = .next w) ∧
        (x.init = true → x.gen = (v + 1) % 16 → goes (.boWait a b false) u)) ∧
      (∀ w, put_ u (arrived x) = (w, .ok ()) → s.gateOf s.cur qd = .go → x.init = true → x.pend ≠ 0 →
        u.fenced s.cur u.allDies = true → s.role s.cur d = .plain →
        ∃ t, Sys2Proof.Machine.exec (.boArr d a false) s = .next t ∧ (d ≠ 0 → (t.me.reg d).toNat = x.gen) ∧
          t.mem = w.mem ∧ t.lines = w.lines ∧ t.me.pc = s.me.pc + 4)) ∧
    (∀ u c, aligned → reads = (u, .error c) →
      (c = 1 → ∀ i r, (i, r) ∈ forms false → s.gateOf s.cur r = .go → (i = .boInit a b false → e ≠ 0) →
        Sys2Proof.Machine.exec i s = .next u) ∧
      (1 < c → c ≠ 0x85 → late c false) ∧
      (1 < c → s.gateOf s.cur q = .go → Sys2Proof.Machine.exec (.boWait a b false) s = .next (u.boundaryTrap u.cur c at_)) ∧
      (c = 0 →
        let left (i : Sys2Proof.Instr) (l : Bool) (op : Sys2Proof.Machine.BarOp) (f : Sys2Proof.Machine.State → Prop) : Prop :=
          ∃ t z, Sys2Proof.Machine.exec i s = .next t ∧ t.me.pc = next l ∧ t.me.redo = some z ∧ z.op = op ∧ z.addr = at_ ∧
            z.sp = false ∧ t.mem = s.mem ∧ t.me.s = s.me.s ∧ f t
        (s.gateOf s.cur q = .go → (e ≠ 0 → left (.boInit a b false) q.lit (.init e) fun _ => True) ∧
          left (.boAdd a b false) q.lit (.add v) fun _ => True) ∧
        (s.gateOf s.cur qd = .go → d ≠ 0 → left (.boArr d a false) false .arr fun t => t.me.full d = false))) ∧
    (s.feature 9 = true → (Sys2Proof.Machine.replMembers (s.group4 (v % 4))).contains s.pkg = true →
      (s.gateOf s.cur q = .go → Sys2Proof.Claims.Handle s at_ → at_.toNat % 2 ^ 24 ≠ 0 → Sys2Proof.Claims.Roomy s →
        Sys2Proof.Claims.Asks (.digestAdd a b) (.digest (v % 4)) at_ (next q.lit) s fun _ => True) ∧
      (∀ p, let qe := Sys2Proof.Machine.formR [.fillS d] a b
        s.gateOf s.cur qe = .go → s.digesting s.me.tid s.seq = false → s.ends = [] → s.digests = [] → d ≠ 0 → p ≠ s.pkg →
        (Sys2Proof.Machine.replMembers (s.group4 (v % 4))).contains p = true →
        ∃ t e, Sys2Proof.Machine.exec (.digestEnd d a b) s = .next t ∧ t.ends = [e] ∧ e.dst = d ∧ e.step = at_ ∧ e.g = v % 4 ∧
          e.d = BitVec.ofNat 256 (Sys2Proof.Machine.ofBytes (Sys2Proof.Machine.sha256 (Sys2Proof.Machine.toBytes 8 at_.toNat ++
            Sys2Proof.Machine.toBytes 32 (s.accum.toList.getD (v % 4) 0).toNat))) ∧
          t.me.full d = false ∧ t.me.s = s.me.s ∧ t.accum.toList.getD (v % 4) 0 = 0 ∧ t.me.pc = next qe.lit ∧ t.mem = s.mem ∧
          ∃ m : Sys2Proof.Machine.LinkMsg, m.typ = 0x28 ∧ m.dpkg = p ∧ m.spkg = s.pkg ∧ m.q2 = at_ ∧ m.q3.toNat = v % 4 ∧
            m.body = Sys2Proof.Machine.sha256 (Sys2Proof.Machine.toBytes 8 at_.toNat ++
              Sys2Proof.Machine.toBytes 32 (s.accum.toList.getD (v % 4) 0).toNat) ∧
            (s.linked = true → s.routed p = true → ∃ l, (l, m) ∈ t.sent) ∧
            (s.linked = false ∨ s.routed p = false → m ∈ t.held)))

/-- Rendezvous points, guards, barrier objects and digests: the statements `PointResult`, `BarrierResult` above. -/
def Obligations.PointsAndBarriers : Prop :=
  Sys2Proof.Claims.PointResult ∧ Sys2Proof.Claims.BarrierResult

/-! ### Engines and their commands (08) -/

namespace Sys2Proof.Claims
open Sys2Proof.Machine

/-- Word `k` of a command. -/
def word (c : Cmd) (k : Nat) : Nat := (c.words.getD k 0).toNat
/-- Address of the locator at words `k` and `k + 1`, and its space (R246). -/
def loc (c : Cmd) (k : Nat) : Nat := (word c k + 2 ^ 32 * word c (k + 1)) % 2 ^ 56
def locSpace (c : Cmd) (k : Nat) : Nat := (word c k + 2 ^ 32 * word c (k + 1)) / 2 ^ 60

/-- The command at the head of an engine queue of slot `p` can perform now: it is legal, its guard is TRUE, its slot posts fewer
than five causes, nothing of it has failed or waits for a page, the table entry that it reads is here, and its die runs. -/
def Ready (s : State) (p : Nat) (e : Engine) (opc : Nat) (c : Cmd) : Prop :=
  p < 16384 ∧ s.headCmd p e = .go c ∧ word c 0 % 256 = opc ∧ c.page = none ∧ c.fail = none ∧ s.ctrl.quiet = false ∧
  (s.die (dieOf p)).quiet = false ∧ s.up.getLsbD (dieOf p) = true ∧
  s.farTable (dieOf p) (s.slot p).asid.toNat c.tables = none

/-- A cause is posted behind those posted before it, but before the causes of one cycle of a later engine (R242). -/
def PostedBehind (z : Posted) (old new : List Posted) : Prop :=
  let before (y : Posted) : Prop := y.at_ = z.at_ ∧ (engNum z.eng).val < (engNum y.eng).val
  ∃ l r, old = l ++ r ∧ new = l ++ z :: r ∧ (∀ y ∈ l, ¬ before y) ∧ ∀ y ∈ r.head?, before y

/-- The head command ends: it leaves its queue, the engine's sequence rises by one, and a failure is posted with its ticket. -/
def Ends (s t : State) (p : Nat) (e : Engine) (c : Cmd) (fail : Option Nat) : Prop :=
  ((t.slot p).engine e).queue = ((s.slot p).engine e).queue.tail ∧
  ((t.slot p).engine e).sq = ((s.slot p).engine e).sq + 1 ∧ (t.slot p).s = (s.slot p).s ∧ (t.slot p).v = (s.slot p).v ∧
  match fail with
  | some k => PostedBehind { ticket := c.ticket, cause := BitVec.ofNat 8 k, eng := e, at_ := s.now } (s.slot p).posted (t.slot p).posted
  | none => (t.slot p).posted = (s.slot p).posted

/-- The command of an instruction ends at once with a failure and no effect. -/
def Refused (i : Instr) (s : State) (p : Nat) (e : Engine) (c : Cmd) (cause : Nat) : Prop :=
  ∃ t, exec i s = .next t ∧ Ends s t p e c (some cause) ∧ t.mem = s.mem ∧ t.lines = s.lines ∧ t.clusters = s.clusters

/-- The command of an instruction of the copy or the gather engine ends at once with a failure: of its cluster, only where the
engine's next search begins changes. -/
def TurnedDown (i : Instr) (s : State) (p : Nat) (e : Engine) (c : Cmd) (cause : Nat) : Prop :=
  ∃ t, exec i s = .next t ∧ Ends s t p e c (some cause) ∧ t.mem = s.mem ∧ t.lines = s.lines ∧
    ∀ n, { t.cluster n with copyTurn := 0, gatherTurn := 0 } = { s.cluster n with copyTurn := 0, gatherTurn := 0 }

/-- The command of an instruction has started: the head of its queue is `c'`, which has, and no register and no byte of memory
has changed. -/
def Started (i : Instr) (s : State) (p : Nat) (e : Engine) (f : State → Cmd → Prop) : Prop :=
  ∃ t c', exec i s = .next t ∧ ((t.slot p).engine e).queue.head? = some c' ∧ c'.started = true ∧ c'.fail = none ∧ f t c' ∧
    ((t.slot p).engine e).sq = ((s.slot p).engine e).sq ∧ (t.slot p).s = (s.slot p).s ∧ (t.slot p).v = (s.slot p).v ∧
    t.mem = s.mem

/-- The command of an instruction fails in its execution with ENGINE_FAULT: it keeps its place until what it made empty is written. -/
def Failing (i : Instr) (s : State) (p : Nat) (e : Engine) (c : Cmd) (sub : Nat) : Prop :=
  ∃ t c', exec i s = .next t ∧ ((t.slot p).engine e).queue.head? = some c' ∧ c'.ticket = c.ticket ∧ c'.fail = some (0xA3, sub) ∧
    ((t.slot p).engine e).sq = ((s.slot p).engine e).sq ∧ t.mem = s.mem ∧ t.clusters = s.clusters

/-- The writes of a command cover exactly `n` bytes at `dst`, in a space, and the k-th byte comes from `src k`. -/
def Covers (l : List Put) (sp : Bool) (dst n : Nat) (src : Nat → From) : Prop :=
  (∀ p ∈ l, p.sp = sp ∧ dst ≤ p.dst ∧ p.dst + p.n ≤ dst + n ∧ p.src = src (p.dst - dst)) ∧
  (∀ a, dst ≤ a → a < dst + n → ∃ p ∈ l, p.dst ≤ a ∧ a < p.dst + p.n)

/-- The bytes at a locator, some way on. -/
def fromLoc (c : Cmd) (k o : Nat) : From := if locSpace c k = 1 then .sp (loc c k + o) else .mem (loc c k + o)

/-- The scratchpad words of a byte range are empty, and no others but those that were. -/
def Emptied (s t : State) (cl off n : Nat) : Prop :=
  ∀ w, (t.cluster cl).full w = ((s.cluster cl).full w && !decide (off / 4 ≤ w ∧ w < (off + n) / 4))

end Sys2Proof.Claims

/-- Instructions that push and wait: `cpush` queues eight lanes as a command under the next ticket, and gives the ticket; `cwait`
goes on once the engine's sequence has reached the ticket and traps for one not pushed; `cseq` shows the sequence and the last
failure; `abind` binds a bank and gives its number, `arel` unbinds it and ends the lease of its core; `skim.row` shows the row, and
`skim.end` writes it and ends the handler, or traps for a retired tile slot. -/
def Obligations.EngineInstructions : Prop :=
  ∀ (s : Sys2Proof.Machine.State) (d : Sys2Proof.SReg) (a : Sys2Proof.SSrc) (v : Sys2Proof.VSrc) (vr : Sys2Proof.VReg) (b : Sys2Proof.SOpd)
    (hi : Bool) (e : Sys2Proof.Engine) (push wait seq : Sys2Proof.Instr),
    Sys2Proof.Claims.Unbroken s →
    (e = .m → push = .cpushM d v hi ∧ wait = .cwaitM a ∧ seq = .cseqM d) →
    (e = .c → push = .cpushC d v hi ∧ wait = .cwaitC a ∧ seq = .cseqC d) →
    (e = .g → push = .cpushG d v hi ∧ wait = .cwaitG a ∧ seq = .cseqG d) →
    let q : Sys2Proof.Machine.Form := { srcs := [.v v.reg v.wait], dsts := [.s d], lit := false }
    let qa := Sys2Proof.Machine.formA [] a
    let q0 := Sys2Proof.Machine.form0 [.s d]
    let qd := Sys2Proof.Machine.formB [.s d] b
    let x := s.me.engine e
    let tk := (s.sval qa 0).extractLsb' 0 32
    let cl := Sys2Proof.Machine.clusterOf s.cur
    (s.gateOf s.cur q = .go → s.role s.cur d = .plain →
      (x.open.length < 8 → ∃ t c, Sys2Proof.Machine.exec push s = .next t ∧ (t.me.engine e).queue = x.queue ++ [c] ∧
        (t.me.engine e).p = x.p + 1 ∧ c.ticket = x.p + 1 ∧ c.started = false ∧
        (∀ k, k < 8 → c.words.getD k 0 = (s.vval q 0).extractLsb' (32 * (k + (if hi then 8 else 0))) 32) ∧
        (d ≠ 0 → t.me.reg d = (x.p + 1).zeroExtend 64) ∧ Sys2Proof.Claims.OthersKept d s.me t.me ∧ t.me.pc = s.me.pc + 4 ∧
        t.mem = s.mem) ∧
      (8 ≤ x.open.length → Sys2Proof.Machine.exec push s = .next s)) ∧
    (s.gateOf s.cur qa = .go →
      (1 ≤ (tk - x.p).toNat → (tk - x.p).toNat < 2 ^ 31 → Sys2Proof.Machine.exec wait s = s.trap 0xA0 (tk.zeroExtend 64) false) ∧
      (¬ (1 ≤ (tk - x.p).toNat ∧ (tk - x.p).toNat < 2 ^ 31) →
        ((x.sq - tk).toNat < 2 ^ 31 → Sys2Proof.Claims.Passes wait false s fun _ => True) ∧
        (2 ^ 31 ≤ (x.sq - tk).toNat → Sys2Proof.Machine.exec wait s = .next s))) ∧
    (s.gateOf s.cur q0 = .go → ∃ w, Sys2Proof.Claims.Writes seq q0 d w s ∧ w.extractLsb' 0 32 = x.sq ∧
      w.extractLsb' 32 8 = x.lcause ∧ w.extractLsb' 40 8 = x.sub ∧ w.extractLsb' 48 16 = x.lseq.extractLsb' 0 16) ∧
    (s.gateOf s.cur qd = .go → let k := (s.bval qd 0 .zext b).toNat % 8
      (4 < k ∨ s.cur % 16 = 14 → Sys2Proof.Machine.exec (.abind d b) s = s.trap 0xA2 ((s.me.engine .m).sq.zeroExtend 64) qd.lit) ∧
      (k ≤ 4 → s.cur % 16 ≠ 14 →
        (∀ n, s.bankHeld s.cur = some n → s.role s.cur d = .plain →
          ∃ t, Sys2Proof.Machine.exec (.abind d b) s = .next t ∧ (d ≠ 0 → t.me.reg d = BitVec.ofNat 64 n) ∧
            Sys2Proof.Claims.OthersKept d s.me t.me ∧ t.me.wait = .none ∧ t.clusters = s.clusters ∧
            t.me.pc = s.me.pc + (if qd.lit then 8 else 4)) ∧
        (s.bankHeld s.cur = none → s.me.wait = .none →
          ∃ t, Sys2Proof.Machine.exec (.abind d b) s = .next t ∧ t.me.wait = .abind s.seq k s.now ∧ t.me.pc = s.me.pc ∧
            t.clusters = s.clusters))) ∧
    ((s.bankHeld s.cur = none → Sys2Proof.Claims.Passes .arel false s fun t => t.clusters = s.clusters) ∧
      (∀ n, s.bankHeld s.cur = some n → s.cur < 16384 →
        ((s.me.engine .m).queue = [] → Sys2Proof.Claims.Passes .arel false s fun t => ((t.cluster cl).bank n).owner = none ∧
          ((t.cluster cl).bank n).flags = 0 ∧ ((t.cluster cl).bank n).cells = ((s.cluster cl).bank n).cells ∧
          ((s.cluster cl).lease.holder = some (Sys2Proof.Machine.memberOf s.cur) → (t.cluster cl).lease.holder = none) ∧
          ((s.cluster cl).lease.holder ≠ some (Sys2Proof.Machine.memberOf s.cur) → (t.cluster cl).lease = (s.cluster cl).lease)) ∧
        ((s.me.engine .m).queue ≠ [] → Sys2Proof.Machine.exec .arel s = .next s))) ∧
    (s.gateOf s.cur q0 = .go →
      (s.me.skim = none → Sys2Proof.Machine.exec (.skimRow d) s = s.trap 0xA4 0 false) ∧
      (∀ k, s.me.skim = some k → ∃ w, Sys2Proof.Claims.Writes (.skimRow d) q0 d w s ∧ w.toNat = (k.tag.toNat * 2 ^ 32 + k.row) % 2 ^ 64)) ∧
    (s.me.replied = false → let qb := Sys2Proof.Machine.formB [] b
      let n := (s.bval qb 0 .zext b).toNat
      let gone (k : Sys2Proof.Machine.Skim) : Prop := ∃ w ∈ k.dest, (s.cluster cl).retired.contains (w / 1024) = true
      s.gateOf s.cur qb = .go →
      (s.me.skim = none → Sys2Proof.Machine.exec (.skimEnd vr b) s = s.trap 0xA4 0 qb.lit) ∧
      (∀ k, s.me.skim = some k →
        (n = 0 ∨ 16 < n ∨ 32 < vr.val + n ∨ 4 * k.dest.length < 64 * n →
          Sys2Proof.Machine.exec (.skimEnd vr b) s = s.trap 0xA4 0 qb.lit) ∧
        (1 ≤ n → n ≤ 16 → vr.val + n ≤ 32 → 64 * n ≤ 4 * k.dest.length → s.me.vFull = BitVec.allOnes 32 → gone k →
          Sys2Proof.Machine.exec (.skimEnd vr b) s = s.trap 0x45 (BitVec.ofNat 64 (4 * k.dest.headD 0)) qb.lit) ∧
        (1 ≤ n → n ≤ 16 → vr.val + n ≤ 32 → 64 * n ≤ 4 * k.dest.length → s.me.vFull = BitVec.allOnes 32 → k.dest.Nodup → ¬ gone k →
          (∀ w ∈ k.dest, (s.cluster cl).locked (w / 1024) = false) → s.quietTask s.cur = true → s.cur < 16384 →
          (∀ e ∈ Sys2Proof.Machine.engines, (s.me.engine e).queue = []) →
          ∃ t, Sys2Proof.Machine.exec (.skimEnd vr b) s = .next t ∧ (t.slot s.cur).use = .free ∧
            (∀ j w, k.dest[j]? = some w → (t.cluster cl).full w = true ∧
              (t.cluster cl).spWord w = (if h : vr.val + j / 16 < 32 then
                if j < 16 * n then (s.me.v[vr.val + j / 16]).extractLsb' (32 * (j % 16)) 32 else 0 else 0)))))

/-- Commands of the matrix engine, rings, banks and leases. A ring command configures, advances or empties its ring; a multiply of
a core that may use the array replaces every cell of its bank by the cell sum of its operand tiles, and pops nothing before it
ends; `mzero` clears the bank; `mdrain` empties its destination and then reads row after row for handlers in the skim slots,
which start with the row in v0 to v15. A claimed tile is published once it is full. A waiter of `abind` takes its bank, a lease
goes to a core with a ready command and ends after 64 idle cycles. A command that is discarded, illegal or done ends; while EHOLD
is 1 one that has not started waits. -/
def Sys2Proof.Claims.MatrixCommands : Prop :=
  ∀ (s : Sys2Proof.Machine.State) (p : Nat) (c : Sys2Proof.Machine.Cmd) (e : Sys2Proof.Engine),
    let cl := Sys2Proof.Machine.clusterOf p
    let k := s.cluster cl
    let W (i : Nat) := Sys2Proof.Claims.word c i
    let R (t : Sys2Proof.Machine.State) (n : Nat) := (t.cluster cl).ring n
    let rings : Prop := k.ringTeam = none ∨ k.ringTeam = some (s.team p)
    let ends (i : Sys2Proof.Instr) (f : Sys2Proof.Machine.State → Prop) : Prop :=
      ∃ t, Sys2Proof.Machine.exec i s = .next t ∧ Sys2Proof.Claims.Ends s t p e c none ∧ f t ∧ t.mem = s.mem
    let turn (opc : Nat) : Prop := Sys2Proof.Claims.Ready s p e opc c ∧ c.started = false ∧
      (e = .m ∨ (c.paused = false ∧ s.myTurn p e = true))
    (turn 0x10 → (k.ring (W 1)).conf = false →
      (rings → 1 ≤ W 3 → W 3 ≤ 256 → W 2 + W 3 ≤ 2048 → ends (.ringCfg p e) fun t =>
        (R t (W 1)).conf = true ∧ (R t (W 1)).base = W 2 ∧ (R t (W 1)).len = W 3 ∧ (R t (W 1)).head = 0 ∧
        (R t (W 1)).avail = 0 ∧ (t.cluster cl).ringTeam = some (s.team p)) ∧
      (¬ rings ∨ W 3 = 0 ∨ 256 < W 3 ∨ 2048 < W 2 + W 3 → Sys2Proof.Claims.TurnedDown (.ringCfg p e) s p e c 0xA1)) ∧
    (turn 0x11 → rings → (k.ring (W 1)).conf = true →
      let n := W 2 % 2 ^ 9
      let r := k.ring (W 1)
      1 ≤ n → n ≤ r.len → W 2 / 2 ^ 31 % 2 = 0 → n ≤ r.avail → ends (.ringAdv p e) fun t =>
        (R t (W 1)).head = (r.head + n) % r.len ∧ (R t (W 1)).avail = r.avail - n ∧ (R t (W 1)).claim = r.claim) ∧
    (turn 0x12 → rings → (k.ring (W 1)).conf = true → (k.ring (W 1)).claim = 0 →
      ends (.ringReset p e) fun t => (R t (W 1)).head = 0 ∧ (R t (W 1)).avail = 0 ∧
        (R t (W 1)).base = (k.ring (W 1)).base ∧ (R t (W 1)).len = (k.ring (W 1)).len) ∧
    (∀ opc i b, (opc, i) ∈ [(1, Sys2Proof.Instr.mmaE4m3 p), (2, .mmaE5m2 p), (3, .mmaBf16 p), (4, .mmaI8 p), (5, .mmaT2 p)] →
      Sys2Proof.Claims.Ready s p .m opc c → c.started = false → s.bankHeld p = some b → b < 4 → s.mayUseArray p = true →
      k.mmaReady c = true →
      let ta := (k.ring c.ringA).front (Sys2Proof.Machine.mmaTiles opc)
      let tb := (k.ring c.ringB).front 4
      (∀ x ∈ ta ++ tb, k.spBad (4096 * x) 4096 = false ∧ k.spGone (4096 * x) 4096 = false) →
      Sys2Proof.Claims.Started i s p .m fun t c' =>
        (∀ r n, r < 256 → n < 256 → ((t.cluster cl).bank b).cells.getD (256 * r + n) 0 =
          (k.mmaCell opc ta tb r n ((k.bank b).cells.getD (256 * r + n) 0)).1) ∧
        (opc = 4 → ∀ r n, r < 256 → n < 256 → ((t.cluster cl).bank b).cells.getD (256 * r + n) 0 =
          (List.range 64).foldl (fun (z : Sys2Proof.W32) j =>
            let aj : Sys2Proof.Byte := (k.spWord ((4096 * ta.getD (r / 64) 0 + 64 * (r % 64) + j) / 4)).extractLsb' (8 * (j % 4)) 8
            let bj : Sys2Proof.Byte := (k.spWord ((4096 * tb.getD (n / 64) 0 + 64 * j + n % 64) / 4)).extractLsb' (8 * (n % 4)) 8
            z + aj.signExtend 32 * bj.signExtend 32) ((k.bank b).cells.getD (256 * r + n) 0)) ∧
        (∀ n, R t n = R s n) ∧ c'.pops.length ≤ 2) ∧
    (∀ b, Sys2Proof.Claims.Ready s p .m 0x08 c → c.started = false → s.bankHeld p = some b → s.mayUseArray p = true →
      Sys2Proof.Claims.Started (.mzero p) s p .m fun t _ => ((t.cluster cl).bank b).cells = [] ∧
        ((t.cluster cl).bank b).owner = (k.bank b).owner) ∧
    (∀ b kd, Sys2Proof.Claims.Ready s p .m 0x09 c → c.started = false → s.bankHeld p = some b → W 0 / 2 ^ 14 % 2 = 0 →
      W 2 % 64 = 0 → 64 ≤ W 2 → W 2 ≤ 1024 → W 1 % 4 = 0 → W 1 + 256 * W 2 ≤ 2 ^ 23 → k.locks = [] →
      s.kernel (Sys2Proof.Machine.dieOf p) (s.slot p).asid.toNat (W 3) = some kd → kd.skim = true →
      Sys2Proof.Claims.Started (.mdrain p) s p .m fun t c' => Sys2Proof.Claims.Emptied s t cl (W 1) (256 * W 2) ∧
        c' = { c with started := true, pos := p }) ∧
    (∀ b kd r core rest, p < 16384 → ((s.slot p).engine .m).queue.head? = some c → c.rows = (r, core) :: rest → rest ≠ [] →
      c.opc = 0x09 → Sys2Proof.Machine.clusterOf c.pos = cl → s.bankHeld p = some b → s.ctrl.quiet = false →
      (s.die (Sys2Proof.Machine.dieOf c.pos)).quiet = false → (s.slot (core * 16 + 14)).vacant = true → p ≠ core * 16 + 14 →
      r < 256 → W 0 / 2 ^ 12 % 2 = 0 →
      s.kernel (Sys2Proof.Machine.dieOf c.pos) (s.slot p).asid.toNat (W 3) = some kd →
      s.farTable (Sys2Proof.Machine.dieOf c.pos) (s.slot p).asid.toNat c.tables = none →
      ∃ t, Sys2Proof.Machine.exec (.mdrainRowRead p) s = .next t ∧ (t.slot (core * 16 + 14)).use = .skim ∧
        (t.slot (core * 16 + 14)).pc = BitVec.ofNat 64 kd.pc ∧
        (∀ j, j < 256 → ((t.slot (core * 16 + 14)).v.toList.getD (j / 16) 0).extractLsb' (32 * (j % 16)) 32 =
          (k.bank b).cells.getD (256 * r + j) 0) ∧
        (∃ m, (t.slot (core * 16 + 14)).skim = some m ∧ m.row = r ∧ m.bank = b ∧ m.owner = p) ∧
        (((t.slot p).engine .m).queue.head?).map (·.rows) = some rest ∧ t.mem = s.mem) ∧
    (∀ n, let r := k.ring n
      0 < r.claim → r.kept = [] → k.tileFull (r.base + (r.head + r.avail) % r.len) = true → r.len ≠ 0 →
      ∃ t, Sys2Proof.Machine.exec (.ringTilePublish cl n) s = .next t ∧ (R t n).avail = r.avail + 1 ∧
        (R t n).claim = r.claim - 1 ∧ t.slots = s.slots ∧ t.mem = s.mem) ∧
    (∀ id b since, (s.slot p).wait = .abind id b since → b < 4 → s.abindFits p b = true →
      (∀ j, j < 128 → s.abindFits (cl * 128 + j) b = true → (s.slot p).abindId ≤ (s.slot (cl * 128 + j)).abindId) →
      ∃ t, Sys2Proof.Machine.exec (.abindGrant p) s = .next t ∧ ((t.cluster cl).bank b).owner = some p ∧
        ((t.cluster cl).bank b).cells = [] ∧ ((t.cluster cl).bank b).flags = 0 ∧ (t.slot p).wait = .none ∧ t.mem = s.mem) ∧
    (k.lease.holder = none → s.arrayFree cl = true →
      (∃ j, j < 8 ∧ (s.onCore (cl * 8 + j)).any s.arrayReady = true) →
      ∃ t j, Sys2Proof.Machine.exec (.arrayLeaseGrant cl) s = .next t ∧ j < 8 ∧ (t.cluster cl).lease.holder = some j ∧
        (s.onCore (cl * 8 + j)).any s.arrayReady = true ∧ (t.cluster cl).lease.started = 0 ∧ t.slots = s.slots) ∧
    (∀ j f, k.lease.holder = some j → k.lease.idle = some f → f + 64 ≤ s.now →
      ∃ t, Sys2Proof.Machine.exec (.arrayLeaseIdleEnd cl) s = .next t ∧ (t.cluster cl).lease.holder = none ∧
        (t.cluster cl).lease.prev = j ∧ t.slots = s.slots) ∧
    (p < 16384 → s.ctrl.quiet = false → (s.die (Sys2Proof.Machine.dieOf p)).quiet = false →
      s.up.getLsbD (Sys2Proof.Machine.dieOf p) = true → ((s.slot p).engine e).queue.head? = some c →
      let g : Sys2Proof.Machine.Guard := match c.fate with
        | some true => .isTrue
        | some false => .isFalse
        | none => (s.slot p).guard (Fin.ofNat 16 (W 0 / 2 ^ 8 % 2 ^ 4))
      (c.started = false → (s.slot p).ehold = true ∨ g = .unresolved → Sys2Proof.Machine.exec (.commandEnd p e) s = .next s) ∧
      (c.started = false → (s.slot p).ehold = false → g = .isFalse → ends (.commandEnd p e) fun t => t.clusters = s.clusters) ∧
      (c.started = false → (s.slot p).ehold = false → g = .isTrue → (s.slot p).posted.length < 5 → s.cmdLegal e c = false →
        Sys2Proof.Claims.Refused (.commandEnd p e) s p e c 0xA0) ∧
      (c.started = true → c.page = none → c.paused = false → c.marks = [] → c.out = [] → c.wrote = [] → c.tile = none →
        s.nvme = [] → W 0 % 256 ≠ 9 →
        (∀ j sub, e ≠ .m → c.fail = some (j, sub) → ∃ t, Sys2Proof.Machine.exec (.commandEnd p e) s = .next t ∧
          Sys2Proof.Claims.Ends s t p e c (some j) ∧ (t.slot p).flags = (s.slot p).flags ∧ t.mem = s.mem) ∧
        (e ≠ .m → c.loaded = true → c.fail = none → ends (.commandEnd p e) fun t =>
          (t.slot p).flags = (s.slot p).flags ||| c.flags) ∧
        (∀ n x, e = .m → c.loaded = true → c.fail = none → c.pops = [(n, x)] → c.claims = [] → Sys2Proof.Machine.clusterOf c.pos = cl →
          (∀ j, (k.ring j).claim = 0) → (k.ring n).len ≠ 0 → ends (.commandEnd p e) fun t =>
            (R t n).head = ((k.ring n).head + x) % (k.ring n).len ∧ (R t n).avail = (k.ring n).avail - x ∧
            ∀ j, j ≠ n → R t j = R s j)))

/-- Commands of the copy and gather engines. `copy`, `copy2` and `tfill` start with writes that cover exactly their destination,
byte for byte from the source or the pattern, their scratchpad destination being emptied at the start; each piece of work then
performs one write, and once none is left the written words become full, which is the model's reading (entry 29). An engine takes up
the command whose turn it is, and searches next from the slot behind. `copy.q` stores the quantised rows of its source with their
scales as a version; a load of `copy.v` writes the version that arrives, and a store makes its version request. `gather`
writes each indexed row; `gdist` writes the best of its scored candidates and, without INIT, of the list at OUT, in list order, and
fails where a row cannot be read (for a row outside its space that is the model's choice, entry 82); `topk.merge` merges two lists.
A range that breaks a rule fails with COPY_RANGE and has no effect. -/
def Sys2Proof.Claims.CopyCommands : Prop :=
  ∀ (s : Sys2Proof.Machine.State) (p : Nat) (c : Sys2Proof.Machine.Cmd),
    let cl := Sys2Proof.Machine.clusterOf p
    let k := s.cluster cl
    let W (i : Nat) := Sys2Proof.Claims.word c i
    let L (i : Nat) := Sys2Proof.Claims.loc c i
    let S (i : Nat) := Sys2Proof.Claims.locSpace c i
    let ready (e : Sys2Proof.Engine) (opc : Nat) : Prop :=
      Sys2Proof.Claims.Ready s p e opc c ∧ c.started = false ∧ c.paused = false ∧ s.myTurn p e = true ∧ k.locks = []
    let inSpace (i n : Nat) : Prop := L i % 4 = 0 ∧ ((S i = 1 ∧ L i + n ≤ 2 ^ 23) ∨ (S i = 0 ∧ L i + n ≤ 2 ^ 56))
    let inSp (o n : Nat) : Prop := o % 4 = 0 ∧ o + n ≤ 2 ^ 23
    let goes (e : Sys2Proof.Engine) (opc : Nat) : Prop :=
      Sys2Proof.Claims.Ready s p e opc c ∧ c.started = true ∧ c.paused = false ∧ Sys2Proof.Machine.clusterOf c.pos = cl
    (ready .c 0x20 →
      (W 5 % 4 = 0 → 4 ≤ W 5 → W 5 ≤ 2 ^ 24 → inSpace 1 (W 5) → inSpace 3 (W 5) → W 0 / 2 ^ 12 % 2 ^ 2 = 0 →
        Sys2Proof.Claims.Started (.copy p) s p .c fun t c' =>
          Sys2Proof.Claims.Covers c'.out (S 3 == 1) (L 3) (W 5) (Sys2Proof.Claims.fromLoc c 1) ∧ c'.loaded = true ∧
          (S 3 = 1 → Sys2Proof.Claims.Emptied s t cl (L 3) (W 5))) ∧
      (S 1 < 2 → S 3 < 2 → W 5 % 4 ≠ 0 ∨ W 5 = 0 ∨ 2 ^ 24 < W 5 → Sys2Proof.Claims.TurnedDown (.copy p) s p .c c 0xA5)) ∧
    (ready .c 0x21 → let ss := W 6 % 2 ^ 16
      let ds := W 6 / 2 ^ 16
      W 5 % 4 = 0 → 4 ≤ W 5 → 1 ≤ W 7 → ss % 4 = 0 → ds % 4 = 0 → (1 < W 7 → W 5 ≤ ds) → inSpace 1 (ss * (W 7 - 1) + W 5) →
      inSpace 3 (ds * (W 7 - 1) + W 5) →
      Sys2Proof.Claims.Started (.copy2 p) s p .c fun _ c' => c'.loaded = true ∧
        ∀ i, i < W 7 → ∃ l : List Sys2Proof.Machine.Put, (∀ x ∈ l, x ∈ c'.out) ∧
          Sys2Proof.Claims.Covers l (S 3 == 1) (L 3 + ds * i) (W 5) fun o => Sys2Proof.Claims.fromLoc c 1 (ss * i + o)) ∧
    (ready .c 0x24 → W 3 % 4 = 0 → 4 ≤ W 3 → W 3 ≤ 2 ^ 24 → inSpace 1 (W 3) →
      Sys2Proof.Claims.Started (.tfill p) s p .c fun t c' => (t.cluster cl).copyTurn = (p % 128 + 1) % 128 ∧
        (∀ x ∈ c'.out, x.sp = (S 1 == 1) ∧ x.src = .bytes ((List.range (x.n / 4)).flatMap fun _ => Sys2Proof.Machine.toBytes 4 (W 4))) ∧
        (∀ b, L 1 ≤ b → b < L 1 + W 3 → ∃ x ∈ c'.out, x.dst ≤ b ∧ b < x.dst + x.n)) ∧
    (∀ x data, Sys2Proof.Claims.Ready s p .c 0x24 c → c.started = true → c.paused = false → Sys2Proof.Machine.clusterOf c.pos = cl →
      c.marks = [] → x.sp = true → x.dst % 4 = 0 → x.n % 4 = 0 →
      (c.out = [x] → x.src = .bytes data → data.length = x.n → k.locks = [] → k.spGone x.dst x.n = false →
        ∃ t, Sys2Proof.Machine.exec (.tfill p) s = .next t ∧ (t.cluster cl).spBytes x.dst x.n = data ∧
          (∀ w, (t.cluster cl).full w = k.full w) ∧
          (∀ w, w < x.dst / 4 ∨ (x.dst + x.n) / 4 ≤ w → (t.cluster cl).spWord w = k.spWord w) ∧
          ((t.slot p).engine .c).queue.head? = some { c with out := [], wrote := c.wrote ++ [x] } ∧ t.mem = s.mem) ∧
      (c.out = [] → c.wrote = [x] →
        ∃ t, Sys2Proof.Machine.exec (.tfill p) s = .next t ∧ (∀ w, (t.cluster cl).spWord w = k.spWord w) ∧
          (∀ w, (t.cluster cl).full w = (k.full w || decide (x.dst / 4 ≤ w ∧ w < (x.dst + x.n) / 4))) ∧
          ((t.slot p).engine .c).queue.head? = some { c with wrote := [] } ∧ t.mem = s.mem)) ∧
    (ready .c 0x22 → inSpace 1 16384 → W 5 ≠ 0 → Sys2Proof.Claims.Started (.copyQ p) s p .c fun _ c' => c' = { c with started := true, pos := p }) ∧
    (goes .c 0x22 → c.loaded = false → S 1 < 2 →
      let h : Sys2Proof.Word := BitVec.ofNat 64 (W 3 + 2 ^ 32 * W 4)
      let fails (sub : Nat) : Prop := Sys2Proof.Claims.Failing (.copyQ p) s p .c c sub
      let handle := s.engHandle (Sys2Proof.Machine.dieOf c.pos) (s.slot p).asid.toNat h
      (c.tile = none →
        (∀ k, handle = .error k → fails k) ∧
        (∀ d, handle = .ok d →
          let fits : Prop := d.scaled = true ∧ (d.fmt = 3 ∨ d.fmt = 4) ∧ d.rows = 64
          (¬ fits → fails 0x63) ∧ (fits → W 3 % 2 ^ 24 = 0 → fails 0x60) ∧
          (∀ b, fits → W 3 % 2 ^ 24 ≠ 0 → d.pkg = none →
            s.engRead p .c c.pos (Sys2Proof.Claims.fromLoc c 1 0) 16384 = (s, .ok b) →
            let row (i : Nat) := Sys2Proof.Fp.quantRow (if d.fmt = 3 then .e4m3 else .e5m2)
              ((List.range 64).map fun j => Sys2Proof.Machine.ofBytes (Sys2Proof.Claims.cut b (256 * i + 4 * j) 4))
              (BitVec.ofNat 8 d.sbase).toInt
            ∃ t c' r data side, Sys2Proof.Machine.exec (.copyQ p) s = .next t ∧
              ((t.slot p).engine .c).queue.head? = some c' ∧ c'.tile = some s.seq ∧ c'.fail = none ∧
              (∀ n, n < 5 → c'.flags.getLsbD n = (List.range 64).any fun i => (row i).2.2.getLsbD n) ∧
              t.tiles.get? s.seq = some r ∧ r.h = h ∧ r.st = .sent ∧ r.kind = .engStore .c c.ticket (W 5) none none data side ∧
              (∀ i j, i < 64 → j < 64 → data.getD (64 * i + j) 0 = BitVec.ofNat 8 ((row i).2.1.getD j 0)) ∧
              (∀ i, i < 64 → side.getD i 0 = BitVec.ofInt 8 (row i).1) ∧ t.mem = s.mem))) ∧
      (∀ n r v x y, c.tile = some n → s.tiles.get? n = some r → r.st = .answered v x y →
        ∃ t, Sys2Proof.Machine.exec (.copyQ p) s = .next t ∧ t.tiles = s.tiles.del n ∧ t.mem = s.mem ∧ t.clusters = s.clusters ∧
          ((t.slot p).engine .c).queue.head? = some { c with tile := none, loaded := true })) ∧
    (goes .c 0x23 → c.loaded = false → ∀ n r v d b, c.tile = some n → s.tiles.get? n = some r → r.st = .answered v d b →
      (W 0 / 2 ^ 13 % 2 = 0 → ∃ t c', Sys2Proof.Machine.exec (.copyVLoad p) s = .next t ∧
        ((t.slot p).engine .c).queue.head? = some c' ∧ c'.loaded = true ∧ c'.tile = none ∧ t.tiles = s.tiles.del n ∧
        t.mem = s.mem ∧ t.clusters = s.clusters ∧ c'.out.length = c.out.length ∧
        ∀ (j : Nat) (x : Sys2Proof.Machine.Put) (o : Nat), c.out[j]? = some x → x.src = .later o → o < (d ++ b).length →
          c'.out[j]? = some { x with src := .bytes (Sys2Proof.Claims.cut (d ++ b ++
            List.replicate ((c.scale.map (·.2)).getD 0) 0) o x.n) }) ∧
      (W 0 / 2 ^ 13 % 2 = 1 → ∃ t c', Sys2Proof.Machine.exec (.copyVStore p) s = .next t ∧
        ((t.slot p).engine .c).queue.head? = some c' ∧ c'.loaded = true ∧ c'.tile = none ∧ t.mem = s.mem ∧
        t.clusters = s.clusters)) ∧
    (∀ d, let h : Sys2Proof.Word := BitVec.ofNat 64 (W 1 + 2 ^ 32 * W 2)
      s.engHandle (Sys2Proof.Machine.dieOf p) (s.slot p).asid.toNat h = .ok d → d.pkg = none → S 3 = 1 → L 3 % 4096 = 0 →
      L 3 + 4096 ≤ 2 ^ 23 → W 6 = 0 →
      (ready .c 0x23 → W 0 / 2 ^ 13 % 2 = 0 → Sys2Proof.Claims.Started (.copyVLoad p) s p .c fun t c' =>
        c'.tile = some s.seq ∧ Sys2Proof.Claims.Emptied s t cl (L 3) 4096 ∧
        ∃ r, t.tiles.get? s.seq = some r ∧ r.h = h ∧ r.kind = .engLoad .c c.ticket (decide (W 0 / 2 ^ 12 % 2 = 1))) ∧
      (ready .c 0x23 → W 0 / 2 ^ 13 % 2 = 1 → W 1 % 2 ^ 24 ≠ 0 → W 5 ≠ 0 → k.spGone (L 3) 4096 = false →
        Sys2Proof.Claims.Started (.copyVStore p) s p .c fun t c' => c'.tile = some s.seq ∧
          (t.cluster cl).locked (L 3 / 4096) = true ∧ ∃ r, t.tiles.get? s.seq = some r ∧ r.h = h ∧
            ∃ sc side, r.kind = .engStore .c c.ticket (W 5) (some (L 3 / 4096)) sc [] side)) ∧
    (ready .g 0x30 → 1 ≤ W 4 → W 4 ≤ 4096 → W 5 % 4 = 0 → 4 ≤ W 5 → W 5 ≤ 4096 → inSpace 1 4 → inSp (W 3) (4 * W 4) →
      inSp (W 6) (W 4 * W 5) → k.spBad (W 3) (4 * W 4) = false → k.spGone (W 3) (4 * W 4) = false →
      Sys2Proof.Claims.Started (.gather p) s p .g fun _ c' => c'.loaded = true ∧
        ∀ i, i < W 4 → ∃ l : List Sys2Proof.Machine.Put, (∀ x ∈ l, x ∈ c'.out) ∧
          Sys2Proof.Claims.Covers l true (W 6 + W 5 * i) (W 5) fun o =>
            Sys2Proof.Claims.fromLoc c 1 ((k.spWord ((W 3 + 4 * i) / 4)).toNat * W 5 + o)) ∧
    (ready .g 0x31 → let es := if W 0 / 2 ^ 12 % 2 ^ 2 = 0 then 2 else 1
      1 ≤ W 5 % 2 ^ 16 → 1 ≤ W 5 / 2 ^ 16 → W 5 / 2 ^ 16 ≤ 256 → inSpace 1 4 → W 3 / 2 ^ 31 % 2 = 1 →
      inSp (W 4) (16 * (W 5 / 2 ^ 16) * es) → inSp (W 6 % 2 ^ 23) (8 * (W 6 / 2 ^ 23 % 2 ^ 8 + 1)) →
      Sys2Proof.Claims.Started (.gdist p) s p .g fun _ c' => c' = { c with started := true, pos := p }) ∧
    (goes .g 0x31 → c.loaded = false → S 1 < 2 →
      let ef := W 0 / 2 ^ 12 % 2 ^ 2
      let dim := 16 * (W 5 / 2 ^ 16)
      let bytes := dim * (if ef = 0 then 2 else 1)
      let n := W 5 % 2 ^ 16
      let kk := W 6 / 2 ^ 23 % 2 ^ 8 + 1
      let dst := W 6 % 2 ^ 23
      let idx (i : Nat) := if W 3 / 2 ^ 31 % 2 = 1 then (W 7 + i) % 2 ^ 32 else (k.spWord ((W 3 % 2 ^ 23 + 4 * i) / 4)).toNat
      let read (i : Nat) := s.engRead p .g c.pos (Sys2Proof.Claims.fromLoc c 1 (idx i * bytes)) bytes
      let elem (b : List Sys2Proof.Byte) (j : Nat) : Sys2Proof.Fp.Val :=
        if ef = 0 then Sys2Proof.Fp.bf16.val (Sys2Proof.Machine.ofBytes (Sys2Proof.Claims.cut b (2 * j) 2))
        else (if ef = 1 then Sys2Proof.Fp.e4m3 else Sys2Proof.Fp.e5m2).val
          (Sys2Proof.Machine.ofBytes (Sys2Proof.Claims.cut b j 1))
      let old := if W 0 / 2 ^ 14 % 2 = 1 then [] else k.topAt dst kk
      (k.spBad (W 4) bytes = true → Sys2Proof.Claims.Failing (.gdist p) s p .g c 0x45) ∧
      (k.spPoison = [] → k.retired = [] →
        (∀ x a, 0 < n → read 0 = (s, .error (x, a)) → 1 < x → Sys2Proof.Claims.Failing (.gdist p) s p .g c x) ∧
        (∀ row : Nat → List Sys2Proof.Byte, (∀ i, i < n → read i = (s, .ok (row i))) → Sys2Proof.Machine.topOk old = true →
          let score (i : Nat) := Sys2Proof.Fp.dot ((List.range dim).map fun j => (elem (k.spBytes (W 4) bytes) j, elem (row i) j)) 0
          ∃ t c', Sys2Proof.Machine.exec (.gdist p) s = .next t ∧ ((t.slot p).engine .g).queue.head? = some c' ∧
            c'.loaded = true ∧ c'.fail = none ∧ t.mem = s.mem ∧ t.clusters = s.clusters ∧
            (∀ j, j < 5 → c'.flags.getLsbD j = (List.range n).any fun i => (score i).2.getLsbD j) ∧
            ∃ l : List (Nat × Nat), l.Perm (old ++ (List.range n).filterMap fun i =>
                if Sys2Proof.Claims.nan Sys2Proof.Fp.f32 (score i).1 then none else some ((score i).1, idx i)) ∧
              (l.Pairwise fun x y => Sys2Proof.Machine.topBefore y x = false) ∧
              ∀ j, j < kk → let z := l.getD j (0xFF800000, 0xFFFFFFFF)
                (∃ x ∈ c'.out, x.sp = true ∧ x.dst = dst + 8 * j ∧ x.n = 4 ∧ x.src = .bytes (Sys2Proof.Machine.toBytes 4 z.1)) ∧
                (∃ x ∈ c'.out, x.sp = true ∧ x.dst = dst + 8 * j + 4 ∧ x.n = 4 ∧
                  x.src = .bytes (Sys2Proof.Machine.toBytes 4 z.2))))) ∧
    (ready .g 0x32 → let ka := W 4 % 2 ^ 8 + 1
      let kb := W 4 / 2 ^ 8 % 2 ^ 8 + 1
      let ko := W 4 / 2 ^ 16 % 2 ^ 8 + 1
      inSp (W 1) (8 * ka) → inSp (W 2) (8 * kb) → inSp (W 3) (8 * ko) → k.spPoison = [] → k.retired = [] →
      let a := k.topAt (W 1) ka
      let b := k.topAt (W 2) kb
      Sys2Proof.Machine.topOk a = true → Sys2Proof.Machine.topOk b = true →
      Sys2Proof.Claims.Started (.topkMerge p) s p .g fun _ c' => c'.loaded = true ∧
        ∃ l : List (Nat × Nat), l.Perm (a ++ b) ∧ (l.Pairwise fun x y => Sys2Proof.Machine.topBefore y x = false) ∧
          ∀ j, j < ko → let z := l.getD j (0xFF800000, 0xFFFFFFFF)
            (∃ x ∈ c'.out, x.sp = true ∧ x.dst = W 3 + 8 * j ∧ x.n = 4 ∧ x.src = .bytes (Sys2Proof.Machine.toBytes 4 z.1)) ∧
            (∃ x ∈ c'.out, x.sp = true ∧ x.dst = W 3 + 8 * j + 4 ∧ x.n = 4 ∧ x.src = .bytes (Sys2Proof.Machine.toBytes 4 z.2)))

/-- Commands of the matrix, copy and gather engines: the statements `MatrixCommands`, `CopyCommands` above. -/
def Obligations.EngineCommands : Prop :=
  Sys2Proof.Claims.MatrixCommands ∧ Sys2Proof.Claims.CopyCommands

/-! ### Faults on their way, pre-emption, debugging, migration (09, 13, 16) -/

namespace Sys2Proof.Claims
open Sys2Proof.Machine

/-- A step answers a state of which `f` holds. -/
def Gives (i : Instr) (s : State) (f : State → Prop) : Prop := ∃ t, exec i s = .next t ∧ f t

/-- The wait of a fault message stands in the list of its router. -/
def Joined (m : FaultMsg) (t : State) : Prop :=
  ∀ w e q, m.who = some (w, e, q) → ∃ z ∈ t.merged, z.router = m.router ∧ z.asid = m.asid ∧ z.page = m.page ∧ z.who = w ∧
    z.entry = e ∧ z.seq = q

/-- A wake for a page is on its way to a router. -/
def WakeTo (t : State) (r : Nat) (w : WakeMsg) : Prop := ∃ k, t.wakes.get? k = some { w with router := r }

end Sys2Proof.Claims

/-- Fault messages climb and merge, and wakes descend: a message whose page has an entry at its router joins it; another one, while
the table has room, makes an entry and climbs one router on, or writes a page request at the root of its fault home; a full table
or a full queue holds it back. A wake frees the entry of its router and goes on to the ports that it lists; the last list that a die
root gathers re-queues the parked task with its answer. -/
def Obligations.FaultTree : Prop :=
  ∀ (s : Sys2Proof.Machine.State) (n : Nat),
    (∀ m, s.faultMsgs.get? n = some m →
      (∀ e ∈ s.faultMsgs, e.1 < n → ¬ (e.2.router = m.router ∧ e.2.port = m.port)) →
      let x := s.merge m.router m.asid m.page
      let held := (s.merges.filter fun y => y.router == m.router).length
      let goes (f : Sys2Proof.Machine.State → Prop) : Prop := Sys2Proof.Claims.Gives (.faultMessage n) s fun t =>
        Sys2Proof.Claims.Joined m t ∧ t.slots = s.slots ∧ f t
      let made (t : Sys2Proof.Machine.State) : Prop :=
        t.merges = s.merges ++ [{ router := m.router, asid := m.asid, page := m.page, ports := [m.port], first := m }]
      (∀ y, x = some y → goes fun t => t.faultMsgs = s.faultMsgs.del n ∧ t.mem = s.mem ∧
        ∃ z ∈ t.merges, z.router = m.router ∧ z.asid = m.asid ∧ z.page = m.page ∧ m.port ∈ z.ports ∧ ∀ k ∈ y.ports, k ∈ z.ports) ∧
      (x = none → Sys2Proof.Machine.routerSize m.router ≤ held → Sys2Proof.Machine.exec (.faultMessage n) s = .next s) ∧
      (x = none → held < Sys2Proof.Machine.routerSize m.router → let home := s.faultHome m.asid m.page
        let climbs (r k : Nat) : Prop := goes fun t => made t ∧ t.mem = s.mem ∧
          ∃ j, t.faultMsgs.get? j = some { m with router := r, port := k, who := none }
        (m.router < 128 → climbs (128 + m.router / 16) (m.router % 16)) ∧
        (128 ≤ m.router → m.router < 136 → m.router ≠ 128 + home →
          climbs (136 + (m.router - 128) / 4) ((m.router - 128) % 4)) ∧
        (136 ≤ m.router → home / 4 = m.router - 136 → climbs (128 + home) 16) ∧
        (136 ≤ m.router → home / 4 ≠ m.router - 136 → climbs (136 + (1 - (m.router - 136))) 4) ∧
        (m.router = 128 + home →  home < 8 →
          ((s.die home).fqFull = true → Sys2Proof.Machine.exec (.faultMessage n) s = .next s) ∧
          ((s.die home).fqFull = false → goes fun t => made t ∧ t.faultMsgs = s.faultMsgs.del n ∧
            (t.die home).fqTail = (s.die home).fqTail + 1)))) ∧
    (∀ w, s.wakes.get? n = some w →
      (s.merge w.router w.asid w.page = none → Sys2Proof.Machine.exec (.wake n) s = .next { s with wakes := s.wakes.del n }) ∧
      (∀ m, s.merge w.router w.asid w.page = some m →
        (136 ≤ w.router → Sys2Proof.Claims.Gives (.wake n) s fun t => t.merges = s.merges.erase m ∧ t.slots = s.slots ∧ t.mem = s.mem ∧
          ∀ q ∈ m.ports, Sys2Proof.Claims.WakeTo t (if q = 4 then 136 + (1 - (w.router - 136)) else 128 + (w.router - 136) * 4 + q) w) ∧
        (128 ≤ w.router → w.router < 136 → (∃ q ∈ m.ports, q < 16) → Sys2Proof.Claims.Gives (.wake n) s fun t =>
          t.merges = s.merges.erase m ∧ t.slots = s.slots ∧ t.mem = s.mem ∧
          (∀ q ∈ m.ports, q < 16 → Sys2Proof.Claims.WakeTo t ((w.router - 128) * 16 + q) w) ∧
          (16 ∈ m.ports → Sys2Proof.Claims.WakeTo t (136 + (w.router - 128) / 4) w)) ∧
        (∀ c x v cb, w.router < 128 → s.merged = [x] → x.router = w.router → x.asid = w.asid → x.page = w.page → x.who = .task cb →
          s.collects = [c] → c.die = w.router / 16 → c.asid = w.asid → c.page = w.page → c.ref = w.ref →
          c.pending = [w.router] → c.got = [] → s.saved.get? cb = some v →
          Sys2Proof.Claims.Gives (.wake n) s fun t => t.merges = s.merges.erase m ∧ t.merged = [] ∧ t.collects = [] ∧
            (∃ u, t.saved.get? cb = some u ∧ u.pos = v.pos ∧ (∀ f, v.fault = some f → u.fault = some { f with refused := w.ref })) ∧
            ∃ k r, t.recs.get? k = some r ∧ r.r.resume = some cb ∧ r.die = Sys2Proof.Machine.dieOf v.pos)))

/-- Pre-emption: the request of a die ends at once with the status of a target that has no place for it, and otherwise, at an
instruction boundary at PRIV 0, takes the task out of its slot, or with WHOLE every member of its crew that stands in its slot, its
image at its control block, which the result names: key, path, header, PC, STATE and ASID, spawn index, full bits, flags, frame and
dirty registers stand there, and clean registers keep what stood there. That STATUS 2 comes before 1 is the model's reading (entry
27), and what R336 leaves open of the image is entry 28's. The debugger's operations halt, resume, step or save the slot that
`ctl.dbgctl` names, and end with their status; a save of a slot without a control block ends with STATUS 1, which is the model's
choice (entry 26). -/
def Sys2Proof.Claims.PreemptAndDebug : Prop :=
  ∀ (s : Sys2Proof.Machine.State) (die : Nat),
    let x := s.die die
    (let p := die * 2048 + x.preempt.toNat / 4 % 2 ^ 11
     let y := s.slot p
     let whole := x.preempt.getLsbD 25
     let ends (k : Nat) : Prop := Sys2Proof.Claims.Gives (.preemptRequest die) s fun t =>
       (t.die die).pres.toNat / 2 ^ 60 = k ∧ t.slots = s.slots ∧ t.mem = s.mem
     (x.pres.getLsbD 63 = false → Sys2Proof.Machine.exec (.preemptRequest die) s = .next s) ∧
     (x.pres.getLsbD 63 = true →
       (p % 16 = 15 ∨ p % 2048 = 13 ∨ y.use = .skim → ends 2) ∧
       (p % 16 ≠ 15 → p % 2048 ≠ 13 → y.use ≠ .skim →
         (y.use ≠ .task → ends 1) ∧
         (y.use = .task → whole = true → y.crew = false → ends 4) ∧
         (y.use = .task → whole = false →
           (s.preemptible p = false → Sys2Proof.Machine.exec (.preemptRequest die) s = .next s) ∧
           (s.preemptible p = true → Sys2Proof.Claims.Gives (.preemptRequest die) s fun t =>
             (t.slot p).use = (if y.crew then .held else .free) ∧ (∃ v, t.saved.get? y.block = some v ∧ v.pos = p) ∧
             (t.die die).pres.toNat / 2 ^ 60 =
               (if x.preempt.getLsbD 26 = true ∧ y.dirtyT.length > x.poolTiles then 3 else 0) ∧
             (y.block % 64 = 0 → y.block < 2 ^ 56 → (t.die die).pres.toNat % 2 ^ 60 = y.block) ∧
             (let u := (s.settleFills p).modSlot p fun z => { z with eng := z.eng.map Sys2Proof.Machine.Eng.passDiscarded }
              let z := u.slot p
              let gen := (u.physNum (y.block + 0x50) 8 + 1) % 2 ^ 64
              let w := (u.putFields y.block (u.imageHead p 2 gen 0
                (Sys2Proof.Machine.sortIds (z.accs.map (·.id) ++ (z.redo.map (·.id)).toList)) (u.bankOf p) ++ z.imageRegs ++
                u.imageChans p)).saveWritten p
              x.preempt.getLsbD 26 = false → u.withdrawals y.tid = [] → t.mem = w.mem ∧ t.lines = w.lines) ∧
             (x.preempt.getLsbD 26 = false → s.withdrawals y.tid = [] → y.accs = [] →
               (∀ n : Fin 4, (s.chan (Sys2Proof.Machine.coreOf p) n).en = false) →
               (∀ o, o < 0x2000 → (∃ d, s.phys (y.block + o) = .dram d) ∧ s.line 0 (y.block + o) = none) →
               let old (o n : Nat) := Sys2Proof.Machine.ofBytes (s.mem.bytes (y.block + o) n)
               let at_ (o n : Nat) := Sys2Proof.Machine.ofBytes (t.mem.bytes (y.block + o) n)
               at_ 0 8 = y.key.toNat ∧ at_ 8 8 = y.path.toNat ∧ at_ 0x10 8 = y.hdr.toNat ∧ at_ 0x18 8 = y.pc.toNat ∧
               at_ 0x20 8 = y.asid.toNat * 2 ^ 16 + 2 ∧ at_ 0x28 8 = y.idx.toNat ∧ at_ 0x40 8 = y.token.toNat ∧
               at_ 0x50 8 = (old 0x50 8 + 1) % 2 ^ 64 ∧ at_ 0xF00 8 = y.sFull.toNat ∧ at_ 0xF08 8 = y.vFull.toNat ∧
               at_ 0xF28 8 = y.fpcsr.toNat ∧ at_ 0xF30 8 = y.epc.toNat ∧ at_ 0xF38 8 = y.cause.toNat ∧
               at_ 0xF40 8 = y.tval.toNat ∧ at_ 0xF48 8 = y.estat.toNat ∧ at_ 0xF50 8 = y.escratch.toNat ∧
               (∀ r : Sys2Proof.SReg, r ≠ 0 → at_ (0x100 + 8 * r.val) 8 =
                 if y.dirtyS.getLsbD r.val then (y.reg r).toNat else old (0x100 + 8 * r.val) 8) ∧
               (∀ r : Sys2Proof.VReg, at_ (0x300 + 64 * r.val) 64 =
                 if y.dirtyV.getLsbD r.val then y.v[r].toNat else old (0x300 + 64 * r.val) 64)))) ∧
         (y.use = .task → whole = true → y.crew = true →
           let vs := ((List.range 8).map (Sys2Proof.Machine.crewSlot (s.crewKey p))).filter fun q =>
             (s.slot q).use == .task && (s.crew (s.crewKey p)).live.getLsbD (Sys2Proof.Machine.memberOf q)
           ((∃ q ∈ vs, s.preemptible q = false) → Sys2Proof.Machine.exec (.preemptRequest die) s = .next s) ∧
           ((∀ q ∈ vs, s.preemptible q = true) → (∀ q ∈ vs, ∀ r ∈ vs, (s.slot q).block = (s.slot r).block → q = r) →
             Sys2Proof.Claims.Gives (.preemptRequest die) s fun t =>
               (∀ q ∈ vs, (t.slot q).use = (if (s.slot q).crew then .held else .free) ∧
                 ∃ v, t.saved.get? (s.slot q).block = some v ∧ v.pos = q) ∧
               (t.die die).pres.toNat / 2 ^ 60 =
                 (if (x.preempt.getLsbD 26 && vs.any fun q => decide (x.poolTiles < (s.slot q).dirtyT.length)) then 3
                  else 0)))))) ∧
    (let p := die * 2048 + x.dbgctl.toNat / 4 % 2 ^ 11
     let y := s.slot p
     let eh := x.dbgctl.getLsbD 59
     let i (k : Nat) : Sys2Proof.Instr :=
       if k = 1 then .debugHalt die else if k = 2 then .debugResume die else if k = 3 then .debugStep die else .debugSnap die
     let ends (k st : Nat) (f : Sys2Proof.Machine.State → Prop) : Prop := Sys2Proof.Claims.Gives (i k) s fun t =>
       (t.die die).dbgctl.getLsbD 63 = false ∧ (t.die die).dbgctl.toNat / 2 ^ 56 % 8 = st ∧ (∀ q, q ≠ p → t.slot q = s.slot q) ∧ f t
     ∀ k, 1 ≤ k → k ≤ 4 →
       (x.dbgctl.getLsbD 63 = false ∨ x.dbgctl.toNat / 2 ^ 60 % 8 ≠ k → Sys2Proof.Machine.exec (i k) s = .next s) ∧
       (x.dbgctl.getLsbD 63 = true → x.dbgctl.toNat / 2 ^ 60 % 8 = k →
         (y.live = false ∨ (k = 4 ∧ y.block = 0) → ends k 1 fun t => t.slots = s.slots ∧ t.mem = s.mem) ∧
         (y.live = true → (k = 4 → y.block ≠ 0) →
           (k ≠ 1 → y.halted = false → ends k 3 fun t => t.slots = s.slots ∧ t.mem = s.mem) ∧
           (k = 1 → ends k 0 fun t => t.slot p = { y with halted := true, stepOne := false, ehold := eh } ∧ t.mem = s.mem) ∧
           (k = 2 → y.halted = true → ends k 0 fun t =>
             t.slot p = { y with halted := false, stepOne := false, ehold := eh } ∧ t.mem = s.mem) ∧
           (k = 3 → y.halted = true → ends k 0 fun t =>
             t.slot p = { y with halted := false, stepOne := true, ehold := eh } ∧ t.mem = s.mem) ∧
           (k = 4 → y.halted = true → ends k 0 fun t => t.slot p = { y with dirtyS := 0, dirtyV := 0 } ∧
             let ids := Sys2Proof.Machine.sortIds (y.accs.map (·.id) ++ (y.redo.map (·.id)).toList ++
               ((s.withdrawals y.tid).filter fun e => !e.2.transient).map (·.1))
             let w := s.putFields y.block (s.imageHead p 0 ((s.physNum (y.block + 0x50) 8 + 1) % 2 ^ 64) 0 ids (s.bankOf p) ++
               y.imageRegs ++ s.imageChans p)
             t.mem = w.mem ∧ t.lines = w.lines))))

/-- A purge of a tensor frees its names that hold no version and no waiter and counts the others, among them one at which a store
waits, which is the model's choice (entry 61). A move of a page takes the next
descriptor of its die's queue, locks its page, copies its frame, and then sets the new frame in one step: in the page table's
TLB entries, with the lock gone and the queue's head one on; a descriptor that breaks a rule is answered and passed. A quiesced die moves
nothing. -/
def Sys2Proof.Claims.PurgeAndMigration : Prop :=
  ∀ (s : Sys2Proof.Machine.State) (die : Nat),
    let x := s.die die
    let tensor := x.vpurge.toNat % 2 ^ 12
    let mine (n : Sys2Proof.Machine.Name) : Bool := n.die == die && n.tensor == tensor
    let used (n : Sys2Proof.Machine.Name) : Bool := !(n.slots.isEmpty && n.waiters.isEmpty && n.stores.isEmpty)
    (x.vpurge.getLsbD 63 = false → Sys2Proof.Machine.exec (.vpurgeDone die) s = .next s) ∧
    (x.vpurge.getLsbD 63 = true → Sys2Proof.Claims.Gives (.vpurgeDone die) s fun t =>
      (t.die die).vpurge.getLsbD 63 = false ∧ (∀ e ∈ t.names, e ∈ s.names) ∧ (∀ e ∈ t.names, mine e.2 = true → used e.2 = true) ∧
      ((∀ e ∈ s.names, mine e.2 = true → used e.2 = true) → t.names = s.names) ∧
      (t.die die).vpurge.toNat / 2 ^ 24 % 2 ^ 20 = Nat.min 0xFFFFF ((s.names.filter fun e => mine e.2 && used e.2).length) ∧
      t.slots = s.slots) ∧
    (x.quiet = true → Sys2Proof.Machine.exec (.migrationMove die) s = .next s ∧
      Sys2Proof.Machine.exec (.migrationSwitch die) s = .next s) ∧
    (x.mig = none → x.quiet = false →
      (x.migHead = x.migTail → Sys2Proof.Machine.exec (.migrationMove die) s = .next s) ∧
      (x.migHead ≠ x.migTail → s.up.getLsbD die = true →
        let a := x.migAddr x.migHead.toNat
        let w0 := s.physNum a 8
        let w1 := s.physNum (a + 8) 8
        let codes := s.moveCodes die w0 w1 (s.physNum (a + 24) 8)
        let page := w0 / 2 ^ 16 % 2 ^ 40
        (s.feature 4 = false ∨ codes ≠ [] → Sys2Proof.Claims.Gives (.migrationMove die) s fun t => (t.die die).mig = none ∧
          (t.die die).migHead.toNat = (x.migHead.toNat + 1) % x.migSize ∧ t.locks = s.locks ∧ t.slots = s.slots) ∧
        (codes = [] → s.locked (w0 % 2 ^ 12) (page * 2 ^ 16) = false → Sys2Proof.Claims.Gives (.migrationMove die) s fun t =>
          t.locks = s.locks ++ [(w0 % 2 ^ 12, page, 1)] ∧ t.mem = s.mem ∧ t.slots = s.slots ∧
          ∃ m, (t.die die).mig = some m ∧ m.asid = w0 % 2 ^ 12 ∧ m.page = page ∧ m.dest = w1 / 2 ^ 16 % 2 ^ 40 * 2 ^ 16 ∧
            m.copied = false))) ∧
    (∀ m a e, x.mig = some m → x.quiet = false → s.leafOf die m.asid m.page = some (2, a, e) →
      (m.copied = false → s.pageBusy m.asid m.page = false → Sys2Proof.Claims.Gives (.migrationMove die) s fun t =>
        (t.die die).mig = some { m with copied := true } ∧ t.slots = s.slots ∧
        t.mem.bytes m.dest 65536 = (s.recallPage m.asid m.page).mem.bytes (e / 2 ^ 16 % 2 ^ 40 * 2 ^ 16) 65536) ∧
      (m.copied = false → Sys2Proof.Machine.exec (.migrationSwitch die) s = .next s) ∧
      (m.copied = true → Sys2Proof.Claims.Gives (.migrationSwitch die) s fun t => (t.die die).mig = none ∧
        (t.die die).migHead.toNat = (x.migHead.toNat + 1) % x.migSize ∧ t.locks = s.locks.erase (m.asid, m.page, 1) ∧
        (∀ y ∈ t.tlb, y.asid = m.asid → y.page = m.page → y.log2 = 0 → y.frame = m.dest) ∧ t.slots = s.slots))

/-- Pre-emption, debug operations, purges and page moves: the statements `PreemptAndDebug`, `PurgeAndMigration` above. -/
def Obligations.PreemptAndMigrate : Prop :=
  Sys2Proof.Claims.PreemptAndDebug ∧ Sys2Proof.Claims.PurgeAndMigration

/-! ### The host (15) -/

namespace Sys2Proof.Claims
open Sys2Proof.Machine

/-- What a step of the host does to the units of the package: nothing. -/
def UnitsKept (s t : State) : Prop :=
  t.slots = s.slots ∧ t.cores = s.cores ∧ t.crews = s.crews ∧ t.clusters = s.clusters ∧ t.mem = s.mem

/-- Word `k` of a slot of the record window. -/
def winWord (s : State) (n k : Nat) : Nat := ((s.winSlot n).words.toList.getD k 0).toNat

end Sys2Proof.Claims

/-- The host's registers: FEATACC0 to 2 stage, FEATACC3 commits the published features of the set once, with bit 0; PKGNUM is
written once; routes, switch marks, and window slots' words are written whole, and those of watches but for the reserved bits of
w1. Nothing else is written, no size but 8 bytes takes effect, and nothing at all while the device does not answer. A read gives
the published and the accepted features, the package's number, the dies in service, routes, the status of a watch and of a window
slot, and 0 where nothing is listed. -/
def Sys2Proof.Claims.HostRegisters : Prop :=
  ∀ (s : Sys2Proof.Machine.State) (k off size n : Nat) (x : Sys2Proof.Word),
    let goes (i : Sys2Proof.Instr) (f : Sys2Proof.Machine.State → Prop) : Prop :=
      Sys2Proof.Claims.Gives i s fun t => Sys2Proof.Claims.UnitsKept s t ∧ f t
    let w : Sys2Proof.Instr := .hostRegisterWrite off 8 x
    let committed (t : Sys2Proof.Machine.State) : Prop := t.accepted = true ∧ t.pkg = s.pkg ∧
      ∀ j, j < 256 → t.feat.getLsbD j = (decide (j = 0) ||
        (decide (j < 11) && s.staged[0].getLsbD j))
    let numbered (t : Sys2Proof.Machine.State) : Prop := t.pkg = x.toNat % 1024 ∧ t.pkgSet = true ∧ t.feat = s.feat
    (s.serves = false → ∀ i ∈ [Sys2Proof.Instr.feataccStage k x, .feataccCommit x, .pkgnumWrite x, .hostRegisterWrite off size x,
      .watchArm n, .watchDisarm n, .watchNotice n, .doorbell k n, .hostCxlMemAccess off true [], .attestationRequest []],
      Sys2Proof.Machine.exec i s = .next s) ∧
    (s.serves = true →
      (∀ h : k < 3, goes (.feataccStage k x) fun t => t.staged = s.staged.set k x h ∧ t.feat = s.feat) ∧
      (s.accepted = true → Sys2Proof.Machine.exec (.feataccCommit x) s = .next s) ∧
      (s.accepted = false → goes (.feataccCommit x) committed) ∧
      (s.pkgSet = true → Sys2Proof.Machine.exec (.pkgnumWrite x) s = .next s) ∧
      (s.pkgSet = false → goes (.pkgnumWrite x) numbered) ∧
      (size ≠ 8 ∨ off % 8 ≠ 0 → Sys2Proof.Machine.exec (.hostRegisterWrite off size x) s = .next s) ∧
      (off % 8 = 0 →
        (off < 0x20 ∨ (0x1008 ≤ off ∧ off < 0x4000) ∨ (0x4880 ≤ off ∧ off < 0x10000) ∨ (0x12000 ≤ off ∧ off < 0x20000) ∨
          (0x40000 ≤ off ∧ off < 0x100000) ∨ 0x110000 ≤ off → Sys2Proof.Machine.exec w s = .next s) ∧
        (∀ j, (h : j < 3) → off = 0x20 + 8 * j → goes w fun t => t.staged = s.staged.set j x h) ∧
        (off = 0x38 → s.accepted = false → goes w committed) ∧
        (off = 0x40 → s.pkgSet = false → goes w numbered) ∧
        (0x4000 ≤ off → off < 0x4800 → goes w fun t => ∀ j, j < 4 →
          t.route.getD (4 * ((off - 0x4000) / 8) + j) 0 = x.extractLsb' (16 * j) 16) ∧
        (0x4800 ≤ off → off < 0x4880 → goes w fun t => ∀ j, j < 64 →
          t.switches.has (64 * ((off - 0x4800) / 8) + j) = x.getLsbD j) ∧
        (0x10000 ≤ off → off < 0x12000 → goes w fun t =>
          (t.nvmeTab.getD ((off - 0x10000) / 32) (Vector.replicate 4 0)).toList.getD (off / 8 % 4) 0 = x) ∧
        (0x20000 ≤ off → off < 0x40000 → off % 32 ≠ 8 → goes w fun t => let e := t.watch ((off - 0x20000) / 32)
          (off % 32 = 0 → e.w0 = x) ∧ (off % 32 = 16 → e.w2 = x) ∧ (off % 32 = 24 → e.w3 = x)) ∧
        (0x20000 ≤ off → off < 0x40000 → off % 32 = 8 → x.getLsbD 63 = false →
          (∀ e ∈ s.tiles, e.2.kind ≠ .watch ((off - 0x20000) / 32)) → goes w fun t =>
            (t.watch ((off - 0x20000) / 32)).w1 = x &&& 0xF000000000000FFF ∧ (t.watch ((off - 0x20000) / 32)).armed = false) ∧
        (0x100000 ≤ off → off < 0x110000 →
          (off % 256 = 144 → Sys2Proof.Machine.exec w s = .next s) ∧
          (off % 256 ≠ 144 → goes w fun t =>
            Sys2Proof.Claims.winWord t ((off - 0x100000) / 256) (off % 256 / 8) = x.toNat)))) ∧
    (let read := s.hostRead off 8
     (size ≠ 8 ∨ off % 8 ≠ 0 → s.hostRead off size = 0) ∧
     (off = 0 → read = 0x7FF) ∧
     (∀ j, j < 4 → off = 0x20 + 8 * j → read = s.feat.toNat / 2 ^ (64 * j) % 2 ^ 64) ∧
     (off = 0x40 → read = s.pkg % 1024) ∧ (off = 0x48 → read = s.up.toNat) ∧
     (off % 8 = 0 →
       (∀ j, 0x50 ≤ off → off < 0x70 → j < 4 → read / 2 ^ (16 * j) % 2 ^ 16 = (s.die (4 * ((off - 0x50) / 8) + j)).incarn.toNat) ∧
       (∀ j, 0x4000 ≤ off → off < 0x4800 → j < 4 →
         read / 2 ^ (16 * j) % 2 ^ 16 = (s.route.getD (4 * ((off - 0x4000) / 8) + j) 0).toNat) ∧
       (0x20000 ≤ off → off < 0x40000 → off % 32 = 8 → let e := s.watch ((off - 0x20000) / 32)
         e.w1.toNat / 2 ^ 52 % 2 ^ 8 = 0 → read / 2 ^ 52 % 2 ^ 8 = e.st.toNat ∧ read % 2 ^ 12 = e.w1.toNat % 2 ^ 12) ∧
       (0x100000 ≤ off → off < 0x110000 → off % 256 = 144 → let e := s.winSlot ((off - 0x100000) / 256)
         read = e.done.toNat * 2 ^ 63 + e.code.toNat) ∧
       ((0x70 ≤ off ∧ off < 0x4000) ∨ (0x4880 ≤ off ∧ off < 0x10000) ∨ (0x12000 ≤ off ∧ off < 0x20000) ∨
         (0x40000 ≤ off ∧ off < 0x100000) ∨ 0x110000 ≤ off → read = 0)))

/-- Watches and CXL.mem: arming a watch without its feature, or misaligned, refuses it with its status; a word watch that its
page allows is armed, one without a translation waits for its walk, and is refused where that fails; disarming clears V; a
notice that is due posts DATA and the watched word, or the handle, through its port, once for a watch of one shot. A read
through CXL.mem sends the bytes of its line's part, a write writes exactly them, or joins a write of one of its bytes that
still waits. On which die a watch is checked, and that nothing of this takes effect before the controller has booted or while
the package is quiesced, is the model's reading (entries 44, 45; R402, R408). -/
def Sys2Proof.Claims.HostWatches : Prop :=
  ∀ (s : Sys2Proof.Machine.State) (n : Nat) (w : Sys2Proof.Machine.Watch),
    s.serves = true → n < 4096 → (∀ e ∈ s.tiles, e.2.kind ≠ .watch n) →
    let asid := (s.watch n).w1.toNat % 4096
    let arms (f : Sys2Proof.Machine.State → Prop) : Prop := Sys2Proof.Claims.Gives (.watchArm n) s fun t =>
      f t ∧ (t.watch n).due = false ∧ (t.watch n).w0 = (s.watch n).w0
    (s.feature 7 = false → arms fun t => (t.watch n).armed = false ∧ (t.watch n).st = 4) ∧
    (s.feature 7 = true → (s.watch n).w1.getLsbD 61 = false →
      ((s.watch n).w0.toNat % 8 ≠ 0 → arms fun t => (t.watch n).armed = false ∧ (t.watch n).st = 0x44) ∧
      ((s.watch n).w0.toNat % 8 = 0 → 2 ^ 56 ≤ (s.watch n).w0.toNat →
        arms fun t => (t.watch n).armed = false ∧ (t.watch n).st = 0x43) ∧
      ((s.watch n).w0.toNat % 8 = 0 → (s.watch n).w0.toNat < 2 ^ 56 →
        let armed (b : Bool) (st : Sys2Proof.Byte) (waits : Bool) : Prop := arms fun t =>
          (t.watch n).armed = b ∧ (t.watch n).st = st ∧ (t.watch n).checking = waits
        (∀ l, s.line asid (s.watch n).w0.toNat = some l →
          (l.attr.r = true → armed true 0 false) ∧ (l.attr.r = false → armed false 0x43 false)) ∧
        (s.line asid (s.watch n).w0.toNat = none → let at_ := s.xlateTlb asid (s.watch n).w0.toNat
          (∀ f a, at_ = .ok f a → (a.r = true → armed true 0 false) ∧ (a.r = false → armed false 0x43 false)) ∧
          (∀ c, at_ = .fail c → armed false (if c = 0 then 0x40 else if c = 0x46 then 0x46 else 0x43) false) ∧
          (at_ = .miss → (∀ u ∈ s.unitWalks, u.who ≠ .watch n) → armed true 0 true)))) ∧
    (s.watches.get? n = some w → w.checking = true → s.feature 7 = true → w.w1.getLsbD 61 = false → w.w0.toNat % 8 = 0 →
      w.w0.toNat < 2 ^ 56 → s.line asid w.w0.toNat = none → s.xlateTlb asid w.w0.toNat = .miss →
      ∀ u c, u ∈ s.unitWalks → (∀ v ∈ s.unitWalks, v.who = .watch n → v = u) →
        u.who = .watch n → u.asid = asid → u.page = w.w0.toNat / 2 ^ 16 → u.failed = some c →
        Sys2Proof.Claims.Gives (.watchNotice n) s fun t => (t.watch n).armed = false ∧ (t.watch n).checking = false ∧
          (t.watch n).st = if c = 0 then 0x40 else if c = 0x46 then 0x46 else 0x43) ∧
    (Sys2Proof.Claims.Gives (.watchDisarm n) s fun t => (t.watch n).armed = false ∧ (t.watch n).due = false ∧
      (t.watch n).w1.getLsbD 63 = false ∧ (t.watch n).w0 = (s.watch n).w0 ∧ Sys2Proof.Claims.UnitsKept s t) ∧
    (s.watches.get? n = some w → w.armed = true → w.checking = false →
      let va := w.w0.toNat
      let wid := w.w1.toNat % 4096
      let posts (u : Sys2Proof.Machine.State) (v : Nat) : Prop :=
        (∀ e ∈ u.tiles, e.2.kind ≠ .watch n) → u.up.getLsbD (if w.w1.getLsbD 60 then 9 else 8) = true →
        Sys2Proof.Claims.Gives (.watchNotice n) s fun t =>
          t.hostOut = u.hostOut ++ [.write (if w.w1.getLsbD 60 then 1 else 0) w.w2.toNat
            (Sys2Proof.Machine.toBytes 8 w.w3.toNat ++ Sys2Proof.Machine.toBytes 8 v)] ∧
          (t.watch n).due = false ∧ (t.watch n).armed = !w.w1.getLsbD 62 ∧ Sys2Proof.Claims.UnitsKept u t
      (w.due = false → Sys2Proof.Machine.exec (.watchNotice n) s = .next s) ∧
      (w.due = true → w.w1.getLsbD 61 = true → posts s va) ∧
      (∀ u b, w.due = true → w.w1.getLsbD 61 = false → (∀ l, s.line wid va = some l → l.stale = [] ∧ l.upd = none) →
        s.cohRead (.watch n) s.hostDie wid va 8 {} = (u, .ok b) → posts u (Sys2Proof.Machine.ofBytes b)) ∧
      (∀ l, w.due = true → w.w1.getLsbD 61 = false → s.line wid va = some l → l.stale ≠ [] ∨ l.upd ≠ none →
        Sys2Proof.Machine.exec (.watchNotice n) s = .next s)) ∧
    (∀ addr d bytes, s.phys addr = .dram d → s.up.getLsbD d = true → bytes ≠ [] → addr % 64 + bytes.length ≤ 64 →
      addr + bytes.length ≤ 2 ^ 44 → s.line 0 addr = none → s.locked 0 addr = false → s.farWrites addr bytes.length = false →
      s.farNeeds s.hostDie 0 addr addr .window false = none →
      s.farNeeds s.hostDie 0 addr addr .window true = none →
      (s.poisonAt addr = false → Sys2Proof.Claims.Gives (.hostCxlMemAccess addr false bytes) s fun t =>
        t.hostOut = s.hostOut ++ [.data addr (s.mem.bytes addr bytes.length)] ∧ t.mem = s.mem ∧ t.slots = s.slots) ∧
      (Sys2Proof.Claims.Gives (.hostCxlMemAccess addr true bytes) s fun t => t.mem.bytes addr bytes.length = bytes ∧
        Sys2Proof.Claims.Outside s t addr bytes.length ∧ t.slots = s.slots)) ∧
    (∀ addr (bytes : List Sys2Proof.Byte), bytes ≠ [] → addr % 64 + bytes.length ≤ 64 → addr + bytes.length ≤ 2 ^ 44 →
      s.farWrites addr bytes.length = true → Sys2Proof.Claims.Gives (.hostCxlMemAccess addr true bytes) s fun t =>
        t.mem = s.mem ∧ t.slots = s.slots ∧ ∀ k, k < bytes.length → t.farPuts.get? (addr + k) = some (bytes.getD k 0))

/-- Registers, watches and memory of the host: the statements `HostRegisters`, `HostWatches` above. -/
def Obligations.HostRegisters : Prop :=
  Sys2Proof.Claims.HostRegisters ∧ Sys2Proof.Claims.HostWatches

/-- The record window, NVMe and attestation: a doorbell refuses a slot with a reserved field or without an address space, launches
the launch record of its slot, or sends its record to the pan of its class; an NVMe read that ends gives its data to the writes
that await it, one that fails or is too late fails its command; an attestation begins with the host's nonce. CODE 2 for a reserved
bit of the record image, and the die that checks the class, are the model's choice and reading (entries 73, 44). -/
def Obligations.HostRequests : Prop :=
  ∀ (s : Sys2Proof.Machine.State) (die n : Nat),
    (s.serves = true → n < 256 → die = s.hostDie → s.upDies ≠ [] → s.farPuts = [] →
      let x := s.winSlot n
      x.done = true ∨ x.post = none →
      let W (k : Nat) := Sys2Proof.Claims.winWord s n k
      let asid := W 16 % 4096
      let ends (code : Nat) : Prop := Sys2Proof.Claims.Gives (.doorbell die n) s fun t =>
        (t.winSlot n).done = true ∧ (t.winSlot n).code.toNat = code ∧ t.recs = s.recs ∧ t.launches = s.launches ∧
        Sys2Proof.Claims.UnitsKept s t
      let plain : Prop := W 16 / 2 ^ 12 % 2 ^ 4 = 0 ∧ W 16 / 2 ^ 17 = 0 ∧ (∀ k, 19 ≤ k → k < 32 → W k = 0) ∧
        (W 16 / 2 ^ 16 % 2 = 1 → W 2 / 2 ^ 44 % 2 ^ 4 = 0 ∧ W 2 / 2 ^ 37 % 2 ^ 3 = 0 ∧ W 5 / 2 ^ 12 = 0 ∧ W 7 = 0)
      (¬ plain → ends 2) ∧
      (plain → asid = 0 ∨ s.ctx die asid = .invalid → ends 0x46) ∧
      (plain → asid ≠ 0 → s.ctx die asid ≠ .invalid →
        (W 16 / 2 ^ 16 % 2 = 0 → let w : Vector Sys2Proof.Word 16 := Vector.ofFn fun i => x.words.toList.getD i.val 0
          s.farTable die asid (Sys2Proof.Machine.launchTables w) = none →
          (s.launchOk die asid w = false → ends 0x88) ∧
          (∀ cb, s.launchOk die asid w = true → w[0].toNat / 2 ^ 24 % 16 = 15 → s.freeBlock (s.keyDie w[1]) = some cb →
            Sys2Proof.Claims.Gives (.doorbell die n) s fun t => (t.winSlot n).done = true ∧ (t.winSlot n).code = 0 ∧
              (∃ l, t.launches.get? cb = some l ∧ l.words = w ∧ l.asid = asid ∧ l.started = false ∧ l.next = 0) ∧
              ∃ k m, t.recs.get? k = some m ∧ m.r.lr = true ∧ m.r.lnch = cb ∧ m.r.key = w[1])) ∧
        (W 16 / 2 ^ 16 % 2 = 1 → W 2 / 2 ^ 40 % 2 = 0 → W 2 / 2 ^ 32 % 2 ^ 5 = 0 → W 2 / 2 ^ 24 % 16 < 8 →
          s.farTable die asid (fun _ _ t => [t + 16 * (W 2 / 2 ^ 16 % 2 ^ 6)]) = none →
          (s.cls die asid (W 2 / 2 ^ 16 % 2 ^ 6) = none → ends 0x82) ∧
          (∀ c, s.cls die asid (W 2 / 2 ^ 16 % 2 ^ 6) = some c → Sys2Proof.Claims.Gives (.doorbell die n) s fun t =>
            (t.winSlot n).done = false ∧ ∃ k m, (t.winSlot n).post = some k ∧ t.recs.get? k = some m ∧ m.r.key.toNat = W 0 ∧
              m.r.entry = W 2 % 2 ^ 16 ∧ m.r.asid = asid ∧ m.r.token = 0 ∧ ∀ j, j < 8 → (m.r.payload.toList.getD j 0).toNat = W (8 + j)))))
    ∧
    (∀ x p c bytes, s.nvme.get? n = some x → s.findTask x.owner = some p → p < 16384 → s.ctrl.quiet = false →
      x.pages ≠ [] → (∀ e ∈ s.nvme.del n, e.2.pages ≠ []) →
      ((s.slot p).engine .c).queue = [c] → c.ticket = x.ticket →
      let tmo := s.nvmeWord x.entry 3 % 2 ^ 32
      let now (t : Sys2Proof.Machine.State) (d : Sys2Proof.Machine.Cmd) : Prop :=
        ((t.slot p).engine .c).queue = [d] ∧ t.nvme = s.nvme.del n ∧ t.mem = s.mem
      (bytes.length = x.len → Sys2Proof.Claims.Gives (.nvmeCompletion n true bytes) s fun t =>
        now t { c with out := c.out.map (Sys2Proof.Machine.Put.give bytes x.rel x.len) }) ∧
      (bytes.length ≠ x.len → Sys2Proof.Machine.exec (.nvmeCompletion n true bytes) s = .next s) ∧
      (Sys2Proof.Claims.Gives (.nvmeCompletion n false bytes) s fun t => now t (c.failWith 0xA3 0x45)) ∧
      ((tmo ≠ 0 → x.since + tmo * 2 ^ 16 ≤ s.now → Sys2Proof.Claims.Gives (.nvmeTimeout n) s fun t =>
          now t (c.failWith 0xA3 0x45) ∧ (t.nvmeTab.getD x.entry (Vector.replicate 4 0))[0].getLsbD 63 = false) ∧
        (tmo = 0 ∨ s.now < x.since + tmo * 2 ^ 16 → Sys2Proof.Machine.exec (.nvmeTimeout n) s = .next s))) ∧
    (∀ nonce : List Sys2Proof.Byte, s.serves = true →
      (nonce.length ≠ 32 → Sys2Proof.Machine.exec (.attestationRequest nonce) s = .next s) ∧
      (nonce.length = 32 → Sys2Proof.Claims.Gives (.attestationRequest nonce) s fun t => Sys2Proof.Claims.UnitsKept s t ∧
        ∃ b : List Sys2Proof.Byte, t.hostOut = s.hostOut ++ [.attest (nonce ++ b)] ∧
          b.take 32 = Sys2Proof.Machine.toBytes 32 s.ctrl.m[0].toNat ∧
          (b.drop 256).take 2 = Sys2Proof.Machine.toBytes 2 (s.die 0).incarn.toNat ∧
          (b.drop 288).take 40 = Sys2Proof.Machine.toBytes 32 s.feat.toNat ++
            Sys2Proof.Machine.toBytes 8 (s.alarms.toNat * 4 + s.pol.toNat)))

/-! ### Messages of other packages (12, 14) -/

namespace Sys2Proof.Claims
open Sys2Proof.Machine

/-- A message of type `typ` reaches this package as it should: the package takes messages, and the message is for a die of it in
service (R373, R378). -/
def Reaches (s : State) (typ : Nat) (hdr : List Word) (body : List Byte) (m : LinkMsg) : Prop :=
  LinkMsg.parse hdr body = some m ∧ s.feature 10 = true ∧ s.pkgSet = true ∧ s.ctrl.quiet = false ∧ m.dpkg = s.pkg ∧
  s.up.getLsbD m.ddie = true ∧ m.typ = typ

/-- And it is well formed, and names the incarnation of its die where its type names one. -/
def Taken (s : State) (typ : Nat) (hdr : List Word) (body : List Byte) (m : LinkMsg) : Prop :=
  Reaches s typ hdr body m ∧ m.ok (hdr.getD 1 0) = true ∧
  (typ ≠ 0x28 → typ ≠ 0x30 → m.dinc = (s.die m.ddie).incarn.toNat)

/-- Exactly one message goes out, to a package: over a link where it has a route, else it waits at its die. -/
def Sends (s t : State) (q : Nat) (f : LinkMsg → Prop) : Prop :=
  ∃ m, f m ∧ m.dpkg = q ∧ m.spkg = s.pkg ∧ s.linked = true ∧
    (s.routed q = true → (∃ l, t.sent = s.sent ++ [(l, m)]) ∧ t.held = s.held) ∧
    (s.routed q = false → t.held = s.held ++ [m] ∧ t.sent = s.sent)

/-- The message is dropped and counted on its die. -/
def Dropped (i : Instr) (s : State) (m : LinkMsg) : Prop :=
  ∃ t, exec i s = .next t ∧ (t.die m.ddie).stale = satInc (s.die m.ddie).stale ∧ t = { s with dies := t.dies }

/-- A message of another package, by its type. -/
def IsMessage (h : List Word) (b : List Byte) (typ : Nat) (i : Instr) : Prop :=
  (typ = 0x01 ∧ i = .vreq h b) ∨ (typ = 0x02 ∧ i = .vcancel h b) ∨ (typ = 0x03 ∧ i = .vnote h b) ∨
  (typ = 0x04 ∧ i = .vstore h b) ∨ (typ = 0x05 ∧ i = .vdata h b) ∨ (typ = 0x06 ∧ i = .vans h b) ∨
  (typ = 0x08 ∧ i = .recMsg h b) ∨ (typ = 0x10 ∧ i = .pgreq h b) ∨ (typ = 0x11 ∧ i = .pghand h b) ∨
  (typ = 0x12 ∧ i = .pgack h b) ∨ (typ = 0x13 ∧ i = .pggrant h b) ∨ (typ = 0x14 ∧ i = .linerd h b) ∨
  (typ = 0x15 ∧ i = .linedata h b) ∨ (typ = 0x16 ∧ i = .linewb h b) ∨ (typ = 0x20 ∧ i = .binit h b) ∨
  (typ = 0x21 ∧ i = .barr h b) ∨ (typ = 0x22 ∧ i = .brel h b) ∨ (typ = 0x28 ∧ i = .digest h b) ∨
  (typ = 0x30 ∧ i = .incarn h b)

end Sys2Proof.Claims

/-- The checks of a received message: one for another package, or without the feature, has no effect, which for another package's
message is the model's choice (entry 55); one that is malformed, or
names another incarnation of its die, is dropped and counted in `ctl.stale`, with no other effect. -/
def Sys2Proof.Claims.MessageChecks : Prop :=
  ∀ (s : Sys2Proof.Machine.State) (h : List Sys2Proof.Word) (b : List Sys2Proof.Byte) (m : Sys2Proof.Machine.LinkMsg)
    (typ : Nat) (i : Sys2Proof.Instr), Sys2Proof.Claims.IsMessage h b typ i → Sys2Proof.Machine.LinkMsg.parse h b = some m →
    (s.feature 10 = false ∨ s.pkgSet = false ∨ s.ctrl.quiet = true ∨ m.dpkg ≠ s.pkg ∨ s.up.getLsbD m.ddie = false →
      Sys2Proof.Machine.exec i s = .next s) ∧
    (Sys2Proof.Claims.Reaches s typ h b m →
      (m.ok (h.getD 1 0) = false → Sys2Proof.Claims.Dropped i s m) ∧
      (typ ≠ 0x28 → typ ≠ 0x30 → m.dinc ≠ (s.die m.ddie).incarn.toNat → Sys2Proof.Claims.Dropped i s m))

/-- Messages about versions and records: VREQ and VSTORE make a request of their package at its home here, or answer 0x43 where no
descriptor is valid; VCANCEL withdraws one; VDATA and VANS answer the request of this package that waits for them; VNOTE has no
effect of its own; REC arrives as a local record, and one with a reserved field that is not 0 is dropped and counted. That a request
of another package is checked as one above PRIV 0, and what is taken of its record, is the model's choice (entry 18). -/
def Sys2Proof.Claims.VersionMessages : Prop :=
  ∀ (s : Sys2Proof.Machine.State) (h : List Sys2Proof.Word) (b : List Sys2Proof.Byte) (m : Sys2Proof.Machine.LinkMsg),
    let T (typ : Nat) : Prop := Sys2Proof.Claims.Taken s typ h b m
    let desc := s.desc m.ddie m.asid (m.q2.toNat / 2 ^ 52)
    let gives (i : Sys2Proof.Instr) (f : Sys2Proof.Machine.State → Prop) : Prop :=
      Sys2Proof.Claims.Gives i s fun t => t.slots = s.slots ∧ t.mem = s.mem ∧ f t
    let k := m.q3.toNat % 2 ^ 3
    let refused (i : Sys2Proof.Instr) : Prop := gives i fun t => t.tiles = s.tiles ∧ Sys2Proof.Claims.Sends s t m.spkg fun a =>
      a.typ = 6 ∧ a.ddie = m.sdie ∧ a.sdie = m.ddie ∧ a.dinc = m.sinc ∧ a.tag = m.tag ∧ a.q2 = m.q2 ∧ a.q3 = 0x43
    let asked (i : Sys2Proof.Instr) (d : Sys2Proof.Machine.Desc) (kind : Sys2Proof.Machine.TileKind) : Prop := gives i fun t =>
      ∃ n r, t.tiles.get? n = some r ∧ r.kind = kind ∧ r.h = m.q2 ∧ r.asid = m.asid ∧ r.st = .sent ∧ r.user = false ∧
        r.home.base = d.base + 4096 * (m.q2.toNat / 2 ^ 24 % 2 ^ 28) ∧ r.home.pkg = none ∧ r.inc.toNat = m.sinc % 2 ^ 16
    (T 1 → k < 7 →
      (desc = none → refused (.vreq h b)) ∧
      (∀ d, desc = some d → asked (.vreq h b) d
        (.remote m.spkg m.sdie (BitVec.ofNat 64 m.tag) k (m.q3.toNat / 2 ^ 8 % 2 ^ 10)))) ∧
    (T 4 →
      (desc = none → refused (.vstore h b)) ∧
      (∀ d, desc = some d → asked (.vstore h b) d (.remoteStore m.spkg m.sdie (BitVec.ofNat 64 m.tag) (m.q3.toNat % 2 ^ 16)
        (m.body.take 4096) ((m.body.drop 4096).take 256)))) ∧
    (T 3 → Sys2Proof.Machine.exec (.vnote h b) s = .next s) ∧
    (T 2 → (∀ n r, s.tiles = [(n, r)] → r.isFrom m (m.q3.toNat % 2 ^ 32) = true →
        Sys2Proof.Claims.Gives (.vcancel h b) s fun t => t.tiles = [] ∧ t.slots = s.slots ∧
          (s.names.get? (s.nameKey r) = none → t.names = s.names ∧ t.mem = s.mem) ∧
          (∀ e, r.home.pkg = none → r.st = .queued → s.names.get? (s.nameKey r) = some e →
            t.names.get? (s.nameKey r) = some (e.without n (r.h.toNat % 2 ^ 24) false))) ∧
      ((∀ e ∈ s.tiles, e.2.isFrom m (m.q3.toNat % 2 ^ 32) = false) → Sys2Proof.Machine.exec (.vcancel h b) s = .next s)) ∧
    (s.answered m = none → (T 5 → Sys2Proof.Machine.exec (.vdata h b) s = .next s) ∧
      (T 6 → Sys2Proof.Machine.exec (.vans h b) s = .next s)) ∧
    (∀ n r, s.answered m = some (n, r) → s.tiles.get? n = some r →
      let st (t : Sys2Proof.Machine.State) := (t.tiles.get? n).map (·.st)
      let data := m.body.take 4096
      let side := (m.body.drop 4096).take 256
      (T 5 →
        (∀ c t, r.kind = .load c t → gives (.vdata h b) fun t => st t = some (.delivering data (List.range 1024))) ∧
        (∀ d j, r.kind = .peek d j → gives (.vdata h b) fun t => ∃ v, st t = some (.answered v data side) ∧
          (j < 512 → v = BitVec.ofNat 64 (Sys2Proof.Machine.ofBytes (Sys2Proof.Claims.cut data (8 * j) 8)))) ∧
        (∀ e k c, r.kind = .engLoad e k c → gives (.vdata h b) fun t => st t = some (.answered 0 data side)) ∧
        (r.kind = .drop → gives (.vdata h b) fun t => t.tiles = s.tiles.del n)) ∧
      (T 6 → let code := m.q3.toNat % 2 ^ 8
        (r.kind = .wait → code = 0 → gives (.vans h b) fun t => ∃ v, st t = some (.answered v [] [])) ∧
        (∀ k c, r.kind = .store k c → code = 0 → gives (.vans h b) fun t => t.tiles = s.tiles.del n) ∧
        (r.kind = .wait → code = 0x61 → gives (.vans h b) fun t => st t = some (.bad 0x61 0)) ∧
        (r.kind = .wait → code = 0x43 → gives (.vans h b) fun t => st t = some (.bad 0x43 r.h.toNat)))) ∧
    (T 8 → let x := s.die m.ddie
      let w (k : Nat) := Sys2Proof.Machine.ofBytes (Sys2Proof.Claims.cut m.body (8 * k) 8)
      let reserved : Prop := w 2 / 2 ^ 44 % 2 ^ 4 ≠ 0 ∨ w 2 / 2 ^ 37 % 2 ^ 3 ≠ 0 ∨ w 5 / 2 ^ 12 ≠ 0 ∨ w 7 ≠ 0
      (8 ≤ m.ddie ∨ reserved → Sys2Proof.Claims.Dropped (.recMsg h b) s m) ∧
      (m.ddie < 8 → ¬ reserved → let a := Sys2Proof.Machine.recOfImage m.body
        s.cls m.ddie a.asid a.cls = none → x.place a = some none →
        gives (.recMsg h b) fun t => (t.die m.ddie).pan = x.pan ++ [{ a with stamp := x.enq, sealed := false, spill := none }] ∧
          a.key.toNat = w 0 ∧ a.path.toNat = w 1 ∧ a.entry = w 2 % 2 ^ 16 ∧ a.folds = w 2 / 2 ^ 48 ∧ a.asid = w 5 % 2 ^ 12 ∧
          ∀ i : Fin 8, a.payload[i].toNat = w (8 + i.val)))

/-- Checks of received messages, and messages about versions and records: the statements `MessageChecks`, `VersionMessages` above. -/
def Obligations.VersionMessages : Prop :=
  Sys2Proof.Claims.MessageChecks ∧ Sys2Proof.Claims.VersionMessages

/-- Messages about pages and lines: PGREQ of a page that nobody else has takes it from this package and is granted; PGHAND of a page
with no line on chip is acknowledged, the page given up; PGACK of the last holder lets the waiting request be granted; PGGRANT
gives the mode; LINERD is answered with the line; LINEDATA brings the line on chip, where its caches have room, or for the access
that bypasses them; LINEWB writes exactly its line. Messages of barriers: BINIT and BARR go to switches and have no effect here, which
is the model's reading (entry 39); BREL sets the shadow's generation. That a hand-over gives up every mode, and LINEDATA without
poison, are the model's reading too (entry 41). -/
def Sys2Proof.Claims.PageMessages : Prop :=
  ∀ (s : Sys2Proof.Machine.State) (h : List Sys2Proof.Word) (b : List Sys2Proof.Byte) (m : Sys2Proof.Machine.LinkMsg),
    let T (typ : Nat) : Prop := Sys2Proof.Claims.Taken s typ h b m
    let gives (i : Sys2Proof.Instr) (f : Sys2Proof.Machine.State → Prop) : Prop :=
      Sys2Proof.Claims.Gives i s fun t => t.slots = s.slots ∧ f t
    let a := m.q2.toNat
    let page := a / 2 ^ 16
    let far := 2 ^ 54 + m.spkg * 2 ^ 44 + a
    let wr := m.q3.toNat % 2
    let granted (t : Sys2Proof.Machine.State) (x : Sys2Proof.Machine.PageAsk) : Prop :=
      (Sys2Proof.Claims.Sends s t x.pkg fun g => g.typ = 0x13 ∧ g.ddie = x.die ∧ g.dinc = x.inc ∧ g.tag = x.tag ∧
        g.q2.toNat = page * 2 ^ 16 ∧ g.q3 = BitVec.ofNat 64 x.write.toNat) ∧
      ∃ d, t.pdir.get? page = some d ∧ d.asks = [] ∧ d.acks = [] ∧
        (x.write = true → d.writer = some (x.pkg * 16 + x.die) ∧ d.readers = []) ∧
        (x.write = false → x.pkg * 16 + x.die ∈ d.readers)
    (T 0x10 → s.pdir.get? page = none → s.linesOf page = [] → s.migrating page = false → m.spkg ≠ s.pkg →
      gives (.pgreq h b) fun t => t.mem = s.mem ∧
        granted t { pkg := m.spkg, die := m.sdie, inc := m.sinc, tag := m.tag, write := decide (wr = 1) }) ∧
    (T 0x12 →
      (s.pdir.get? page = none → Sys2Proof.Machine.exec (.pgack h b) s = .next s) ∧
      (∀ d x, s.pdir.get? page = some d → d.acks = [m.spkg] → d.asks = [x] → (d.leaves m.spkg).conflicts x = [] →
        s.migrating page = false → x.pkg ≠ s.pkg → (x.write = false → ∀ w, (d.leaves m.spkg).writer = some w → w / 16 ≠ x.pkg) →
        gives (.pgack h b) fun t => t.mem = s.mem ∧ granted t x)) ∧
    (T 0x11 → a < 2 ^ 44 → s.linesOf (far / 2 ^ 16) = [] → (s.farPage (far / 2 ^ 16 * 2 ^ 16)).mode.covers (decide (wr = 1)) = true → far % 2 ^ 16 = 0 →
      gives (.pghand h b) fun t => t.mem = s.mem ∧ (∃ x, t.pages.get? (far / 2 ^ 16) = some x ∧ x.mode = .none ∧ x.hand = none) ∧
        Sys2Proof.Claims.Sends s t m.spkg fun g => g.typ = 0x12 ∧ g.ddie = m.sdie ∧ g.sdie = m.ddie ∧ g.tag = m.tag ∧ g.q2 = m.q2) ∧
    (T 0x13 → (s.farPage (far / 2 ^ 16 * 2 ^ 16)).hand = none →
      gives (.pggrant h b) fun t => t.mem = s.mem ∧
        ∃ x, t.pages.get? (far / 2 ^ 16) = some x ∧ x.mode = (if wr = 1 then .write else .read)) ∧
    (T 0x14 → gives (.linerd h b) fun t => t.mem = s.mem ∧ Sys2Proof.Claims.Sends s t m.spkg fun g =>
      g.typ = 0x15 ∧ g.ddie = m.sdie ∧ g.tag = m.tag ∧ g.q2 = m.q2 ∧ g.body = s.mem.bytes a 64) ∧
    (T 0x15 →
      (s.lineAsks.get? m.tag = none → Sys2Proof.Machine.exec (.linedata h b) s = .next s) ∧
      (∀ x, s.lineAsks.get? m.tag = some x → x.addr = far → s.lines.has x.key = false → s.hasMode far false = true →
        s.handing far = false →
        let room : Prop := s.l2Room x.die x.key = true ∧ s.l3Room (x.key % 2 ^ 50 * 64) = true
        let done (t : Sys2Proof.Machine.State) : Prop := t.mem = s.mem ∧ t.lineAsks = s.lineAsks.del m.tag
        (x.hint = .by ∨ room → gives (.linedata h b) fun t => done t ∧
          ∃ l, t.lines.get? x.key = some l ∧ l.cur = m.body ∧ l.frame = far ∧ l.present = [x.die] ∧ l.dirty = false ∧
            l.poison = false ∧ l.attr = x.attr ∧ (l.pass = true → x.hint = .by)) ∧
        (x.hint ≠ .by → ¬ room → gives (.linedata h b) fun t => done t ∧ t.lines = s.lines))) ∧
    (T 0x16 → ∀ d, s.phys a = .dram d → gives (.linewb h b) fun t => t.mem.bytes a 64 = m.body ∧
      Sys2Proof.Claims.Outside s t a 64 ∧ t.lines = s.lines) ∧
    (T 0x20 → Sys2Proof.Machine.exec (.binit h b) s = .next s) ∧
    (T 0x21 → Sys2Proof.Machine.exec (.barr h b) s = .next s) ∧
    (T 0x22 → gives (.brel h b) fun t => t.mem = s.mem ∧ t.shadows.get? far = some (m.q3.toNat % 2 ^ 4) ∧
      ∀ k, k ≠ far → t.shadows.get? k = s.shadows.get? k)

/-- DIGEST and INCARN: a digest is kept for its group and step; a `digest.end` of a group of two fills its register with 0 where the
digests are equal, and otherwise stops its address space and reports on every compute die; without the feature the message is
dropped (the model's choice, log entry 71). INCARN sets the incarnation that this package holds of a die, and drops
the requests that the die had made before. -/
def Sys2Proof.Claims.GroupMessages : Prop :=
  ∀ (s : Sys2Proof.Machine.State) (h : List Sys2Proof.Word) (b : List Sys2Proof.Byte) (m : Sys2Proof.Machine.LinkMsg),
    let T (typ : Nat) : Prop := Sys2Proof.Claims.Taken s typ h b m
    let g := m.q3.toNat % 2 ^ 2
    let gives (i : Sys2Proof.Instr) (f : Sys2Proof.Machine.State → Prop) : Prop := Sys2Proof.Claims.Gives i s f
    (T 0x28 → s.feature 9 = false → Sys2Proof.Claims.Dropped (.digest h b) s m) ∧
    (T 0x28 → s.feature 9 = true →
      (s.ends = [] → gives (.digest h b) fun t => t.slots = s.slots ∧ t.mem = s.mem ∧ t.ends = [] ∧
        ∃ x ∈ t.digests, x.g = g ∧ x.step = m.q2 ∧ x.pkg = m.spkg ∧ x.d.toNat = Sys2Proof.Machine.ofBytes m.body) ∧
      (∀ e p, s.ends = [e] → s.digests = [] → e.g = g → e.step = m.q2 → m.spkg ≠ s.pkg →
        Sys2Proof.Machine.replMembers (s.group4 g) = [s.pkg, m.spkg] →
        (e.d.toNat = Sys2Proof.Machine.ofBytes m.body → s.findTask e.tid = some p → p < 16384 → e.dst ≠ 0 →
          s.role p e.dst = .plain → gives (.digest h b) fun t => t.ends = [] ∧ (t.slot p).reg e.dst = 0 ∧
            (t.slot p).full e.dst = true ∧ t.stopped = s.stopped ∧ t.mem = s.mem) ∧
        (e.d.toNat ≠ Sys2Proof.Machine.ofBytes m.body →
          gives (.digest h b) fun t => t.ends = [] ∧ e.asid ∈ t.stopped ∧ t.slots = s.slots ∧
            ∀ d ∈ s.upDies, Sys2Proof.Claims.Reported s t d 0xC3))) ∧
    (T 0x30 → let die := m.q2.toNat % 2 ^ 4
      let inc := BitVec.ofNat 16 m.q3.toNat
      s.tiles = [] → s.pdir = [] → gives (.incarn h b) fun t => t.slots = s.slots ∧ t.mem = s.mem ∧
        t.peerInc m.spkg die = inc ∧
        ∀ q d, q * 16 + d ≠ m.spkg * 16 + die → t.peerInc q d = s.peerInc q d) ∧
    (T 0x30 → ∀ n r q d k c j, s.tiles = [(n, r)] → r.kind = .remote q d k c j → q = m.spkg → d = m.q2.toNat % 2 ^ 4 →
      r.inc ≠ BitVec.ofNat 16 m.q3.toNat → s.pdir = [] → gives (.incarn h b) fun t => t.tiles = [] ∧ t.slots = s.slots ∧
        (s.names = [] → t.mem = s.mem))

/-- Messages about pages, lines, barriers, digests and incarnations: the statements `PageMessages`, `GroupMessages` above. -/
def Obligations.PageMessages : Prop :=
  Sys2Proof.Claims.PageMessages ∧ Sys2Proof.Claims.GroupMessages

/-! ### Start-up, errors, resets and losses (13, 16) -/

/-- Start-up: the controller's own image, once accepted, is measured and starts it; an image of another class is measured where it is
accepted, and otherwise its dies stay out of service. The supervisor of a die that has restarted starts in slot 13 at PRIV 1 at the
address of its header, with the handler's address set, once; a rake starts in slot 15 of its core at PRIV 1. -/
def Obligations.StartUp : Prop :=
  ∀ (s : Sys2Proof.Machine.State) (img img' : List Sys2Proof.Byte) (die p : Nat),
    let boots (l : List (List Sys2Proof.Byte)) (f : Sys2Proof.Machine.State → Prop) : Prop :=
      Sys2Proof.Claims.Gives (.controllerBoot l) s fun t => Sys2Proof.Claims.UnitsKept s t ∧ t.ctrl.booted = true ∧
        t.ctrl.acting = some 8 ∧ t.ctrl.standby = true ∧ f t
    let measured (old new : BitVec 256) (x : List Sys2Proof.Byte) : Prop :=
      new = BitVec.ofNat 256 (Sys2Proof.Machine.ofBytes (Sys2Proof.Machine.sha256
        (Sys2Proof.Machine.toBytes 32 old.toNat ++ Sys2Proof.Machine.sha256 x)))
    (Sys2Proof.Machine.exec (.controllerBoot []) s = .next s) ∧
    (s.ctrl.booted = true ∨ Sys2Proof.Config.imageOk 0 img = false →
      Sys2Proof.Machine.exec (.controllerBoot [img]) s = .next s) ∧
    (s.ctrl.booted = false → Sys2Proof.Config.imageOk 0 img = true →
      boots [img] (fun t => t.up = s.up ∧ measured s.ctrl.m[0] t.ctrl.m[0] img ∧ t.ctrl.m[1] = s.ctrl.m[1]) ∧
      (Sys2Proof.Config.imageOk 1 img' = true → boots [img, img'] fun t => t.up = s.up ∧
        measured s.ctrl.m[0] t.ctrl.m[0] img ∧ measured s.ctrl.m[1] t.ctrl.m[1] img') ∧
      (Sys2Proof.Config.imageOk 1 img' = false → boots [img, img'] fun t =>
        t.up = s.up &&& ~~~Sys2Proof.Config.imageDies 1 ∧ t.ctrl.m[1] = s.ctrl.m[1])) ∧
    (let runs : Prop := die < 8 ∧ s.up.getLsbD die = true ∧ s.ctrl.booted = true ∧ s.ctrl.quiet = false ∧ (s.die die).fresh = true
     (¬ runs → Sys2Proof.Machine.exec (.supervisorStart die) s = .next s) ∧
     (runs → Sys2Proof.Claims.Gives (.supervisorStart die) s fun t => let x := t.slot (die * 2048 + 13)
       x.use = .supervisor ∧ x.priv = 1 ∧ x.pc = Sys2Proof.Config.bootReg die 0 &&& ~~~3 ∧
       (t.die die).tvec = Sys2Proof.Config.bootReg die 1 &&& ~~~3 ∧ (t.die die).fresh = false ∧ t.mem = s.mem ∧
       ∀ q, q ≠ die * 2048 + 13 → t.slot q = s.slot q)) ∧
    (let runs : Prop := p < 1024 ∧ s.up.getLsbD (p / 128) = true ∧ s.ctrl.booted = true ∧ (s.slot (p * 16 + 15)).use ≠ .rake
     (¬ runs → Sys2Proof.Machine.exec (.rakeStart p) s = .next s) ∧
     (runs → Sys2Proof.Claims.Gives (.rakeStart p) s fun t => (t.slot (p * 16 + 15)).use = .rake ∧
       (t.slot (p * 16 + 15)).priv = 1 ∧ t.mem = s.mem ∧ ∀ q, q ≠ p * 16 + 15 → t.slot q = s.slot q))

/-- Resets and losses: a die that resets comes back with the next incarnation, its registers and slots as after power-on, and
counts as stale the messages that were under way to it; no byte of memory changes but directory entries; a base die's reset takes
back the package number and the features. After a reset the controller loads the images of the die's classes again, each measured
before it runs, and a refused one leaves the die out of service. A die that is lost leaves service and is reported on the lowest
compute die that remains; a base die takes its compute dies along, its links go down and are reported, and the standby controller
goes on for it. After a failure of die-to-die links the side with nine dies or more goes on and
loses the others, and a side without quiesces and asks the host for a reset. Which dies the standby reaches is free, and messages
under way to a die that resets are counted at its reset: the model's choices (entries 47 and 48); `up` after power-on is entry 2's. -/
def Sys2Proof.Claims.ResetAndLoss : Prop :=
  ∀ (s : Sys2Proof.Machine.State) (die h : Nat) (reach : List Nat),
    let measured (old new : BitVec 256) (x : List Sys2Proof.Byte) : Prop :=
      new = BitVec.ofNat 256 (Sys2Proof.Machine.ofBytes (Sys2Proof.Machine.sha256
        (Sys2Proof.Machine.toBytes 32 old.toNat ++ Sys2Proof.Machine.sha256 x)))
    (16 ≤ die ∨ s.up.getLsbD die = false → Sys2Proof.Machine.exec (.dieReset die) s = .next s ∧
      Sys2Proof.Machine.exec (.dieLoss die) s = .next s) ∧
    (die < 16 → s.up.getLsbD die = true →
      (Sys2Proof.Claims.Gives (.dieReset die) s fun t => let x := t.die die
        x.incarn = (s.die die).incarn + 1 ∧ x.wdog = 0x01000000 ∧ x.tvec = 0 ∧ x.pan = [] ∧ x.stale = BitVec.ofNat 32 (s.underWay die) ∧
        x.undeliv = 0 ∧ t.cycle die = 0 ∧ (s.names = [] → t.mem = s.mem) ∧
        (s.ctrl.booted = false → t.up = s.up ∧ t.ctrl = s.ctrl) ∧
        (s.ctrl.booted = true →
          let img (k : Nat) := Sys2Proof.Config.imageAgain s.tick k
          let used (k : Nat) : Bool := decide (k ≠ 0) && (Sys2Proof.Config.imageDies k).getLsbD die
          let ok (k : Nat) : Bool := Sys2Proof.Config.imageOk k (img k)
          (∀ k : Fin 8, if used k && ok k then measured s.ctrl.m[k] t.ctrl.m[k] (img k) else t.ctrl.m[k] = s.ctrl.m[k]) ∧
          t.up = if (List.range 8).all (fun k => !used k || ok k) then s.up else s.up &&& ~~~BitVec.twoPow 16 die) ∧
        (die < 8 → ∀ q, q / 2048 = die → t.slot q = Sys2Proof.Machine.Slot.init) ∧
        (die = 8 ∨ die = 9 → t.pkgSet = false ∧ t.pkg = 0 ∧ t.feat = 1 ∧ t.accepted = false) ∧
        (10 ≤ die → t.pkg = s.pkg ∧ t.feat = s.feat)) ∧
      (die < 8 ∨ 10 ≤ die → (s.upDies.filter (· != die)).head? = some h →
        Sys2Proof.Claims.Gives (.dieLoss die) s fun t =>
          t.up = s.up &&& ~~~BitVec.twoPow 16 die ∧ Sys2Proof.Claims.Reported s t h 0xC0 ∧
          (die < 8 → ∀ q, q / 2048 = die → (t.slot q).accs = [] ∧ (t.slot q).wait = .none) ∧
          (∀ q, q / 2048 ≠ die → (t.slot q).s = (s.slot q).s ∧ (t.slot q).pc = (s.slot q).pc)) ∧
      (die = 8 ∨ die = 9 →
        let lost := (die :: (List.range 4).map fun k => 4 * (die - 8) + k).filter fun d => s.up.getLsbD d
        let cut := ((List.range 8).map fun k => 8 * (die - 8) + k).filter fun k => !s.linkDown.getLsbD k
        Sys2Proof.Claims.Gives (.dieLoss die) s fun t =>
          (∀ d, d < 16 → t.up.getLsbD d = (s.up.getLsbD d && !lost.contains d)) ∧
          (∀ k, k < 16 → t.linkDown.getLsbD k = (s.linkDown.getLsbD k || decide (k / 8 = die - 8))) ∧
          ((s.upDies.filter fun d => decide (d / 4 ≠ die - 8)).head? = some h → (s.die h).fqFull = true →
            ∃ l, (t.die h).reports = (s.die h).reports ++ l ∧ (∀ e ∈ l, e.kind = 3) ∧
              l.map (·.cause) = lost.map (fun _ => 0xC0) ++ cut.map fun _ => 0xC5) ∧
          (s.ctrl.acting = some die → s.ctrl.standby = true → s.up.getLsbD (17 - die) = true →
            9 ≤ (((List.range 16).filter fun d => s.up.getLsbD d).filter fun d => !lost.contains d).length →
            t.ctrl.acting = some (17 - die) ∧ t.ctrl.quiet = s.ctrl.quiet) ∧
          (∀ q, q / 2048 / 4 = die - 8 → s.up.getLsbD (q / 2048) = true → (t.slot q).accs = [] ∧ (t.slot q).wait = .none) ∧
          (∀ q, (t.slot q).s = (s.slot q).s ∧ (t.slot q).pc = (s.slot q).pc))) ∧
    (let up := (List.range 16).filter fun d => s.up.getLsbD d
     let mine := up.filter reach.contains
     let rest := up.filter fun d => !reach.contains d
     let i : Sys2Proof.Instr := .d2dLinkFailure reach
     (s.ctrl.acting = none ∨ s.ctrl.quiet = true ∨ rest = [] → Sys2Proof.Machine.exec i s = .next s) ∧
     (∀ a, s.ctrl.acting = some a → s.ctrl.quiet = false → a ∈ mine →
       (∀ d, rest = [d] → 9 ≤ mine.length → Sys2Proof.Machine.exec i s = Sys2Proof.Machine.exec (.dieLoss d) s) ∧
       (rest ≠ [] → mine.length < 9 → s.ctrl.standby = false ∨ rest.length < 9 → Sys2Proof.Claims.Gives i s fun t =>
         t.ctrl.quiet = true ∧ t.ctrl.acting = none ∧ (∀ d ∈ mine, (t.die d).quiet = true) ∧
         (∀ n, n < 2 → 8 + n ∈ mine → t.ctrl.aer.getLsbD n = true ∧ .fatal n ∈ t.hostOut) ∧ t.up = s.up ∧ t.slots = s.slots ∧
         t.mem = s.mem)))

/-- Links, errors and alarms: a link that goes down is reported once and takes no message until it is up, when held messages leave; an
error of one bit is counted, and of a unit that the die holds a transient one too, while a lasting one poisons its line of memory and
takes a spare row of its stack if there is one, retires its tile slot, or fences its way, frame or lane off. An alarm is
reported on every compute die, and by policy stops the dies and erases the keys. A change of clock changes nothing. -/
def Sys2Proof.Claims.LinksAndErrors : Prop :=
  ∀ (s : Sys2Proof.Machine.State) (link die addr src : Nat) (low : Bool),
    let up1 (x : BitVec 16) : BitVec 16 := if x = BitVec.allOnes 16 then x else x + 1
    let gives (i : Sys2Proof.Instr) (f : Sys2Proof.Machine.State → Prop) : Prop :=
      Sys2Proof.Claims.Gives i s fun t => t.slots = s.slots ∧ f t
    (16 ≤ link ∨ s.linkDown.getLsbD link = true → Sys2Proof.Machine.exec (.linkDown link) s = .next s) ∧
    (∀ d, link < 16 → s.linkDown.getLsbD link = false → (s.upDies.find? fun d => d / 4 == link / 8) = some d →
      gives (.linkDown link) fun t => Sys2Proof.Claims.ReportEntry s t d 0xC5 ∧ t.linkDown = s.linkDown ||| BitVec.twoPow 16 link ∧
        ((∀ e ∈ s.sent, e.1 ≠ link) → t.sent = s.sent ∧ t.held = s.held)) ∧
    (link < 16 → s.held = [] → Sys2Proof.Machine.exec (.linkUp link) s =
      .next { s with linkDown := s.linkDown &&& ~~~BitVec.twoPow 16 link }) ∧
    (∀ m, link < 16 → s.linked = true → s.held = [m] → s.route.getD m.dpkg 0 = BitVec.twoPow 16 link → gives (.linkUp link) fun t =>
      t.held = [] ∧ t.sent = s.sent ++ [(link, { m with spkg := s.pkg })] ∧ t.mem = s.mem) ∧
    (die < 16 → s.up.getLsbD die = true → let x := s.die die
      let ecc (k : Nat) (l : Bool) : Sys2Proof.Instr := .eccError (die * 16 + k) addr l
      (∀ l, gives (ecc 9 l) fun t => (t.die die).corr = up1 x.corr ∧ t.mem = s.mem ∧ t.memPoison = s.memPoison) ∧
      (∀ k, k < 9 →
        (Sys2Proof.Machine.holdsUnit die k addr = false → ∀ l, Sys2Proof.Machine.exec (ecc k l) s = .next s) ∧
        (Sys2Proof.Machine.holdsUnit die k addr = true →
          gives (ecc k false) fun t => (t.die die).trans = up1 x.trans ∧ t.mem = s.mem ∧ t.memPoison = s.memPoison)) ∧
      (s.phys addr = .dram die → gives (ecc 0 true) fun t => (t.die die).last = up1 x.last ∧ t.mem = s.mem ∧
        (∀ j, (t.die die).rowsUsed.getD j 0 = x.rowsUsed.getD j 0 +
          (if Sys2Proof.Machine.rowStack addr = some j ∧ s.stackRows die j ≠ 0 then 1 else 0)) ∧
        t.memPoison.has (addr / 64) = true ∧ ∀ b, b ≠ addr / 64 → t.memPoison.has b = s.memPoison.has b) ∧
      (die < 8 → gives (ecc 1 true) fun t => let c := t.cluster (die * 16 + addr / 2 ^ 23 % 16)
        (t.die die).last = up1 x.last ∧ t.mem = s.mem ∧ addr % 2 ^ 23 / 4096 ∈ c.retired ∧
        c.spPoison.has (addr % 2 ^ 23 / 4) = true) ∧
      (∀ k, 2 ≤ k → k ≤ 7 → Sys2Proof.Machine.holdsUnit die k addr = true → Sys2Proof.Claims.Gives (ecc k true) s fun t =>
        (k, addr) ∈ (t.die die).fenced ∧ (t.die die).last = up1 x.last)) ∧
    (4 ≤ src → Sys2Proof.Machine.exec (.securityAlarm src) s = .next s) ∧
    (src < 4 → gives (.securityAlarm src) fun t =>
      t.alarms = s.alarms ||| BitVec.twoPow 8 src ∧ (∀ d ∈ s.upDies, Sys2Proof.Claims.Reported s t d 0xC4) ∧
      (s.pol = 0 → ∀ d, (t.die d).quiet = (s.die d).quiet) ∧ (s.pol ≠ 0 → ∀ d, d < 8 → (t.die d).quiet = true) ∧
      t.ctrl.erased = (s.ctrl.erased || s.pol == 2)) ∧
    (Sys2Proof.Machine.exec (.clockThrottle low) s = .next s)

/-- Resets, losses, links, errors and alarms: the statements `ResetAndLoss`, `LinksAndErrors` above. -/
def Obligations.LossAndErrors : Prop :=
  Sys2Proof.Claims.ResetAndLoss ∧ Sys2Proof.Claims.LinksAndErrors
end

