-- ==== Sys2Proof/Laws/Memory.lean ====
section
/-!
SUPPORT. Tables and memory: what a read answers after a write, and that every memory operation keeps the canonical form.
-/

namespace Sys2Proof.Machine

namespace SMap
variable {α : Type}

@[simp] theorem get?_nil (k : Nat) : get? ([] : SMap α) k = none := rfl

theorem get?_set_self (t : SMap α) (k : Nat) (x : α) : get? (set t k x) k = some x := by
  induction t with
  | nil => simp [set, get?]
  | cons e t ih =>
    obtain ⟨j, y⟩ := e
    by_cases h : k < j
    · simp [set, get?, h]
    · by_cases hj : j = k
      · simp [set, get?, hj]
      · simp [set, get?, h, hj, ih]

theorem get?_set_other (t : SMap α) {k l : Nat} (x : α) (h : l ≠ k) : get? (set t k x) l = get? t l := by
  induction t with
  | nil => simp [set, get?, Ne.symm h]
  | cons e t ih =>
    obtain ⟨j, y⟩ := e
    by_cases hk : k < j
    · simp [set, get?, hk, Ne.symm h]
    · by_cases hj : j = k
      · subst hj; simp [set, get?, Ne.symm h]
      · have : set ((j, y) :: t) k x = (j, y) :: set t k x := by simp [set, hk, hj]
        rw [this]
        by_cases hl : j = l <;> simp [get?, hl, ih]

theorem get?_del_self (t : SMap α) (k : Nat) : get? (del t k) k = none := by
  induction t with
  | nil => rfl
  | cons e t ih =>
    obtain ⟨j, y⟩ := e
    by_cases hj : j = k <;> simp [del, get?, hj, ih]

theorem get?_del_other (t : SMap α) {k l : Nat} (h : l ≠ k) : get? (del t k) l = get? t l := by
  induction t with
  | nil => rfl
  | cons e t ih =>
    obtain ⟨j, y⟩ := e
    by_cases hj : j = k
    · subst hj; simp [del, get?, Ne.symm h, ih]
    · have : del ((j, y) :: t) k = (j, y) :: del t k := by simp [del, hj]
      rw [this]
      by_cases hl : j = l <;> simp [get?, hl, ih]

@[simp] theorem getD_set_self (t : SMap α) (k : Nat) (x d : α) : getD (set t k x) k d = x := by
  simp [getD, get?_set_self]

theorem getD_set_other (t : SMap α) {k l : Nat} (x d : α) (h : l ≠ k) : getD (set t k x) l d = getD t l d := by
  simp [getD, get?_set_other t x h]

end SMap

namespace Memory

theorem put_zero (m : Memory) (a : Nat) : put m a 0 = SMap.del m a := rfl
theorem put_listed (m : Memory) (a : Nat) {b : Byte} (h : b ≠ 0) : put m a b = SMap.set m a b := by
  unfold put; rw [if_neg (by simpa using h)]

theorem byte_put_self (m : Memory) (a : Nat) (b : Byte) : byte (put m a b) a = b := by
  by_cases h : b = 0
  · subst h; rw [put_zero, byte, SMap.getD, SMap.get?_del_self]; rfl
  · simp [put_listed m a h, byte]

theorem byte_put_other (m : Memory) {a c : Nat} (b : Byte) (h : c ≠ a) : byte (put m a b) c = byte m c := by
  by_cases hb : b = 0
  · subst hb; rw [put_zero, byte, SMap.getD, SMap.get?_del_other m h]; rfl
  · rw [put_listed m a hb, byte, byte, SMap.getD_set_other m b 0 h]

theorem byte_putBytes_outside (m : Memory) (l : List Byte) {a c : Nat} (h : c < a ∨ a + l.length ≤ c) :
    byte (putBytes m a l) c = byte m c := by
  induction l generalizing m a with
  | nil => rfl
  | cons b l ih =>
    simp only [List.length_cons] at h
    rw [putBytes, ih (put m a b) (by omega), byte_put_other m b (by omega)]

theorem byte_putBytes_inside (m : Memory) (l : List Byte) (a i : Nat) (h : i < l.length) :
    byte (putBytes m a l) (a + i) = l[i] := by
  induction l generalizing m a i with
  | nil => simp at h
  | cons b l ih =>
    cases i with
    | zero => rw [putBytes, byte_putBytes_outside _ _ (by omega)]; exact byte_put_self m a b
    | succ i =>
      have := ih (put m a b) (a + 1) i (by simpa using h)
      rw [show a + (i + 1) = a + 1 + i by omega, putBytes, this]; rfl

theorem bytes_length (m : Memory) (a n : Nat) : (bytes m a n).length = n := by
  induction n generalizing a with
  | zero => rfl
  | succ n ih => simp [bytes, ih]

theorem wfFrom_mono {m : Memory} {lo hi : Nat} (h : lo ≤ hi) (w : wfFrom hi m = true) : wfFrom lo m = true := by
  cases m with
  | nil => rfl
  | cons e t =>
    obtain ⟨a, b⟩ := e
    simp only [wfFrom, Bool.and_eq_true, decide_eq_true_eq] at w ⊢
    exact ⟨⟨by omega, w.1.2⟩, w.2⟩

theorem wfFrom_del {m : Memory} {lo : Nat} (a : Nat) (w : wfFrom lo m = true) : wfFrom lo (SMap.del m a) = true := by
  induction m generalizing lo with
  | nil => rfl
  | cons e t ih =>
    obtain ⟨j, b⟩ := e
    simp only [wfFrom, Bool.and_eq_true, decide_eq_true_eq] at w
    by_cases hj : j = a
    · simpa [SMap.del, hj] using wfFrom_mono (by omega) (ih w.2)
    · simp [SMap.del, hj, wfFrom, ih w.2, w.1.1, by simpa using w.1.2]

theorem wfFrom_set {m : Memory} {lo a : Nat} {b : Byte} (w : wfFrom lo m = true) (h : lo ≤ a) (hb : b ≠ 0) :
    wfFrom lo (SMap.set m a b) = true := by
  induction m generalizing lo with
  | nil => simpa [SMap.set, wfFrom, h] using hb
  | cons e t ih =>
    obtain ⟨j, c⟩ := e
    simp only [wfFrom, Bool.and_eq_true, decide_eq_true_eq] at w
    by_cases hlt : a < j
    · simp only [SMap.set, hlt, if_true, wfFrom, Bool.and_eq_true, decide_eq_true_eq]
      exact ⟨⟨h, by simpa using hb⟩, ⟨by omega, w.1.2⟩, w.2⟩
    · by_cases hj : j = a
      · subst hj
        simp only [SMap.set, hlt, if_false, if_true, wfFrom, Bool.and_eq_true, decide_eq_true_eq]
        exact ⟨⟨h, by simpa using hb⟩, w.2⟩
      · simp only [SMap.set, hlt, if_false, hj, wfFrom, Bool.and_eq_true, decide_eq_true_eq]
        exact ⟨w.1, ih w.2 (by omega)⟩

/-- Writing one byte keeps the canonical form. -/
theorem wf_put {m : Memory} (a : Nat) (b : Byte) (w : wf m = true) : wf (put m a b) = true := by
  by_cases h : b = 0
  · subst h; exact wfFrom_del a w
  · rw [put_listed m a h]; exact wfFrom_set w (Nat.zero_le a) h

/-- Writing bytes keeps the canonical form. -/
theorem wf_putBytes {m : Memory} (a : Nat) (l : List Byte) (w : wf m = true) : wf (putBytes m a l) = true := by
  induction l generalizing m a with
  | nil => exact w
  | cons b l ih => exact ih (a + 1) (wf_put a b w)

/-- Filtering a memory keeps the canonical form. -/
theorem wfFrom_filter {m : Memory} {lo : Nat} (f : Host.Cell → Bool) (w : wfFrom lo m = true) :
    wfFrom lo (m.filter f) = true := by
  induction m generalizing lo with
  | nil => rfl
  | cons e t ih =>
    obtain ⟨a, b⟩ := e
    simp only [wfFrom, Bool.and_eq_true, decide_eq_true_eq] at w
    by_cases hf : f (a, b) = true
    · simp only [List.filter, hf, wfFrom, Bool.and_eq_true, decide_eq_true_eq]
      exact ⟨w.1, ih w.2⟩
    · simpa [List.filter, hf] using wfFrom_mono (by omega) (ih w.2)

/-- Two canonical memories above a bound that read alike are the same list. -/
theorem wfFrom_ext {m n : Memory} {lo : Nat} (hm : wfFrom lo m = true) (hn : wfFrom lo n = true)
    (h : ∀ a, byte m a = byte n a) : m = n := by
  have low : ∀ {t : Memory} {l k : Nat}, wfFrom l t = true → k < l → byte t k = 0 := by
    intro t
    induction t with
    | nil => intros; rfl
    | cons e t ih =>
      obtain ⟨a, b⟩ := e
      intro l k w hk
      simp only [wfFrom, Bool.and_eq_true, decide_eq_true_eq] at w
      have : a ≠ k := by omega
      have := ih w.2 (show k < a + 1 by omega)
      simpa [byte, SMap.getD, SMap.get?, *] using this
  have head : ∀ (a : Nat) (b : Byte) (t : Memory), byte ((a, b) :: t) a = b := by
    intro a b t; simp [byte, SMap.getD, SMap.get?]
  induction m generalizing n lo with
  | nil =>
    cases n with
    | nil => rfl
    | cons e t =>
      obtain ⟨a, b⟩ := e
      simp only [wfFrom, Bool.and_eq_true, decide_eq_true_eq] at hn
      have := h a
      rw [head] at this
      have z : byte [] a = 0 := rfl
      simp [z] at this
      simp [← this] at hn
  | cons e m ih =>
    obtain ⟨a, b⟩ := e
    simp only [wfFrom, Bool.and_eq_true, decide_eq_true_eq] at hm
    cases n with
    | nil =>
      have := h a
      rw [head] at this
      have z : byte [] a = 0 := rfl
      simp [z] at this
      simp [this] at hm
    | cons e n =>
      obtain ⟨c, d⟩ := e
      simp only [wfFrom, Bool.and_eq_true, decide_eq_true_eq] at hn
      have hac : a = c := by
        rcases Nat.lt_trichotomy a c with x | x | x
        · have := h a
          rw [head] at this
          have z : byte ((c, d) :: n) a = 0 := by
            have := low hn.2 (show a < c + 1 by omega)
            simpa [byte, SMap.getD, SMap.get?, show c ≠ a by omega] using this
          simp [z] at this; simp [this] at hm
        · exact x
        · have := h c
          rw [head] at this
          have z : byte ((a, b) :: m) c = 0 := by
            have := low hm.2 (show c < a + 1 by omega)
            simpa [byte, SMap.getD, SMap.get?, show a ≠ c by omega] using this
          simp [z] at this; simp [← this] at hn
      subst hac
      have hbd : b = d := by have := h a; rwa [head, head] at this
      subst hbd
      have : m = n := by
        apply ih hm.2 hn.2
        intro k
        by_cases hk : a = k
        · subst hk; rw [low hm.2 (by omega), low hn.2 (by omega)]
        · have := h k
          simpa [byte, SMap.getD, SMap.get?, hk] using this
      rw [this]

/-- Equal memories are equal data: canonical memories that read alike are the same list. -/
theorem wf_ext {m n : Memory} (hm : wf m = true) (hn : wf n = true) (h : ∀ a, byte m a = byte n a) : m = n :=
  wfFrom_ext hm hn h

end Memory

@[simp] theorem reset_mem : State.reset.mem = [] := rfl
theorem reset_mem_wf : State.reset.mem.wf = true := rfl

end Sys2Proof.Machine
end

