-- ==== Sys2Proof/Laws/State.lean ====
section
/-!
SUPPORT. What each named update of the state leaves: one lemma per field.
-/

namespace Sys2Proof.Machine


/-! `State.setSlot` -/

@[simp] theorem State.setSlot_cores (s : State) (p : Nat) (x : Slot) : (s.setSlot p x).cores = s.cores := rfl
@[simp] theorem State.setSlot_crews (s : State) (p : Nat) (x : Slot) : (s.setSlot p x).crews = s.crews := rfl
@[simp] theorem State.setSlot_dies (s : State) (p : Nat) (x : Slot) : (s.setSlot p x).dies = s.dies := rfl
@[simp] theorem State.setSlot_feat (s : State) (p : Nat) (x : Slot) : (s.setSlot p x).feat = s.feat := rfl
@[simp] theorem State.setSlot_mem (s : State) (p : Nat) (x : Slot) : (s.setSlot p x).mem = s.mem := rfl
@[simp] theorem State.setSlot_memPoison (s : State) (p : Nat) (x : Slot) : (s.setSlot p x).memPoison = s.memPoison := rfl
@[simp] theorem State.setSlot_lines (s : State) (p : Nat) (x : Slot) : (s.setSlot p x).lines = s.lines := rfl
@[simp] theorem State.setSlot_olds (s : State) (p : Nat) (x : Slot) : (s.setSlot p x).olds = s.olds := rfl
@[simp] theorem State.setSlot_codeAt (s : State) (p : Nat) (x : Slot) : (s.setSlot p x).codeAt = s.codeAt := rfl
@[simp] theorem State.setSlot_tlb (s : State) (p : Nat) (x : Slot) : (s.setSlot p x).tlb = s.tlb := rfl
@[simp] theorem State.setSlot_walks (s : State) (p : Nat) (x : Slot) : (s.setSlot p x).walks = s.walks := rfl
@[simp] theorem State.setSlot_unitWalks (s : State) (p : Nat) (x : Slot) : (s.setSlot p x).unitWalks = s.unitWalks := rfl
@[simp] theorem State.setSlot_prefs (s : State) (p : Nat) (x : Slot) : (s.setSlot p x).prefs = s.prefs := rfl
@[simp] theorem State.setSlot_mail (s : State) (p : Nat) (x : Slot) : (s.setSlot p x).mail = s.mail := rfl
@[simp] theorem State.setSlot_clusters (s : State) (p : Nat) (x : Slot) : (s.setSlot p x).clusters = s.clusters := rfl
@[simp] theorem State.setSlot_up (s : State) (p : Nat) (x : Slot) : (s.setSlot p x).up = s.up := rfl
@[simp] theorem State.setSlot_pkg (s : State) (p : Nat) (x : Slot) : (s.setSlot p x).pkg = s.pkg := rfl
@[simp] theorem State.setSlot_pkgSet (s : State) (p : Nat) (x : Slot) : (s.setSlot p x).pkgSet = s.pkgSet := rfl
@[simp] theorem State.setSlot_route (s : State) (p : Nat) (x : Slot) : (s.setSlot p x).route = s.route := rfl
@[simp] theorem State.setSlot_linkDown (s : State) (p : Nat) (x : Slot) : (s.setSlot p x).linkDown = s.linkDown := rfl
@[simp] theorem State.setSlot_locks (s : State) (p : Nat) (x : Slot) : (s.setSlot p x).locks = s.locks := rfl
@[simp] theorem State.setSlot_tiles (s : State) (p : Nat) (x : Slot) : (s.setSlot p x).tiles = s.tiles := rfl
@[simp] theorem State.setSlot_names (s : State) (p : Nat) (x : Slot) : (s.setSlot p x).names = s.names := rfl
@[simp] theorem State.setSlot_notices (s : State) (p : Nat) (x : Slot) : (s.setSlot p x).notices = s.notices := rfl
@[simp] theorem State.setSlot_recs (s : State) (p : Nat) (x : Slot) : (s.setSlot p x).recs = s.recs := rfl
@[simp] theorem State.setSlot_replies (s : State) (p : Nat) (x : Slot) : (s.setSlot p x).replies = s.replies := rfl
@[simp] theorem State.setSlot_launches (s : State) (p : Nat) (x : Slot) : (s.setSlot p x).launches = s.launches := rfl
@[simp] theorem State.setSlot_saved (s : State) (p : Nat) (x : Slot) : (s.setSlot p x).saved = s.saved := rfl
@[simp] theorem State.setSlot_faultMsgs (s : State) (p : Nat) (x : Slot) : (s.setSlot p x).faultMsgs = s.faultMsgs := rfl
@[simp] theorem State.setSlot_merges (s : State) (p : Nat) (x : Slot) : (s.setSlot p x).merges = s.merges := rfl
@[simp] theorem State.setSlot_merged (s : State) (p : Nat) (x : Slot) : (s.setSlot p x).merged = s.merged := rfl
@[simp] theorem State.setSlot_wakes (s : State) (p : Nat) (x : Slot) : (s.setSlot p x).wakes = s.wakes := rfl
@[simp] theorem State.setSlot_collects (s : State) (p : Nat) (x : Slot) : (s.setSlot p x).collects = s.collects := rfl
@[simp] theorem State.setSlot_sent (s : State) (p : Nat) (x : Slot) : (s.setSlot p x).sent = s.sent := rfl
@[simp] theorem State.setSlot_held (s : State) (p : Nat) (x : Slot) : (s.setSlot p x).held = s.held := rfl
@[simp] theorem State.setSlot_peers (s : State) (p : Nat) (x : Slot) : (s.setSlot p x).peers = s.peers := rfl
@[simp] theorem State.setSlot_switches (s : State) (p : Nat) (x : Slot) : (s.setSlot p x).switches = s.switches := rfl
@[simp] theorem State.setSlot_shadows (s : State) (p : Nat) (x : Slot) : (s.setSlot p x).shadows = s.shadows := rfl
@[simp] theorem State.setSlot_pages (s : State) (p : Nat) (x : Slot) : (s.setSlot p x).pages = s.pages := rfl
@[simp] theorem State.setSlot_pdir (s : State) (p : Nat) (x : Slot) : (s.setSlot p x).pdir = s.pdir := rfl
@[simp] theorem State.setSlot_lineAsks (s : State) (p : Nat) (x : Slot) : (s.setSlot p x).lineAsks = s.lineAsks := rfl
@[simp] theorem State.setSlot_farPuts (s : State) (p : Nat) (x : Slot) : (s.setSlot p x).farPuts = s.farPuts := rfl
@[simp] theorem State.setSlot_farGets (s : State) (p : Nat) (x : Slot) : (s.setSlot p x).farGets = s.farGets := rfl
@[simp] theorem State.setSlot_staged (s : State) (p : Nat) (x : Slot) : (s.setSlot p x).staged = s.staged := rfl
@[simp] theorem State.setSlot_accepted (s : State) (p : Nat) (x : Slot) : (s.setSlot p x).accepted = s.accepted := rfl
@[simp] theorem State.setSlot_nvmeTab (s : State) (p : Nat) (x : Slot) : (s.setSlot p x).nvmeTab = s.nvmeTab := rfl
@[simp] theorem State.setSlot_watches (s : State) (p : Nat) (x : Slot) : (s.setSlot p x).watches = s.watches := rfl
@[simp] theorem State.setSlot_window (s : State) (p : Nat) (x : Slot) : (s.setSlot p x).window = s.window := rfl
@[simp] theorem State.setSlot_nvme (s : State) (p : Nat) (x : Slot) : (s.setSlot p x).nvme = s.nvme := rfl
@[simp] theorem State.setSlot_nvmeTail (s : State) (p : Nat) (x : Slot) : (s.setSlot p x).nvmeTail = s.nvmeTail := rfl
@[simp] theorem State.setSlot_nvmeDone (s : State) (p : Nat) (x : Slot) : (s.setSlot p x).nvmeDone = s.nvmeDone := rfl
@[simp] theorem State.setSlot_bar2 (s : State) (p : Nat) (x : Slot) : (s.setSlot p x).bar2 = s.bar2 := rfl
@[simp] theorem State.setSlot_hostOut (s : State) (p : Nat) (x : Slot) : (s.setSlot p x).hostOut = s.hostOut := rfl
@[simp] theorem State.setSlot_repl (s : State) (p : Nat) (x : Slot) : (s.setSlot p x).repl = s.repl := rfl
@[simp] theorem State.setSlot_accum (s : State) (p : Nat) (x : Slot) : (s.setSlot p x).accum = s.accum := rfl
@[simp] theorem State.setSlot_digests (s : State) (p : Nat) (x : Slot) : (s.setSlot p x).digests = s.digests := rfl
@[simp] theorem State.setSlot_ends (s : State) (p : Nat) (x : Slot) : (s.setSlot p x).ends = s.ends := rfl
@[simp] theorem State.setSlot_stopped (s : State) (p : Nat) (x : Slot) : (s.setSlot p x).stopped = s.stopped := rfl
@[simp] theorem State.setSlot_pol (s : State) (p : Nat) (x : Slot) : (s.setSlot p x).pol = s.pol := rfl
@[simp] theorem State.setSlot_alarms (s : State) (p : Nat) (x : Slot) : (s.setSlot p x).alarms = s.alarms := rfl
@[simp] theorem State.setSlot_tickets (s : State) (p : Nat) (x : Slot) : (s.setSlot p x).tickets = s.tickets := rfl
@[simp] theorem State.setSlot_ctrl (s : State) (p : Nat) (x : Slot) : (s.setSlot p x).ctrl = s.ctrl := rfl
@[simp] theorem State.setSlot_seq (s : State) (p : Nat) (x : Slot) : (s.setSlot p x).seq = s.seq := rfl
@[simp] theorem State.setSlot_turn (s : State) (p : Nat) (x : Slot) : (s.setSlot p x).turn = s.turn := rfl
@[simp] theorem State.setSlot_tick (s : State) (p : Nat) (x : Slot) : (s.setSlot p x).tick = s.tick := rfl
@[simp] theorem State.setSlot_now (s : State) (p : Nat) (x : Slot) : (s.setSlot p x).now = s.now := rfl
@[simp] theorem State.setSlot_cur (s : State) (p : Nat) (x : Slot) : (s.setSlot p x).cur = s.cur := rfl

/-! `State.modSlot` -/

@[simp] theorem State.modSlot_cores (s : State) (p : Nat) (f : Slot → Slot) : (s.modSlot p f).cores = s.cores := rfl
@[simp] theorem State.modSlot_crews (s : State) (p : Nat) (f : Slot → Slot) : (s.modSlot p f).crews = s.crews := rfl
@[simp] theorem State.modSlot_dies (s : State) (p : Nat) (f : Slot → Slot) : (s.modSlot p f).dies = s.dies := rfl
@[simp] theorem State.modSlot_feat (s : State) (p : Nat) (f : Slot → Slot) : (s.modSlot p f).feat = s.feat := rfl
@[simp] theorem State.modSlot_mem (s : State) (p : Nat) (f : Slot → Slot) : (s.modSlot p f).mem = s.mem := rfl
@[simp] theorem State.modSlot_memPoison (s : State) (p : Nat) (f : Slot → Slot) : (s.modSlot p f).memPoison = s.memPoison := rfl
@[simp] theorem State.modSlot_lines (s : State) (p : Nat) (f : Slot → Slot) : (s.modSlot p f).lines = s.lines := rfl
@[simp] theorem State.modSlot_olds (s : State) (p : Nat) (f : Slot → Slot) : (s.modSlot p f).olds = s.olds := rfl
@[simp] theorem State.modSlot_codeAt (s : State) (p : Nat) (f : Slot → Slot) : (s.modSlot p f).codeAt = s.codeAt := rfl
@[simp] theorem State.modSlot_tlb (s : State) (p : Nat) (f : Slot → Slot) : (s.modSlot p f).tlb = s.tlb := rfl
@[simp] theorem State.modSlot_walks (s : State) (p : Nat) (f : Slot → Slot) : (s.modSlot p f).walks = s.walks := rfl
@[simp] theorem State.modSlot_unitWalks (s : State) (p : Nat) (f : Slot → Slot) : (s.modSlot p f).unitWalks = s.unitWalks := rfl
@[simp] theorem State.modSlot_prefs (s : State) (p : Nat) (f : Slot → Slot) : (s.modSlot p f).prefs = s.prefs := rfl
@[simp] theorem State.modSlot_mail (s : State) (p : Nat) (f : Slot → Slot) : (s.modSlot p f).mail = s.mail := rfl
@[simp] theorem State.modSlot_clusters (s : State) (p : Nat) (f : Slot → Slot) : (s.modSlot p f).clusters = s.clusters := rfl
@[simp] theorem State.modSlot_up (s : State) (p : Nat) (f : Slot → Slot) : (s.modSlot p f).up = s.up := rfl
@[simp] theorem State.modSlot_pkg (s : State) (p : Nat) (f : Slot → Slot) : (s.modSlot p f).pkg = s.pkg := rfl
@[simp] theorem State.modSlot_pkgSet (s : State) (p : Nat) (f : Slot → Slot) : (s.modSlot p f).pkgSet = s.pkgSet := rfl
@[simp] theorem State.modSlot_route (s : State) (p : Nat) (f : Slot → Slot) : (s.modSlot p f).route = s.route := rfl
@[simp] theorem State.modSlot_linkDown (s : State) (p : Nat) (f : Slot → Slot) : (s.modSlot p f).linkDown = s.linkDown := rfl
@[simp] theorem State.modSlot_locks (s : State) (p : Nat) (f : Slot → Slot) : (s.modSlot p f).locks = s.locks := rfl
@[simp] theorem State.modSlot_tiles (s : State) (p : Nat) (f : Slot → Slot) : (s.modSlot p f).tiles = s.tiles := rfl
@[simp] theorem State.modSlot_names (s : State) (p : Nat) (f : Slot → Slot) : (s.modSlot p f).names = s.names := rfl
@[simp] theorem State.modSlot_notices (s : State) (p : Nat) (f : Slot → Slot) : (s.modSlot p f).notices = s.notices := rfl
@[simp] theorem State.modSlot_recs (s : State) (p : Nat) (f : Slot → Slot) : (s.modSlot p f).recs = s.recs := rfl
@[simp] theorem State.modSlot_replies (s : State) (p : Nat) (f : Slot → Slot) : (s.modSlot p f).replies = s.replies := rfl
@[simp] theorem State.modSlot_launches (s : State) (p : Nat) (f : Slot → Slot) : (s.modSlot p f).launches = s.launches := rfl
@[simp] theorem State.modSlot_saved (s : State) (p : Nat) (f : Slot → Slot) : (s.modSlot p f).saved = s.saved := rfl
@[simp] theorem State.modSlot_faultMsgs (s : State) (p : Nat) (f : Slot → Slot) : (s.modSlot p f).faultMsgs = s.faultMsgs := rfl
@[simp] theorem State.modSlot_merges (s : State) (p : Nat) (f : Slot → Slot) : (s.modSlot p f).merges = s.merges := rfl
@[simp] theorem State.modSlot_merged (s : State) (p : Nat) (f : Slot → Slot) : (s.modSlot p f).merged = s.merged := rfl
@[simp] theorem State.modSlot_wakes (s : State) (p : Nat) (f : Slot → Slot) : (s.modSlot p f).wakes = s.wakes := rfl
@[simp] theorem State.modSlot_collects (s : State) (p : Nat) (f : Slot → Slot) : (s.modSlot p f).collects = s.collects := rfl
@[simp] theorem State.modSlot_sent (s : State) (p : Nat) (f : Slot → Slot) : (s.modSlot p f).sent = s.sent := rfl
@[simp] theorem State.modSlot_held (s : State) (p : Nat) (f : Slot → Slot) : (s.modSlot p f).held = s.held := rfl
@[simp] theorem State.modSlot_peers (s : State) (p : Nat) (f : Slot → Slot) : (s.modSlot p f).peers = s.peers := rfl
@[simp] theorem State.modSlot_switches (s : State) (p : Nat) (f : Slot → Slot) : (s.modSlot p f).switches = s.switches := rfl
@[simp] theorem State.modSlot_shadows (s : State) (p : Nat) (f : Slot → Slot) : (s.modSlot p f).shadows = s.shadows := rfl
@[simp] theorem State.modSlot_pages (s : State) (p : Nat) (f : Slot → Slot) : (s.modSlot p f).pages = s.pages := rfl
@[simp] theorem State.modSlot_pdir (s : State) (p : Nat) (f : Slot → Slot) : (s.modSlot p f).pdir = s.pdir := rfl
@[simp] theorem State.modSlot_lineAsks (s : State) (p : Nat) (f : Slot → Slot) : (s.modSlot p f).lineAsks = s.lineAsks := rfl
@[simp] theorem State.modSlot_farPuts (s : State) (p : Nat) (f : Slot → Slot) : (s.modSlot p f).farPuts = s.farPuts := rfl
@[simp] theorem State.modSlot_farGets (s : State) (p : Nat) (f : Slot → Slot) : (s.modSlot p f).farGets = s.farGets := rfl
@[simp] theorem State.modSlot_staged (s : State) (p : Nat) (f : Slot → Slot) : (s.modSlot p f).staged = s.staged := rfl
@[simp] theorem State.modSlot_accepted (s : State) (p : Nat) (f : Slot → Slot) : (s.modSlot p f).accepted = s.accepted := rfl
@[simp] theorem State.modSlot_nvmeTab (s : State) (p : Nat) (f : Slot → Slot) : (s.modSlot p f).nvmeTab = s.nvmeTab := rfl
@[simp] theorem State.modSlot_watches (s : State) (p : Nat) (f : Slot → Slot) : (s.modSlot p f).watches = s.watches := rfl
@[simp] theorem State.modSlot_window (s : State) (p : Nat) (f : Slot → Slot) : (s.modSlot p f).window = s.window := rfl
@[simp] theorem State.modSlot_nvme (s : State) (p : Nat) (f : Slot → Slot) : (s.modSlot p f).nvme = s.nvme := rfl
@[simp] theorem State.modSlot_nvmeTail (s : State) (p : Nat) (f : Slot → Slot) : (s.modSlot p f).nvmeTail = s.nvmeTail := rfl
@[simp] theorem State.modSlot_nvmeDone (s : State) (p : Nat) (f : Slot → Slot) : (s.modSlot p f).nvmeDone = s.nvmeDone := rfl
@[simp] theorem State.modSlot_bar2 (s : State) (p : Nat) (f : Slot → Slot) : (s.modSlot p f).bar2 = s.bar2 := rfl
@[simp] theorem State.modSlot_hostOut (s : State) (p : Nat) (f : Slot → Slot) : (s.modSlot p f).hostOut = s.hostOut := rfl
@[simp] theorem State.modSlot_repl (s : State) (p : Nat) (f : Slot → Slot) : (s.modSlot p f).repl = s.repl := rfl
@[simp] theorem State.modSlot_accum (s : State) (p : Nat) (f : Slot → Slot) : (s.modSlot p f).accum = s.accum := rfl
@[simp] theorem State.modSlot_digests (s : State) (p : Nat) (f : Slot → Slot) : (s.modSlot p f).digests = s.digests := rfl
@[simp] theorem State.modSlot_ends (s : State) (p : Nat) (f : Slot → Slot) : (s.modSlot p f).ends = s.ends := rfl
@[simp] theorem State.modSlot_stopped (s : State) (p : Nat) (f : Slot → Slot) : (s.modSlot p f).stopped = s.stopped := rfl
@[simp] theorem State.modSlot_pol (s : State) (p : Nat) (f : Slot → Slot) : (s.modSlot p f).pol = s.pol := rfl
@[simp] theorem State.modSlot_alarms (s : State) (p : Nat) (f : Slot → Slot) : (s.modSlot p f).alarms = s.alarms := rfl
@[simp] theorem State.modSlot_tickets (s : State) (p : Nat) (f : Slot → Slot) : (s.modSlot p f).tickets = s.tickets := rfl
@[simp] theorem State.modSlot_ctrl (s : State) (p : Nat) (f : Slot → Slot) : (s.modSlot p f).ctrl = s.ctrl := rfl
@[simp] theorem State.modSlot_seq (s : State) (p : Nat) (f : Slot → Slot) : (s.modSlot p f).seq = s.seq := rfl
@[simp] theorem State.modSlot_turn (s : State) (p : Nat) (f : Slot → Slot) : (s.modSlot p f).turn = s.turn := rfl
@[simp] theorem State.modSlot_tick (s : State) (p : Nat) (f : Slot → Slot) : (s.modSlot p f).tick = s.tick := rfl
@[simp] theorem State.modSlot_now (s : State) (p : Nat) (f : Slot → Slot) : (s.modSlot p f).now = s.now := rfl
@[simp] theorem State.modSlot_cur (s : State) (p : Nat) (f : Slot → Slot) : (s.modSlot p f).cur = s.cur := rfl

/-! `State.modMe` -/

@[simp] theorem State.modMe_cores (s : State) (f : Slot → Slot) : (s.modMe f).cores = s.cores := rfl
@[simp] theorem State.modMe_crews (s : State) (f : Slot → Slot) : (s.modMe f).crews = s.crews := rfl
@[simp] theorem State.modMe_dies (s : State) (f : Slot → Slot) : (s.modMe f).dies = s.dies := rfl
@[simp] theorem State.modMe_feat (s : State) (f : Slot → Slot) : (s.modMe f).feat = s.feat := rfl
@[simp] theorem State.modMe_mem (s : State) (f : Slot → Slot) : (s.modMe f).mem = s.mem := rfl
@[simp] theorem State.modMe_memPoison (s : State) (f : Slot → Slot) : (s.modMe f).memPoison = s.memPoison := rfl
@[simp] theorem State.modMe_lines (s : State) (f : Slot → Slot) : (s.modMe f).lines = s.lines := rfl
@[simp] theorem State.modMe_olds (s : State) (f : Slot → Slot) : (s.modMe f).olds = s.olds := rfl
@[simp] theorem State.modMe_codeAt (s : State) (f : Slot → Slot) : (s.modMe f).codeAt = s.codeAt := rfl
@[simp] theorem State.modMe_tlb (s : State) (f : Slot → Slot) : (s.modMe f).tlb = s.tlb := rfl
@[simp] theorem State.modMe_walks (s : State) (f : Slot → Slot) : (s.modMe f).walks = s.walks := rfl
@[simp] theorem State.modMe_unitWalks (s : State) (f : Slot → Slot) : (s.modMe f).unitWalks = s.unitWalks := rfl
@[simp] theorem State.modMe_prefs (s : State) (f : Slot → Slot) : (s.modMe f).prefs = s.prefs := rfl
@[simp] theorem State.modMe_mail (s : State) (f : Slot → Slot) : (s.modMe f).mail = s.mail := rfl
@[simp] theorem State.modMe_clusters (s : State) (f : Slot → Slot) : (s.modMe f).clusters = s.clusters := rfl
@[simp] theorem State.modMe_up (s : State) (f : Slot → Slot) : (s.modMe f).up = s.up := rfl
@[simp] theorem State.modMe_pkg (s : State) (f : Slot → Slot) : (s.modMe f).pkg = s.pkg := rfl
@[simp] theorem State.modMe_pkgSet (s : State) (f : Slot → Slot) : (s.modMe f).pkgSet = s.pkgSet := rfl
@[simp] theorem State.modMe_route (s : State) (f : Slot → Slot) : (s.modMe f).route = s.route := rfl
@[simp] theorem State.modMe_linkDown (s : State) (f : Slot → Slot) : (s.modMe f).linkDown = s.linkDown := rfl
@[simp] theorem State.modMe_locks (s : State) (f : Slot → Slot) : (s.modMe f).locks = s.locks := rfl
@[simp] theorem State.modMe_tiles (s : State) (f : Slot → Slot) : (s.modMe f).tiles = s.tiles := rfl
@[simp] theorem State.modMe_names (s : State) (f : Slot → Slot) : (s.modMe f).names = s.names := rfl
@[simp] theorem State.modMe_notices (s : State) (f : Slot → Slot) : (s.modMe f).notices = s.notices := rfl
@[simp] theorem State.modMe_recs (s : State) (f : Slot → Slot) : (s.modMe f).recs = s.recs := rfl
@[simp] theorem State.modMe_replies (s : State) (f : Slot → Slot) : (s.modMe f).replies = s.replies := rfl
@[simp] theorem State.modMe_launches (s : State) (f : Slot → Slot) : (s.modMe f).launches = s.launches := rfl
@[simp] theorem State.modMe_saved (s : State) (f : Slot → Slot) : (s.modMe f).saved = s.saved := rfl
@[simp] theorem State.modMe_faultMsgs (s : State) (f : Slot → Slot) : (s.modMe f).faultMsgs = s.faultMsgs := rfl
@[simp] theorem State.modMe_merges (s : State) (f : Slot → Slot) : (s.modMe f).merges = s.merges := rfl
@[simp] theorem State.modMe_merged (s : State) (f : Slot → Slot) : (s.modMe f).merged = s.merged := rfl
@[simp] theorem State.modMe_wakes (s : State) (f : Slot → Slot) : (s.modMe f).wakes = s.wakes := rfl
@[simp] theorem State.modMe_collects (s : State) (f : Slot → Slot) : (s.modMe f).collects = s.collects := rfl
@[simp] theorem State.modMe_sent (s : State) (f : Slot → Slot) : (s.modMe f).sent = s.sent := rfl
@[simp] theorem State.modMe_held (s : State) (f : Slot → Slot) : (s.modMe f).held = s.held := rfl
@[simp] theorem State.modMe_peers (s : State) (f : Slot → Slot) : (s.modMe f).peers = s.peers := rfl
@[simp] theorem State.modMe_switches (s : State) (f : Slot → Slot) : (s.modMe f).switches = s.switches := rfl
@[simp] theorem State.modMe_shadows (s : State) (f : Slot → Slot) : (s.modMe f).shadows = s.shadows := rfl
@[simp] theorem State.modMe_pages (s : State) (f : Slot → Slot) : (s.modMe f).pages = s.pages := rfl
@[simp] theorem State.modMe_pdir (s : State) (f : Slot → Slot) : (s.modMe f).pdir = s.pdir := rfl
@[simp] theorem State.modMe_lineAsks (s : State) (f : Slot → Slot) : (s.modMe f).lineAsks = s.lineAsks := rfl
@[simp] theorem State.modMe_farPuts (s : State) (f : Slot → Slot) : (s.modMe f).farPuts = s.farPuts := rfl
@[simp] theorem State.modMe_farGets (s : State) (f : Slot → Slot) : (s.modMe f).farGets = s.farGets := rfl
@[simp] theorem State.modMe_staged (s : State) (f : Slot → Slot) : (s.modMe f).staged = s.staged := rfl
@[simp] theorem State.modMe_accepted (s : State) (f : Slot → Slot) : (s.modMe f).accepted = s.accepted := rfl
@[simp] theorem State.modMe_nvmeTab (s : State) (f : Slot → Slot) : (s.modMe f).nvmeTab = s.nvmeTab := rfl
@[simp] theorem State.modMe_watches (s : State) (f : Slot → Slot) : (s.modMe f).watches = s.watches := rfl
@[simp] theorem State.modMe_window (s : State) (f : Slot → Slot) : (s.modMe f).window = s.window := rfl
@[simp] theorem State.modMe_nvme (s : State) (f : Slot → Slot) : (s.modMe f).nvme = s.nvme := rfl
@[simp] theorem State.modMe_nvmeTail (s : State) (f : Slot → Slot) : (s.modMe f).nvmeTail = s.nvmeTail := rfl
@[simp] theorem State.modMe_nvmeDone (s : State) (f : Slot → Slot) : (s.modMe f).nvmeDone = s.nvmeDone := rfl
@[simp] theorem State.modMe_bar2 (s : State) (f : Slot → Slot) : (s.modMe f).bar2 = s.bar2 := rfl
@[simp] theorem State.modMe_hostOut (s : State) (f : Slot → Slot) : (s.modMe f).hostOut = s.hostOut := rfl
@[simp] theorem State.modMe_repl (s : State) (f : Slot → Slot) : (s.modMe f).repl = s.repl := rfl
@[simp] theorem State.modMe_accum (s : State) (f : Slot → Slot) : (s.modMe f).accum = s.accum := rfl
@[simp] theorem State.modMe_digests (s : State) (f : Slot → Slot) : (s.modMe f).digests = s.digests := rfl
@[simp] theorem State.modMe_ends (s : State) (f : Slot → Slot) : (s.modMe f).ends = s.ends := rfl
@[simp] theorem State.modMe_stopped (s : State) (f : Slot → Slot) : (s.modMe f).stopped = s.stopped := rfl
@[simp] theorem State.modMe_pol (s : State) (f : Slot → Slot) : (s.modMe f).pol = s.pol := rfl
@[simp] theorem State.modMe_alarms (s : State) (f : Slot → Slot) : (s.modMe f).alarms = s.alarms := rfl
@[simp] theorem State.modMe_tickets (s : State) (f : Slot → Slot) : (s.modMe f).tickets = s.tickets := rfl
@[simp] theorem State.modMe_ctrl (s : State) (f : Slot → Slot) : (s.modMe f).ctrl = s.ctrl := rfl
@[simp] theorem State.modMe_seq (s : State) (f : Slot → Slot) : (s.modMe f).seq = s.seq := rfl
@[simp] theorem State.modMe_turn (s : State) (f : Slot → Slot) : (s.modMe f).turn = s.turn := rfl
@[simp] theorem State.modMe_tick (s : State) (f : Slot → Slot) : (s.modMe f).tick = s.tick := rfl
@[simp] theorem State.modMe_now (s : State) (f : Slot → Slot) : (s.modMe f).now = s.now := rfl
@[simp] theorem State.modMe_cur (s : State) (f : Slot → Slot) : (s.modMe f).cur = s.cur := rfl

/-! `State.modCore` -/

@[simp] theorem State.modCore_slots (s : State) (k : Nat) (f : Core → Core) : (s.modCore k f).slots = s.slots := rfl
@[simp] theorem State.modCore_crews (s : State) (k : Nat) (f : Core → Core) : (s.modCore k f).crews = s.crews := rfl
@[simp] theorem State.modCore_dies (s : State) (k : Nat) (f : Core → Core) : (s.modCore k f).dies = s.dies := rfl
@[simp] theorem State.modCore_feat (s : State) (k : Nat) (f : Core → Core) : (s.modCore k f).feat = s.feat := rfl
@[simp] theorem State.modCore_mem (s : State) (k : Nat) (f : Core → Core) : (s.modCore k f).mem = s.mem := rfl
@[simp] theorem State.modCore_memPoison (s : State) (k : Nat) (f : Core → Core) : (s.modCore k f).memPoison = s.memPoison := rfl
@[simp] theorem State.modCore_lines (s : State) (k : Nat) (f : Core → Core) : (s.modCore k f).lines = s.lines := rfl
@[simp] theorem State.modCore_olds (s : State) (k : Nat) (f : Core → Core) : (s.modCore k f).olds = s.olds := rfl
@[simp] theorem State.modCore_codeAt (s : State) (k : Nat) (f : Core → Core) : (s.modCore k f).codeAt = s.codeAt := rfl
@[simp] theorem State.modCore_tlb (s : State) (k : Nat) (f : Core → Core) : (s.modCore k f).tlb = s.tlb := rfl
@[simp] theorem State.modCore_walks (s : State) (k : Nat) (f : Core → Core) : (s.modCore k f).walks = s.walks := rfl
@[simp] theorem State.modCore_unitWalks (s : State) (k : Nat) (f : Core → Core) : (s.modCore k f).unitWalks = s.unitWalks := rfl
@[simp] theorem State.modCore_prefs (s : State) (k : Nat) (f : Core → Core) : (s.modCore k f).prefs = s.prefs := rfl
@[simp] theorem State.modCore_mail (s : State) (k : Nat) (f : Core → Core) : (s.modCore k f).mail = s.mail := rfl
@[simp] theorem State.modCore_clusters (s : State) (k : Nat) (f : Core → Core) : (s.modCore k f).clusters = s.clusters := rfl
@[simp] theorem State.modCore_up (s : State) (k : Nat) (f : Core → Core) : (s.modCore k f).up = s.up := rfl
@[simp] theorem State.modCore_pkg (s : State) (k : Nat) (f : Core → Core) : (s.modCore k f).pkg = s.pkg := rfl
@[simp] theorem State.modCore_pkgSet (s : State) (k : Nat) (f : Core → Core) : (s.modCore k f).pkgSet = s.pkgSet := rfl
@[simp] theorem State.modCore_route (s : State) (k : Nat) (f : Core → Core) : (s.modCore k f).route = s.route := rfl
@[simp] theorem State.modCore_linkDown (s : State) (k : Nat) (f : Core → Core) : (s.modCore k f).linkDown = s.linkDown := rfl
@[simp] theorem State.modCore_locks (s : State) (k : Nat) (f : Core → Core) : (s.modCore k f).locks = s.locks := rfl
@[simp] theorem State.modCore_tiles (s : State) (k : Nat) (f : Core → Core) : (s.modCore k f).tiles = s.tiles := rfl
@[simp] theorem State.modCore_names (s : State) (k : Nat) (f : Core → Core) : (s.modCore k f).names = s.names := rfl
@[simp] theorem State.modCore_notices (s : State) (k : Nat) (f : Core → Core) : (s.modCore k f).notices = s.notices := rfl
@[simp] theorem State.modCore_recs (s : State) (k : Nat) (f : Core → Core) : (s.modCore k f).recs = s.recs := rfl
@[simp] theorem State.modCore_replies (s : State) (k : Nat) (f : Core → Core) : (s.modCore k f).replies = s.replies := rfl
@[simp] theorem State.modCore_launches (s : State) (k : Nat) (f : Core → Core) : (s.modCore k f).launches = s.launches := rfl
@[simp] theorem State.modCore_saved (s : State) (k : Nat) (f : Core → Core) : (s.modCore k f).saved = s.saved := rfl
@[simp] theorem State.modCore_faultMsgs (s : State) (k : Nat) (f : Core → Core) : (s.modCore k f).faultMsgs = s.faultMsgs := rfl
@[simp] theorem State.modCore_merges (s : State) (k : Nat) (f : Core → Core) : (s.modCore k f).merges = s.merges := rfl
@[simp] theorem State.modCore_merged (s : State) (k : Nat) (f : Core → Core) : (s.modCore k f).merged = s.merged := rfl
@[simp] theorem State.modCore_wakes (s : State) (k : Nat) (f : Core → Core) : (s.modCore k f).wakes = s.wakes := rfl
@[simp] theorem State.modCore_collects (s : State) (k : Nat) (f : Core → Core) : (s.modCore k f).collects = s.collects := rfl
@[simp] theorem State.modCore_sent (s : State) (k : Nat) (f : Core → Core) : (s.modCore k f).sent = s.sent := rfl
@[simp] theorem State.modCore_held (s : State) (k : Nat) (f : Core → Core) : (s.modCore k f).held = s.held := rfl
@[simp] theorem State.modCore_peers (s : State) (k : Nat) (f : Core → Core) : (s.modCore k f).peers = s.peers := rfl
@[simp] theorem State.modCore_switches (s : State) (k : Nat) (f : Core → Core) : (s.modCore k f).switches = s.switches := rfl
@[simp] theorem State.modCore_shadows (s : State) (k : Nat) (f : Core → Core) : (s.modCore k f).shadows = s.shadows := rfl
@[simp] theorem State.modCore_pages (s : State) (k : Nat) (f : Core → Core) : (s.modCore k f).pages = s.pages := rfl
@[simp] theorem State.modCore_pdir (s : State) (k : Nat) (f : Core → Core) : (s.modCore k f).pdir = s.pdir := rfl
@[simp] theorem State.modCore_lineAsks (s : State) (k : Nat) (f : Core → Core) : (s.modCore k f).lineAsks = s.lineAsks := rfl
@[simp] theorem State.modCore_farPuts (s : State) (k : Nat) (f : Core → Core) : (s.modCore k f).farPuts = s.farPuts := rfl
@[simp] theorem State.modCore_farGets (s : State) (k : Nat) (f : Core → Core) : (s.modCore k f).farGets = s.farGets := rfl
@[simp] theorem State.modCore_staged (s : State) (k : Nat) (f : Core → Core) : (s.modCore k f).staged = s.staged := rfl
@[simp] theorem State.modCore_accepted (s : State) (k : Nat) (f : Core → Core) : (s.modCore k f).accepted = s.accepted := rfl
@[simp] theorem State.modCore_nvmeTab (s : State) (k : Nat) (f : Core → Core) : (s.modCore k f).nvmeTab = s.nvmeTab := rfl
@[simp] theorem State.modCore_watches (s : State) (k : Nat) (f : Core → Core) : (s.modCore k f).watches = s.watches := rfl
@[simp] theorem State.modCore_window (s : State) (k : Nat) (f : Core → Core) : (s.modCore k f).window = s.window := rfl
@[simp] theorem State.modCore_nvme (s : State) (k : Nat) (f : Core → Core) : (s.modCore k f).nvme = s.nvme := rfl
@[simp] theorem State.modCore_nvmeTail (s : State) (k : Nat) (f : Core → Core) : (s.modCore k f).nvmeTail = s.nvmeTail := rfl
@[simp] theorem State.modCore_nvmeDone (s : State) (k : Nat) (f : Core → Core) : (s.modCore k f).nvmeDone = s.nvmeDone := rfl
@[simp] theorem State.modCore_bar2 (s : State) (k : Nat) (f : Core → Core) : (s.modCore k f).bar2 = s.bar2 := rfl
@[simp] theorem State.modCore_hostOut (s : State) (k : Nat) (f : Core → Core) : (s.modCore k f).hostOut = s.hostOut := rfl
@[simp] theorem State.modCore_repl (s : State) (k : Nat) (f : Core → Core) : (s.modCore k f).repl = s.repl := rfl
@[simp] theorem State.modCore_accum (s : State) (k : Nat) (f : Core → Core) : (s.modCore k f).accum = s.accum := rfl
@[simp] theorem State.modCore_digests (s : State) (k : Nat) (f : Core → Core) : (s.modCore k f).digests = s.digests := rfl
@[simp] theorem State.modCore_ends (s : State) (k : Nat) (f : Core → Core) : (s.modCore k f).ends = s.ends := rfl
@[simp] theorem State.modCore_stopped (s : State) (k : Nat) (f : Core → Core) : (s.modCore k f).stopped = s.stopped := rfl
@[simp] theorem State.modCore_pol (s : State) (k : Nat) (f : Core → Core) : (s.modCore k f).pol = s.pol := rfl
@[simp] theorem State.modCore_alarms (s : State) (k : Nat) (f : Core → Core) : (s.modCore k f).alarms = s.alarms := rfl
@[simp] theorem State.modCore_tickets (s : State) (k : Nat) (f : Core → Core) : (s.modCore k f).tickets = s.tickets := rfl
@[simp] theorem State.modCore_ctrl (s : State) (k : Nat) (f : Core → Core) : (s.modCore k f).ctrl = s.ctrl := rfl
@[simp] theorem State.modCore_seq (s : State) (k : Nat) (f : Core → Core) : (s.modCore k f).seq = s.seq := rfl
@[simp] theorem State.modCore_turn (s : State) (k : Nat) (f : Core → Core) : (s.modCore k f).turn = s.turn := rfl
@[simp] theorem State.modCore_tick (s : State) (k : Nat) (f : Core → Core) : (s.modCore k f).tick = s.tick := rfl
@[simp] theorem State.modCore_now (s : State) (k : Nat) (f : Core → Core) : (s.modCore k f).now = s.now := rfl
@[simp] theorem State.modCore_cur (s : State) (k : Nat) (f : Core → Core) : (s.modCore k f).cur = s.cur := rfl

/-! `State.modChan` -/

@[simp] theorem State.modChan_slots (s : State) (k : Nat) (n : Fin 4) (f : Channel → Channel) : (s.modChan k n f).slots = s.slots := rfl
@[simp] theorem State.modChan_crews (s : State) (k : Nat) (n : Fin 4) (f : Channel → Channel) : (s.modChan k n f).crews = s.crews := rfl
@[simp] theorem State.modChan_dies (s : State) (k : Nat) (n : Fin 4) (f : Channel → Channel) : (s.modChan k n f).dies = s.dies := rfl
@[simp] theorem State.modChan_feat (s : State) (k : Nat) (n : Fin 4) (f : Channel → Channel) : (s.modChan k n f).feat = s.feat := rfl
@[simp] theorem State.modChan_mem (s : State) (k : Nat) (n : Fin 4) (f : Channel → Channel) : (s.modChan k n f).mem = s.mem := rfl
@[simp] theorem State.modChan_memPoison (s : State) (k : Nat) (n : Fin 4) (f : Channel → Channel) : (s.modChan k n f).memPoison = s.memPoison := rfl
@[simp] theorem State.modChan_lines (s : State) (k : Nat) (n : Fin 4) (f : Channel → Channel) : (s.modChan k n f).lines = s.lines := rfl
@[simp] theorem State.modChan_olds (s : State) (k : Nat) (n : Fin 4) (f : Channel → Channel) : (s.modChan k n f).olds = s.olds := rfl
@[simp] theorem State.modChan_codeAt (s : State) (k : Nat) (n : Fin 4) (f : Channel → Channel) : (s.modChan k n f).codeAt = s.codeAt := rfl
@[simp] theorem State.modChan_tlb (s : State) (k : Nat) (n : Fin 4) (f : Channel → Channel) : (s.modChan k n f).tlb = s.tlb := rfl
@[simp] theorem State.modChan_walks (s : State) (k : Nat) (n : Fin 4) (f : Channel → Channel) : (s.modChan k n f).walks = s.walks := rfl
@[simp] theorem State.modChan_unitWalks (s : State) (k : Nat) (n : Fin 4) (f : Channel → Channel) : (s.modChan k n f).unitWalks = s.unitWalks := rfl
@[simp] theorem State.modChan_prefs (s : State) (k : Nat) (n : Fin 4) (f : Channel → Channel) : (s.modChan k n f).prefs = s.prefs := rfl
@[simp] theorem State.modChan_mail (s : State) (k : Nat) (n : Fin 4) (f : Channel → Channel) : (s.modChan k n f).mail = s.mail := rfl
@[simp] theorem State.modChan_clusters (s : State) (k : Nat) (n : Fin 4) (f : Channel → Channel) : (s.modChan k n f).clusters = s.clusters := rfl
@[simp] theorem State.modChan_up (s : State) (k : Nat) (n : Fin 4) (f : Channel → Channel) : (s.modChan k n f).up = s.up := rfl
@[simp] theorem State.modChan_pkg (s : State) (k : Nat) (n : Fin 4) (f : Channel → Channel) : (s.modChan k n f).pkg = s.pkg := rfl
@[simp] theorem State.modChan_pkgSet (s : State) (k : Nat) (n : Fin 4) (f : Channel → Channel) : (s.modChan k n f).pkgSet = s.pkgSet := rfl
@[simp] theorem State.modChan_route (s : State) (k : Nat) (n : Fin 4) (f : Channel → Channel) : (s.modChan k n f).route = s.route := rfl
@[simp] theorem State.modChan_linkDown (s : State) (k : Nat) (n : Fin 4) (f : Channel → Channel) : (s.modChan k n f).linkDown = s.linkDown := rfl
@[simp] theorem State.modChan_locks (s : State) (k : Nat) (n : Fin 4) (f : Channel → Channel) : (s.modChan k n f).locks = s.locks := rfl
@[simp] theorem State.modChan_tiles (s : State) (k : Nat) (n : Fin 4) (f : Channel → Channel) : (s.modChan k n f).tiles = s.tiles := rfl
@[simp] theorem State.modChan_names (s : State) (k : Nat) (n : Fin 4) (f : Channel → Channel) : (s.modChan k n f).names = s.names := rfl
@[simp] theorem State.modChan_notices (s : State) (k : Nat) (n : Fin 4) (f : Channel → Channel) : (s.modChan k n f).notices = s.notices := rfl
@[simp] theorem State.modChan_recs (s : State) (k : Nat) (n : Fin 4) (f : Channel → Channel) : (s.modChan k n f).recs = s.recs := rfl
@[simp] theorem State.modChan_replies (s : State) (k : Nat) (n : Fin 4) (f : Channel → Channel) : (s.modChan k n f).replies = s.replies := rfl
@[simp] theorem State.modChan_launches (s : State) (k : Nat) (n : Fin 4) (f : Channel → Channel) : (s.modChan k n f).launches = s.launches := rfl
@[simp] theorem State.modChan_saved (s : State) (k : Nat) (n : Fin 4) (f : Channel → Channel) : (s.modChan k n f).saved = s.saved := rfl
@[simp] theorem State.modChan_faultMsgs (s : State) (k : Nat) (n : Fin 4) (f : Channel → Channel) : (s.modChan k n f).faultMsgs = s.faultMsgs := rfl
@[simp] theorem State.modChan_merges (s : State) (k : Nat) (n : Fin 4) (f : Channel → Channel) : (s.modChan k n f).merges = s.merges := rfl
@[simp] theorem State.modChan_merged (s : State) (k : Nat) (n : Fin 4) (f : Channel → Channel) : (s.modChan k n f).merged = s.merged := rfl
@[simp] theorem State.modChan_wakes (s : State) (k : Nat) (n : Fin 4) (f : Channel → Channel) : (s.modChan k n f).wakes = s.wakes := rfl
@[simp] theorem State.modChan_collects (s : State) (k : Nat) (n : Fin 4) (f : Channel → Channel) : (s.modChan k n f).collects = s.collects := rfl
@[simp] theorem State.modChan_sent (s : State) (k : Nat) (n : Fin 4) (f : Channel → Channel) : (s.modChan k n f).sent = s.sent := rfl
@[simp] theorem State.modChan_held (s : State) (k : Nat) (n : Fin 4) (f : Channel → Channel) : (s.modChan k n f).held = s.held := rfl
@[simp] theorem State.modChan_peers (s : State) (k : Nat) (n : Fin 4) (f : Channel → Channel) : (s.modChan k n f).peers = s.peers := rfl
@[simp] theorem State.modChan_switches (s : State) (k : Nat) (n : Fin 4) (f : Channel → Channel) : (s.modChan k n f).switches = s.switches := rfl
@[simp] theorem State.modChan_shadows (s : State) (k : Nat) (n : Fin 4) (f : Channel → Channel) : (s.modChan k n f).shadows = s.shadows := rfl
@[simp] theorem State.modChan_pages (s : State) (k : Nat) (n : Fin 4) (f : Channel → Channel) : (s.modChan k n f).pages = s.pages := rfl
@[simp] theorem State.modChan_pdir (s : State) (k : Nat) (n : Fin 4) (f : Channel → Channel) : (s.modChan k n f).pdir = s.pdir := rfl
@[simp] theorem State.modChan_lineAsks (s : State) (k : Nat) (n : Fin 4) (f : Channel → Channel) : (s.modChan k n f).lineAsks = s.lineAsks := rfl
@[simp] theorem State.modChan_farPuts (s : State) (k : Nat) (n : Fin 4) (f : Channel → Channel) : (s.modChan k n f).farPuts = s.farPuts := rfl
@[simp] theorem State.modChan_farGets (s : State) (k : Nat) (n : Fin 4) (f : Channel → Channel) : (s.modChan k n f).farGets = s.farGets := rfl
@[simp] theorem State.modChan_staged (s : State) (k : Nat) (n : Fin 4) (f : Channel → Channel) : (s.modChan k n f).staged = s.staged := rfl
@[simp] theorem State.modChan_accepted (s : State) (k : Nat) (n : Fin 4) (f : Channel → Channel) : (s.modChan k n f).accepted = s.accepted := rfl
@[simp] theorem State.modChan_nvmeTab (s : State) (k : Nat) (n : Fin 4) (f : Channel → Channel) : (s.modChan k n f).nvmeTab = s.nvmeTab := rfl
@[simp] theorem State.modChan_watches (s : State) (k : Nat) (n : Fin 4) (f : Channel → Channel) : (s.modChan k n f).watches = s.watches := rfl
@[simp] theorem State.modChan_window (s : State) (k : Nat) (n : Fin 4) (f : Channel → Channel) : (s.modChan k n f).window = s.window := rfl
@[simp] theorem State.modChan_nvme (s : State) (k : Nat) (n : Fin 4) (f : Channel → Channel) : (s.modChan k n f).nvme = s.nvme := rfl
@[simp] theorem State.modChan_nvmeTail (s : State) (k : Nat) (n : Fin 4) (f : Channel → Channel) : (s.modChan k n f).nvmeTail = s.nvmeTail := rfl
@[simp] theorem State.modChan_nvmeDone (s : State) (k : Nat) (n : Fin 4) (f : Channel → Channel) : (s.modChan k n f).nvmeDone = s.nvmeDone := rfl
@[simp] theorem State.modChan_bar2 (s : State) (k : Nat) (n : Fin 4) (f : Channel → Channel) : (s.modChan k n f).bar2 = s.bar2 := rfl
@[simp] theorem State.modChan_hostOut (s : State) (k : Nat) (n : Fin 4) (f : Channel → Channel) : (s.modChan k n f).hostOut = s.hostOut := rfl
@[simp] theorem State.modChan_repl (s : State) (k : Nat) (n : Fin 4) (f : Channel → Channel) : (s.modChan k n f).repl = s.repl := rfl
@[simp] theorem State.modChan_accum (s : State) (k : Nat) (n : Fin 4) (f : Channel → Channel) : (s.modChan k n f).accum = s.accum := rfl
@[simp] theorem State.modChan_digests (s : State) (k : Nat) (n : Fin 4) (f : Channel → Channel) : (s.modChan k n f).digests = s.digests := rfl
@[simp] theorem State.modChan_ends (s : State) (k : Nat) (n : Fin 4) (f : Channel → Channel) : (s.modChan k n f).ends = s.ends := rfl
@[simp] theorem State.modChan_stopped (s : State) (k : Nat) (n : Fin 4) (f : Channel → Channel) : (s.modChan k n f).stopped = s.stopped := rfl
@[simp] theorem State.modChan_pol (s : State) (k : Nat) (n : Fin 4) (f : Channel → Channel) : (s.modChan k n f).pol = s.pol := rfl
@[simp] theorem State.modChan_alarms (s : State) (k : Nat) (n : Fin 4) (f : Channel → Channel) : (s.modChan k n f).alarms = s.alarms := rfl
@[simp] theorem State.modChan_tickets (s : State) (k : Nat) (n : Fin 4) (f : Channel → Channel) : (s.modChan k n f).tickets = s.tickets := rfl
@[simp] theorem State.modChan_ctrl (s : State) (k : Nat) (n : Fin 4) (f : Channel → Channel) : (s.modChan k n f).ctrl = s.ctrl := rfl
@[simp] theorem State.modChan_seq (s : State) (k : Nat) (n : Fin 4) (f : Channel → Channel) : (s.modChan k n f).seq = s.seq := rfl
@[simp] theorem State.modChan_turn (s : State) (k : Nat) (n : Fin 4) (f : Channel → Channel) : (s.modChan k n f).turn = s.turn := rfl
@[simp] theorem State.modChan_tick (s : State) (k : Nat) (n : Fin 4) (f : Channel → Channel) : (s.modChan k n f).tick = s.tick := rfl
@[simp] theorem State.modChan_now (s : State) (k : Nat) (n : Fin 4) (f : Channel → Channel) : (s.modChan k n f).now = s.now := rfl
@[simp] theorem State.modChan_cur (s : State) (k : Nat) (n : Fin 4) (f : Channel → Channel) : (s.modChan k n f).cur = s.cur := rfl

/-! `State.modCrew` -/

@[simp] theorem State.modCrew_slots (s : State) (k : Nat) (f : Crew → Crew) : (s.modCrew k f).slots = s.slots := rfl
@[simp] theorem State.modCrew_cores (s : State) (k : Nat) (f : Crew → Crew) : (s.modCrew k f).cores = s.cores := rfl
@[simp] theorem State.modCrew_dies (s : State) (k : Nat) (f : Crew → Crew) : (s.modCrew k f).dies = s.dies := rfl
@[simp] theorem State.modCrew_feat (s : State) (k : Nat) (f : Crew → Crew) : (s.modCrew k f).feat = s.feat := rfl
@[simp] theorem State.modCrew_mem (s : State) (k : Nat) (f : Crew → Crew) : (s.modCrew k f).mem = s.mem := rfl
@[simp] theorem State.modCrew_memPoison (s : State) (k : Nat) (f : Crew → Crew) : (s.modCrew k f).memPoison = s.memPoison := rfl
@[simp] theorem State.modCrew_lines (s : State) (k : Nat) (f : Crew → Crew) : (s.modCrew k f).lines = s.lines := rfl
@[simp] theorem State.modCrew_olds (s : State) (k : Nat) (f : Crew → Crew) : (s.modCrew k f).olds = s.olds := rfl
@[simp] theorem State.modCrew_codeAt (s : State) (k : Nat) (f : Crew → Crew) : (s.modCrew k f).codeAt = s.codeAt := rfl
@[simp] theorem State.modCrew_tlb (s : State) (k : Nat) (f : Crew → Crew) : (s.modCrew k f).tlb = s.tlb := rfl
@[simp] theorem State.modCrew_walks (s : State) (k : Nat) (f : Crew → Crew) : (s.modCrew k f).walks = s.walks := rfl
@[simp] theorem State.modCrew_unitWalks (s : State) (k : Nat) (f : Crew → Crew) : (s.modCrew k f).unitWalks = s.unitWalks := rfl
@[simp] theorem State.modCrew_prefs (s : State) (k : Nat) (f : Crew → Crew) : (s.modCrew k f).prefs = s.prefs := rfl
@[simp] theorem State.modCrew_mail (s : State) (k : Nat) (f : Crew → Crew) : (s.modCrew k f).mail = s.mail := rfl
@[simp] theorem State.modCrew_clusters (s : State) (k : Nat) (f : Crew → Crew) : (s.modCrew k f).clusters = s.clusters := rfl
@[simp] theorem State.modCrew_up (s : State) (k : Nat) (f : Crew → Crew) : (s.modCrew k f).up = s.up := rfl
@[simp] theorem State.modCrew_pkg (s : State) (k : Nat) (f : Crew → Crew) : (s.modCrew k f).pkg = s.pkg := rfl
@[simp] theorem State.modCrew_pkgSet (s : State) (k : Nat) (f : Crew → Crew) : (s.modCrew k f).pkgSet = s.pkgSet := rfl
@[simp] theorem State.modCrew_route (s : State) (k : Nat) (f : Crew → Crew) : (s.modCrew k f).route = s.route := rfl
@[simp] theorem State.modCrew_linkDown (s : State) (k : Nat) (f : Crew → Crew) : (s.modCrew k f).linkDown = s.linkDown := rfl
@[simp] theorem State.modCrew_locks (s : State) (k : Nat) (f : Crew → Crew) : (s.modCrew k f).locks = s.locks := rfl
@[simp] theorem State.modCrew_tiles (s : State) (k : Nat) (f : Crew → Crew) : (s.modCrew k f).tiles = s.tiles := rfl
@[simp] theorem State.modCrew_names (s : State) (k : Nat) (f : Crew → Crew) : (s.modCrew k f).names = s.names := rfl
@[simp] theorem State.modCrew_notices (s : State) (k : Nat) (f : Crew → Crew) : (s.modCrew k f).notices = s.notices := rfl
@[simp] theorem State.modCrew_recs (s : State) (k : Nat) (f : Crew → Crew) : (s.modCrew k f).recs = s.recs := rfl
@[simp] theorem State.modCrew_replies (s : State) (k : Nat) (f : Crew → Crew) : (s.modCrew k f).replies = s.replies := rfl
@[simp] theorem State.modCrew_launches (s : State) (k : Nat) (f : Crew → Crew) : (s.modCrew k f).launches = s.launches := rfl
@[simp] theorem State.modCrew_saved (s : State) (k : Nat) (f : Crew → Crew) : (s.modCrew k f).saved = s.saved := rfl
@[simp] theorem State.modCrew_faultMsgs (s : State) (k : Nat) (f : Crew → Crew) : (s.modCrew k f).faultMsgs = s.faultMsgs := rfl
@[simp] theorem State.modCrew_merges (s : State) (k : Nat) (f : Crew → Crew) : (s.modCrew k f).merges = s.merges := rfl
@[simp] theorem State.modCrew_merged (s : State) (k : Nat) (f : Crew → Crew) : (s.modCrew k f).merged = s.merged := rfl
@[simp] theorem State.modCrew_wakes (s : State) (k : Nat) (f : Crew → Crew) : (s.modCrew k f).wakes = s.wakes := rfl
@[simp] theorem State.modCrew_collects (s : State) (k : Nat) (f : Crew → Crew) : (s.modCrew k f).collects = s.collects := rfl
@[simp] theorem State.modCrew_sent (s : State) (k : Nat) (f : Crew → Crew) : (s.modCrew k f).sent = s.sent := rfl
@[simp] theorem State.modCrew_held (s : State) (k : Nat) (f : Crew → Crew) : (s.modCrew k f).held = s.held := rfl
@[simp] theorem State.modCrew_peers (s : State) (k : Nat) (f : Crew → Crew) : (s.modCrew k f).peers = s.peers := rfl
@[simp] theorem State.modCrew_switches (s : State) (k : Nat) (f : Crew → Crew) : (s.modCrew k f).switches = s.switches := rfl
@[simp] theorem State.modCrew_shadows (s : State) (k : Nat) (f : Crew → Crew) : (s.modCrew k f).shadows = s.shadows := rfl
@[simp] theorem State.modCrew_pages (s : State) (k : Nat) (f : Crew → Crew) : (s.modCrew k f).pages = s.pages := rfl
@[simp] theorem State.modCrew_pdir (s : State) (k : Nat) (f : Crew → Crew) : (s.modCrew k f).pdir = s.pdir := rfl
@[simp] theorem State.modCrew_lineAsks (s : State) (k : Nat) (f : Crew → Crew) : (s.modCrew k f).lineAsks = s.lineAsks := rfl
@[simp] theorem State.modCrew_farPuts (s : State) (k : Nat) (f : Crew → Crew) : (s.modCrew k f).farPuts = s.farPuts := rfl
@[simp] theorem State.modCrew_farGets (s : State) (k : Nat) (f : Crew → Crew) : (s.modCrew k f).farGets = s.farGets := rfl
@[simp] theorem State.modCrew_staged (s : State) (k : Nat) (f : Crew → Crew) : (s.modCrew k f).staged = s.staged := rfl
@[simp] theorem State.modCrew_accepted (s : State) (k : Nat) (f : Crew → Crew) : (s.modCrew k f).accepted = s.accepted := rfl
@[simp] theorem State.modCrew_nvmeTab (s : State) (k : Nat) (f : Crew → Crew) : (s.modCrew k f).nvmeTab = s.nvmeTab := rfl
@[simp] theorem State.modCrew_watches (s : State) (k : Nat) (f : Crew → Crew) : (s.modCrew k f).watches = s.watches := rfl
@[simp] theorem State.modCrew_window (s : State) (k : Nat) (f : Crew → Crew) : (s.modCrew k f).window = s.window := rfl
@[simp] theorem State.modCrew_nvme (s : State) (k : Nat) (f : Crew → Crew) : (s.modCrew k f).nvme = s.nvme := rfl
@[simp] theorem State.modCrew_nvmeTail (s : State) (k : Nat) (f : Crew → Crew) : (s.modCrew k f).nvmeTail = s.nvmeTail := rfl
@[simp] theorem State.modCrew_nvmeDone (s : State) (k : Nat) (f : Crew → Crew) : (s.modCrew k f).nvmeDone = s.nvmeDone := rfl
@[simp] theorem State.modCrew_bar2 (s : State) (k : Nat) (f : Crew → Crew) : (s.modCrew k f).bar2 = s.bar2 := rfl
@[simp] theorem State.modCrew_hostOut (s : State) (k : Nat) (f : Crew → Crew) : (s.modCrew k f).hostOut = s.hostOut := rfl
@[simp] theorem State.modCrew_repl (s : State) (k : Nat) (f : Crew → Crew) : (s.modCrew k f).repl = s.repl := rfl
@[simp] theorem State.modCrew_accum (s : State) (k : Nat) (f : Crew → Crew) : (s.modCrew k f).accum = s.accum := rfl
@[simp] theorem State.modCrew_digests (s : State) (k : Nat) (f : Crew → Crew) : (s.modCrew k f).digests = s.digests := rfl
@[simp] theorem State.modCrew_ends (s : State) (k : Nat) (f : Crew → Crew) : (s.modCrew k f).ends = s.ends := rfl
@[simp] theorem State.modCrew_stopped (s : State) (k : Nat) (f : Crew → Crew) : (s.modCrew k f).stopped = s.stopped := rfl
@[simp] theorem State.modCrew_pol (s : State) (k : Nat) (f : Crew → Crew) : (s.modCrew k f).pol = s.pol := rfl
@[simp] theorem State.modCrew_alarms (s : State) (k : Nat) (f : Crew → Crew) : (s.modCrew k f).alarms = s.alarms := rfl
@[simp] theorem State.modCrew_tickets (s : State) (k : Nat) (f : Crew → Crew) : (s.modCrew k f).tickets = s.tickets := rfl
@[simp] theorem State.modCrew_ctrl (s : State) (k : Nat) (f : Crew → Crew) : (s.modCrew k f).ctrl = s.ctrl := rfl
@[simp] theorem State.modCrew_seq (s : State) (k : Nat) (f : Crew → Crew) : (s.modCrew k f).seq = s.seq := rfl
@[simp] theorem State.modCrew_turn (s : State) (k : Nat) (f : Crew → Crew) : (s.modCrew k f).turn = s.turn := rfl
@[simp] theorem State.modCrew_tick (s : State) (k : Nat) (f : Crew → Crew) : (s.modCrew k f).tick = s.tick := rfl
@[simp] theorem State.modCrew_now (s : State) (k : Nat) (f : Crew → Crew) : (s.modCrew k f).now = s.now := rfl
@[simp] theorem State.modCrew_cur (s : State) (k : Nat) (f : Crew → Crew) : (s.modCrew k f).cur = s.cur := rfl

/-! `State.modDie` -/

@[simp] theorem State.modDie_slots (s : State) (d : Nat) (f : Die → Die) : (s.modDie d f).slots = s.slots := rfl
@[simp] theorem State.modDie_cores (s : State) (d : Nat) (f : Die → Die) : (s.modDie d f).cores = s.cores := rfl
@[simp] theorem State.modDie_crews (s : State) (d : Nat) (f : Die → Die) : (s.modDie d f).crews = s.crews := rfl
@[simp] theorem State.modDie_feat (s : State) (d : Nat) (f : Die → Die) : (s.modDie d f).feat = s.feat := rfl
@[simp] theorem State.modDie_mem (s : State) (d : Nat) (f : Die → Die) : (s.modDie d f).mem = s.mem := rfl
@[simp] theorem State.modDie_memPoison (s : State) (d : Nat) (f : Die → Die) : (s.modDie d f).memPoison = s.memPoison := rfl
@[simp] theorem State.modDie_lines (s : State) (d : Nat) (f : Die → Die) : (s.modDie d f).lines = s.lines := rfl
@[simp] theorem State.modDie_olds (s : State) (d : Nat) (f : Die → Die) : (s.modDie d f).olds = s.olds := rfl
@[simp] theorem State.modDie_codeAt (s : State) (d : Nat) (f : Die → Die) : (s.modDie d f).codeAt = s.codeAt := rfl
@[simp] theorem State.modDie_tlb (s : State) (d : Nat) (f : Die → Die) : (s.modDie d f).tlb = s.tlb := rfl
@[simp] theorem State.modDie_walks (s : State) (d : Nat) (f : Die → Die) : (s.modDie d f).walks = s.walks := rfl
@[simp] theorem State.modDie_unitWalks (s : State) (d : Nat) (f : Die → Die) : (s.modDie d f).unitWalks = s.unitWalks := rfl
@[simp] theorem State.modDie_prefs (s : State) (d : Nat) (f : Die → Die) : (s.modDie d f).prefs = s.prefs := rfl
@[simp] theorem State.modDie_mail (s : State) (d : Nat) (f : Die → Die) : (s.modDie d f).mail = s.mail := rfl
@[simp] theorem State.modDie_clusters (s : State) (d : Nat) (f : Die → Die) : (s.modDie d f).clusters = s.clusters := rfl
@[simp] theorem State.modDie_up (s : State) (d : Nat) (f : Die → Die) : (s.modDie d f).up = s.up := rfl
@[simp] theorem State.modDie_pkg (s : State) (d : Nat) (f : Die → Die) : (s.modDie d f).pkg = s.pkg := rfl
@[simp] theorem State.modDie_pkgSet (s : State) (d : Nat) (f : Die → Die) : (s.modDie d f).pkgSet = s.pkgSet := rfl
@[simp] theorem State.modDie_route (s : State) (d : Nat) (f : Die → Die) : (s.modDie d f).route = s.route := rfl
@[simp] theorem State.modDie_linkDown (s : State) (d : Nat) (f : Die → Die) : (s.modDie d f).linkDown = s.linkDown := rfl
@[simp] theorem State.modDie_locks (s : State) (d : Nat) (f : Die → Die) : (s.modDie d f).locks = s.locks := rfl
@[simp] theorem State.modDie_tiles (s : State) (d : Nat) (f : Die → Die) : (s.modDie d f).tiles = s.tiles := rfl
@[simp] theorem State.modDie_names (s : State) (d : Nat) (f : Die → Die) : (s.modDie d f).names = s.names := rfl
@[simp] theorem State.modDie_notices (s : State) (d : Nat) (f : Die → Die) : (s.modDie d f).notices = s.notices := rfl
@[simp] theorem State.modDie_recs (s : State) (d : Nat) (f : Die → Die) : (s.modDie d f).recs = s.recs := rfl
@[simp] theorem State.modDie_replies (s : State) (d : Nat) (f : Die → Die) : (s.modDie d f).replies = s.replies := rfl
@[simp] theorem State.modDie_launches (s : State) (d : Nat) (f : Die → Die) : (s.modDie d f).launches = s.launches := rfl
@[simp] theorem State.modDie_saved (s : State) (d : Nat) (f : Die → Die) : (s.modDie d f).saved = s.saved := rfl
@[simp] theorem State.modDie_faultMsgs (s : State) (d : Nat) (f : Die → Die) : (s.modDie d f).faultMsgs = s.faultMsgs := rfl
@[simp] theorem State.modDie_merges (s : State) (d : Nat) (f : Die → Die) : (s.modDie d f).merges = s.merges := rfl
@[simp] theorem State.modDie_merged (s : State) (d : Nat) (f : Die → Die) : (s.modDie d f).merged = s.merged := rfl
@[simp] theorem State.modDie_wakes (s : State) (d : Nat) (f : Die → Die) : (s.modDie d f).wakes = s.wakes := rfl
@[simp] theorem State.modDie_collects (s : State) (d : Nat) (f : Die → Die) : (s.modDie d f).collects = s.collects := rfl
@[simp] theorem State.modDie_sent (s : State) (d : Nat) (f : Die → Die) : (s.modDie d f).sent = s.sent := rfl
@[simp] theorem State.modDie_held (s : State) (d : Nat) (f : Die → Die) : (s.modDie d f).held = s.held := rfl
@[simp] theorem State.modDie_peers (s : State) (d : Nat) (f : Die → Die) : (s.modDie d f).peers = s.peers := rfl
@[simp] theorem State.modDie_switches (s : State) (d : Nat) (f : Die → Die) : (s.modDie d f).switches = s.switches := rfl
@[simp] theorem State.modDie_shadows (s : State) (d : Nat) (f : Die → Die) : (s.modDie d f).shadows = s.shadows := rfl
@[simp] theorem State.modDie_pages (s : State) (d : Nat) (f : Die → Die) : (s.modDie d f).pages = s.pages := rfl
@[simp] theorem State.modDie_pdir (s : State) (d : Nat) (f : Die → Die) : (s.modDie d f).pdir = s.pdir := rfl
@[simp] theorem State.modDie_lineAsks (s : State) (d : Nat) (f : Die → Die) : (s.modDie d f).lineAsks = s.lineAsks := rfl
@[simp] theorem State.modDie_farPuts (s : State) (d : Nat) (f : Die → Die) : (s.modDie d f).farPuts = s.farPuts := rfl
@[simp] theorem State.modDie_farGets (s : State) (d : Nat) (f : Die → Die) : (s.modDie d f).farGets = s.farGets := rfl
@[simp] theorem State.modDie_staged (s : State) (d : Nat) (f : Die → Die) : (s.modDie d f).staged = s.staged := rfl
@[simp] theorem State.modDie_accepted (s : State) (d : Nat) (f : Die → Die) : (s.modDie d f).accepted = s.accepted := rfl
@[simp] theorem State.modDie_nvmeTab (s : State) (d : Nat) (f : Die → Die) : (s.modDie d f).nvmeTab = s.nvmeTab := rfl
@[simp] theorem State.modDie_watches (s : State) (d : Nat) (f : Die → Die) : (s.modDie d f).watches = s.watches := rfl
@[simp] theorem State.modDie_window (s : State) (d : Nat) (f : Die → Die) : (s.modDie d f).window = s.window := rfl
@[simp] theorem State.modDie_nvme (s : State) (d : Nat) (f : Die → Die) : (s.modDie d f).nvme = s.nvme := rfl
@[simp] theorem State.modDie_nvmeTail (s : State) (d : Nat) (f : Die → Die) : (s.modDie d f).nvmeTail = s.nvmeTail := rfl
@[simp] theorem State.modDie_nvmeDone (s : State) (d : Nat) (f : Die → Die) : (s.modDie d f).nvmeDone = s.nvmeDone := rfl
@[simp] theorem State.modDie_bar2 (s : State) (d : Nat) (f : Die → Die) : (s.modDie d f).bar2 = s.bar2 := rfl
@[simp] theorem State.modDie_hostOut (s : State) (d : Nat) (f : Die → Die) : (s.modDie d f).hostOut = s.hostOut := rfl
@[simp] theorem State.modDie_repl (s : State) (d : Nat) (f : Die → Die) : (s.modDie d f).repl = s.repl := rfl
@[simp] theorem State.modDie_accum (s : State) (d : Nat) (f : Die → Die) : (s.modDie d f).accum = s.accum := rfl
@[simp] theorem State.modDie_digests (s : State) (d : Nat) (f : Die → Die) : (s.modDie d f).digests = s.digests := rfl
@[simp] theorem State.modDie_ends (s : State) (d : Nat) (f : Die → Die) : (s.modDie d f).ends = s.ends := rfl
@[simp] theorem State.modDie_stopped (s : State) (d : Nat) (f : Die → Die) : (s.modDie d f).stopped = s.stopped := rfl
@[simp] theorem State.modDie_pol (s : State) (d : Nat) (f : Die → Die) : (s.modDie d f).pol = s.pol := rfl
@[simp] theorem State.modDie_alarms (s : State) (d : Nat) (f : Die → Die) : (s.modDie d f).alarms = s.alarms := rfl
@[simp] theorem State.modDie_tickets (s : State) (d : Nat) (f : Die → Die) : (s.modDie d f).tickets = s.tickets := rfl
@[simp] theorem State.modDie_ctrl (s : State) (d : Nat) (f : Die → Die) : (s.modDie d f).ctrl = s.ctrl := rfl
@[simp] theorem State.modDie_seq (s : State) (d : Nat) (f : Die → Die) : (s.modDie d f).seq = s.seq := rfl
@[simp] theorem State.modDie_turn (s : State) (d : Nat) (f : Die → Die) : (s.modDie d f).turn = s.turn := rfl
@[simp] theorem State.modDie_tick (s : State) (d : Nat) (f : Die → Die) : (s.modDie d f).tick = s.tick := rfl
@[simp] theorem State.modDie_now (s : State) (d : Nat) (f : Die → Die) : (s.modDie d f).now = s.now := rfl
@[simp] theorem State.modDie_cur (s : State) (d : Nat) (f : Die → Die) : (s.modDie d f).cur = s.cur := rfl

/-! `State.modCluster` -/

@[simp] theorem State.modCluster_slots (s : State) (k : Nat) (f : Cluster → Cluster) : (s.modCluster k f).slots = s.slots := rfl
@[simp] theorem State.modCluster_cores (s : State) (k : Nat) (f : Cluster → Cluster) : (s.modCluster k f).cores = s.cores := rfl
@[simp] theorem State.modCluster_crews (s : State) (k : Nat) (f : Cluster → Cluster) : (s.modCluster k f).crews = s.crews := rfl
@[simp] theorem State.modCluster_dies (s : State) (k : Nat) (f : Cluster → Cluster) : (s.modCluster k f).dies = s.dies := rfl
@[simp] theorem State.modCluster_feat (s : State) (k : Nat) (f : Cluster → Cluster) : (s.modCluster k f).feat = s.feat := rfl
@[simp] theorem State.modCluster_mem (s : State) (k : Nat) (f : Cluster → Cluster) : (s.modCluster k f).mem = s.mem := rfl
@[simp] theorem State.modCluster_memPoison (s : State) (k : Nat) (f : Cluster → Cluster) : (s.modCluster k f).memPoison = s.memPoison := rfl
@[simp] theorem State.modCluster_lines (s : State) (k : Nat) (f : Cluster → Cluster) : (s.modCluster k f).lines = s.lines := rfl
@[simp] theorem State.modCluster_olds (s : State) (k : Nat) (f : Cluster → Cluster) : (s.modCluster k f).olds = s.olds := rfl
@[simp] theorem State.modCluster_codeAt (s : State) (k : Nat) (f : Cluster → Cluster) : (s.modCluster k f).codeAt = s.codeAt := rfl
@[simp] theorem State.modCluster_tlb (s : State) (k : Nat) (f : Cluster → Cluster) : (s.modCluster k f).tlb = s.tlb := rfl
@[simp] theorem State.modCluster_walks (s : State) (k : Nat) (f : Cluster → Cluster) : (s.modCluster k f).walks = s.walks := rfl
@[simp] theorem State.modCluster_unitWalks (s : State) (k : Nat) (f : Cluster → Cluster) : (s.modCluster k f).unitWalks = s.unitWalks := rfl
@[simp] theorem State.modCluster_prefs (s : State) (k : Nat) (f : Cluster → Cluster) : (s.modCluster k f).prefs = s.prefs := rfl
@[simp] theorem State.modCluster_mail (s : State) (k : Nat) (f : Cluster → Cluster) : (s.modCluster k f).mail = s.mail := rfl
@[simp] theorem State.modCluster_up (s : State) (k : Nat) (f : Cluster → Cluster) : (s.modCluster k f).up = s.up := rfl
@[simp] theorem State.modCluster_pkg (s : State) (k : Nat) (f : Cluster → Cluster) : (s.modCluster k f).pkg = s.pkg := rfl
@[simp] theorem State.modCluster_pkgSet (s : State) (k : Nat) (f : Cluster → Cluster) : (s.modCluster k f).pkgSet = s.pkgSet := rfl
@[simp] theorem State.modCluster_route (s : State) (k : Nat) (f : Cluster → Cluster) : (s.modCluster k f).route = s.route := rfl
@[simp] theorem State.modCluster_linkDown (s : State) (k : Nat) (f : Cluster → Cluster) : (s.modCluster k f).linkDown = s.linkDown := rfl
@[simp] theorem State.modCluster_locks (s : State) (k : Nat) (f : Cluster → Cluster) : (s.modCluster k f).locks = s.locks := rfl
@[simp] theorem State.modCluster_tiles (s : State) (k : Nat) (f : Cluster → Cluster) : (s.modCluster k f).tiles = s.tiles := rfl
@[simp] theorem State.modCluster_names (s : State) (k : Nat) (f : Cluster → Cluster) : (s.modCluster k f).names = s.names := rfl
@[simp] theorem State.modCluster_notices (s : State) (k : Nat) (f : Cluster → Cluster) : (s.modCluster k f).notices = s.notices := rfl
@[simp] theorem State.modCluster_recs (s : State) (k : Nat) (f : Cluster → Cluster) : (s.modCluster k f).recs = s.recs := rfl
@[simp] theorem State.modCluster_replies (s : State) (k : Nat) (f : Cluster → Cluster) : (s.modCluster k f).replies = s.replies := rfl
@[simp] theorem State.modCluster_launches (s : State) (k : Nat) (f : Cluster → Cluster) : (s.modCluster k f).launches = s.launches := rfl
@[simp] theorem State.modCluster_saved (s : State) (k : Nat) (f : Cluster → Cluster) : (s.modCluster k f).saved = s.saved := rfl
@[simp] theorem State.modCluster_faultMsgs (s : State) (k : Nat) (f : Cluster → Cluster) : (s.modCluster k f).faultMsgs = s.faultMsgs := rfl
@[simp] theorem State.modCluster_merges (s : State) (k : Nat) (f : Cluster → Cluster) : (s.modCluster k f).merges = s.merges := rfl
@[simp] theorem State.modCluster_merged (s : State) (k : Nat) (f : Cluster → Cluster) : (s.modCluster k f).merged = s.merged := rfl
@[simp] theorem State.modCluster_wakes (s : State) (k : Nat) (f : Cluster → Cluster) : (s.modCluster k f).wakes = s.wakes := rfl
@[simp] theorem State.modCluster_collects (s : State) (k : Nat) (f : Cluster → Cluster) : (s.modCluster k f).collects = s.collects := rfl
@[simp] theorem State.modCluster_sent (s : State) (k : Nat) (f : Cluster → Cluster) : (s.modCluster k f).sent = s.sent := rfl
@[simp] theorem State.modCluster_held (s : State) (k : Nat) (f : Cluster → Cluster) : (s.modCluster k f).held = s.held := rfl
@[simp] theorem State.modCluster_peers (s : State) (k : Nat) (f : Cluster → Cluster) : (s.modCluster k f).peers = s.peers := rfl
@[simp] theorem State.modCluster_switches (s : State) (k : Nat) (f : Cluster → Cluster) : (s.modCluster k f).switches = s.switches := rfl
@[simp] theorem State.modCluster_shadows (s : State) (k : Nat) (f : Cluster → Cluster) : (s.modCluster k f).shadows = s.shadows := rfl
@[simp] theorem State.modCluster_pages (s : State) (k : Nat) (f : Cluster → Cluster) : (s.modCluster k f).pages = s.pages := rfl
@[simp] theorem State.modCluster_pdir (s : State) (k : Nat) (f : Cluster → Cluster) : (s.modCluster k f).pdir = s.pdir := rfl
@[simp] theorem State.modCluster_lineAsks (s : State) (k : Nat) (f : Cluster → Cluster) : (s.modCluster k f).lineAsks = s.lineAsks := rfl
@[simp] theorem State.modCluster_farPuts (s : State) (k : Nat) (f : Cluster → Cluster) : (s.modCluster k f).farPuts = s.farPuts := rfl
@[simp] theorem State.modCluster_farGets (s : State) (k : Nat) (f : Cluster → Cluster) : (s.modCluster k f).farGets = s.farGets := rfl
@[simp] theorem State.modCluster_staged (s : State) (k : Nat) (f : Cluster → Cluster) : (s.modCluster k f).staged = s.staged := rfl
@[simp] theorem State.modCluster_accepted (s : State) (k : Nat) (f : Cluster → Cluster) : (s.modCluster k f).accepted = s.accepted := rfl
@[simp] theorem State.modCluster_nvmeTab (s : State) (k : Nat) (f : Cluster → Cluster) : (s.modCluster k f).nvmeTab = s.nvmeTab := rfl
@[simp] theorem State.modCluster_watches (s : State) (k : Nat) (f : Cluster → Cluster) : (s.modCluster k f).watches = s.watches := rfl
@[simp] theorem State.modCluster_window (s : State) (k : Nat) (f : Cluster → Cluster) : (s.modCluster k f).window = s.window := rfl
@[simp] theorem State.modCluster_nvme (s : State) (k : Nat) (f : Cluster → Cluster) : (s.modCluster k f).nvme = s.nvme := rfl
@[simp] theorem State.modCluster_nvmeTail (s : State) (k : Nat) (f : Cluster → Cluster) : (s.modCluster k f).nvmeTail = s.nvmeTail := rfl
@[simp] theorem State.modCluster_nvmeDone (s : State) (k : Nat) (f : Cluster → Cluster) : (s.modCluster k f).nvmeDone = s.nvmeDone := rfl
@[simp] theorem State.modCluster_bar2 (s : State) (k : Nat) (f : Cluster → Cluster) : (s.modCluster k f).bar2 = s.bar2 := rfl
@[simp] theorem State.modCluster_hostOut (s : State) (k : Nat) (f : Cluster → Cluster) : (s.modCluster k f).hostOut = s.hostOut := rfl
@[simp] theorem State.modCluster_repl (s : State) (k : Nat) (f : Cluster → Cluster) : (s.modCluster k f).repl = s.repl := rfl
@[simp] theorem State.modCluster_accum (s : State) (k : Nat) (f : Cluster → Cluster) : (s.modCluster k f).accum = s.accum := rfl
@[simp] theorem State.modCluster_digests (s : State) (k : Nat) (f : Cluster → Cluster) : (s.modCluster k f).digests = s.digests := rfl
@[simp] theorem State.modCluster_ends (s : State) (k : Nat) (f : Cluster → Cluster) : (s.modCluster k f).ends = s.ends := rfl
@[simp] theorem State.modCluster_stopped (s : State) (k : Nat) (f : Cluster → Cluster) : (s.modCluster k f).stopped = s.stopped := rfl
@[simp] theorem State.modCluster_pol (s : State) (k : Nat) (f : Cluster → Cluster) : (s.modCluster k f).pol = s.pol := rfl
@[simp] theorem State.modCluster_alarms (s : State) (k : Nat) (f : Cluster → Cluster) : (s.modCluster k f).alarms = s.alarms := rfl
@[simp] theorem State.modCluster_tickets (s : State) (k : Nat) (f : Cluster → Cluster) : (s.modCluster k f).tickets = s.tickets := rfl
@[simp] theorem State.modCluster_ctrl (s : State) (k : Nat) (f : Cluster → Cluster) : (s.modCluster k f).ctrl = s.ctrl := rfl
@[simp] theorem State.modCluster_seq (s : State) (k : Nat) (f : Cluster → Cluster) : (s.modCluster k f).seq = s.seq := rfl
@[simp] theorem State.modCluster_turn (s : State) (k : Nat) (f : Cluster → Cluster) : (s.modCluster k f).turn = s.turn := rfl
@[simp] theorem State.modCluster_tick (s : State) (k : Nat) (f : Cluster → Cluster) : (s.modCluster k f).tick = s.tick := rfl
@[simp] theorem State.modCluster_now (s : State) (k : Nat) (f : Cluster → Cluster) : (s.modCluster k f).now = s.now := rfl
@[simp] theorem State.modCluster_cur (s : State) (k : Nat) (f : Cluster → Cluster) : (s.modCluster k f).cur = s.cur := rfl

/-! `State.count` -/

@[simp] theorem State.count_slots (s : State) (d evt n : Nat) : (s.count d evt n).slots = s.slots := rfl
@[simp] theorem State.count_cores (s : State) (d evt n : Nat) : (s.count d evt n).cores = s.cores := rfl
@[simp] theorem State.count_crews (s : State) (d evt n : Nat) : (s.count d evt n).crews = s.crews := rfl
@[simp] theorem State.count_feat (s : State) (d evt n : Nat) : (s.count d evt n).feat = s.feat := rfl
@[simp] theorem State.count_mem (s : State) (d evt n : Nat) : (s.count d evt n).mem = s.mem := rfl
@[simp] theorem State.count_memPoison (s : State) (d evt n : Nat) : (s.count d evt n).memPoison = s.memPoison := rfl
@[simp] theorem State.count_lines (s : State) (d evt n : Nat) : (s.count d evt n).lines = s.lines := rfl
@[simp] theorem State.count_olds (s : State) (d evt n : Nat) : (s.count d evt n).olds = s.olds := rfl
@[simp] theorem State.count_codeAt (s : State) (d evt n : Nat) : (s.count d evt n).codeAt = s.codeAt := rfl
@[simp] theorem State.count_tlb (s : State) (d evt n : Nat) : (s.count d evt n).tlb = s.tlb := rfl
@[simp] theorem State.count_walks (s : State) (d evt n : Nat) : (s.count d evt n).walks = s.walks := rfl
@[simp] theorem State.count_unitWalks (s : State) (d evt n : Nat) : (s.count d evt n).unitWalks = s.unitWalks := rfl
@[simp] theorem State.count_prefs (s : State) (d evt n : Nat) : (s.count d evt n).prefs = s.prefs := rfl
@[simp] theorem State.count_mail (s : State) (d evt n : Nat) : (s.count d evt n).mail = s.mail := rfl
@[simp] theorem State.count_clusters (s : State) (d evt n : Nat) : (s.count d evt n).clusters = s.clusters := rfl
@[simp] theorem State.count_up (s : State) (d evt n : Nat) : (s.count d evt n).up = s.up := rfl
@[simp] theorem State.count_pkg (s : State) (d evt n : Nat) : (s.count d evt n).pkg = s.pkg := rfl
@[simp] theorem State.count_pkgSet (s : State) (d evt n : Nat) : (s.count d evt n).pkgSet = s.pkgSet := rfl
@[simp] theorem State.count_route (s : State) (d evt n : Nat) : (s.count d evt n).route = s.route := rfl
@[simp] theorem State.count_linkDown (s : State) (d evt n : Nat) : (s.count d evt n).linkDown = s.linkDown := rfl
@[simp] theorem State.count_locks (s : State) (d evt n : Nat) : (s.count d evt n).locks = s.locks := rfl
@[simp] theorem State.count_tiles (s : State) (d evt n : Nat) : (s.count d evt n).tiles = s.tiles := rfl
@[simp] theorem State.count_names (s : State) (d evt n : Nat) : (s.count d evt n).names = s.names := rfl
@[simp] theorem State.count_notices (s : State) (d evt n : Nat) : (s.count d evt n).notices = s.notices := rfl
@[simp] theorem State.count_recs (s : State) (d evt n : Nat) : (s.count d evt n).recs = s.recs := rfl
@[simp] theorem State.count_replies (s : State) (d evt n : Nat) : (s.count d evt n).replies = s.replies := rfl
@[simp] theorem State.count_launches (s : State) (d evt n : Nat) : (s.count d evt n).launches = s.launches := rfl
@[simp] theorem State.count_saved (s : State) (d evt n : Nat) : (s.count d evt n).saved = s.saved := rfl
@[simp] theorem State.count_faultMsgs (s : State) (d evt n : Nat) : (s.count d evt n).faultMsgs = s.faultMsgs := rfl
@[simp] theorem State.count_merges (s : State) (d evt n : Nat) : (s.count d evt n).merges = s.merges := rfl
@[simp] theorem State.count_merged (s : State) (d evt n : Nat) : (s.count d evt n).merged = s.merged := rfl
@[simp] theorem State.count_wakes (s : State) (d evt n : Nat) : (s.count d evt n).wakes = s.wakes := rfl
@[simp] theorem State.count_collects (s : State) (d evt n : Nat) : (s.count d evt n).collects = s.collects := rfl
@[simp] theorem State.count_sent (s : State) (d evt n : Nat) : (s.count d evt n).sent = s.sent := rfl
@[simp] theorem State.count_held (s : State) (d evt n : Nat) : (s.count d evt n).held = s.held := rfl
@[simp] theorem State.count_peers (s : State) (d evt n : Nat) : (s.count d evt n).peers = s.peers := rfl
@[simp] theorem State.count_switches (s : State) (d evt n : Nat) : (s.count d evt n).switches = s.switches := rfl
@[simp] theorem State.count_shadows (s : State) (d evt n : Nat) : (s.count d evt n).shadows = s.shadows := rfl
@[simp] theorem State.count_pages (s : State) (d evt n : Nat) : (s.count d evt n).pages = s.pages := rfl
@[simp] theorem State.count_pdir (s : State) (d evt n : Nat) : (s.count d evt n).pdir = s.pdir := rfl
@[simp] theorem State.count_lineAsks (s : State) (d evt n : Nat) : (s.count d evt n).lineAsks = s.lineAsks := rfl
@[simp] theorem State.count_farPuts (s : State) (d evt n : Nat) : (s.count d evt n).farPuts = s.farPuts := rfl
@[simp] theorem State.count_farGets (s : State) (d evt n : Nat) : (s.count d evt n).farGets = s.farGets := rfl
@[simp] theorem State.count_staged (s : State) (d evt n : Nat) : (s.count d evt n).staged = s.staged := rfl
@[simp] theorem State.count_accepted (s : State) (d evt n : Nat) : (s.count d evt n).accepted = s.accepted := rfl
@[simp] theorem State.count_nvmeTab (s : State) (d evt n : Nat) : (s.count d evt n).nvmeTab = s.nvmeTab := rfl
@[simp] theorem State.count_watches (s : State) (d evt n : Nat) : (s.count d evt n).watches = s.watches := rfl
@[simp] theorem State.count_window (s : State) (d evt n : Nat) : (s.count d evt n).window = s.window := rfl
@[simp] theorem State.count_nvme (s : State) (d evt n : Nat) : (s.count d evt n).nvme = s.nvme := rfl
@[simp] theorem State.count_nvmeTail (s : State) (d evt n : Nat) : (s.count d evt n).nvmeTail = s.nvmeTail := rfl
@[simp] theorem State.count_nvmeDone (s : State) (d evt n : Nat) : (s.count d evt n).nvmeDone = s.nvmeDone := rfl
@[simp] theorem State.count_bar2 (s : State) (d evt n : Nat) : (s.count d evt n).bar2 = s.bar2 := rfl
@[simp] theorem State.count_hostOut (s : State) (d evt n : Nat) : (s.count d evt n).hostOut = s.hostOut := rfl
@[simp] theorem State.count_repl (s : State) (d evt n : Nat) : (s.count d evt n).repl = s.repl := rfl
@[simp] theorem State.count_accum (s : State) (d evt n : Nat) : (s.count d evt n).accum = s.accum := rfl
@[simp] theorem State.count_digests (s : State) (d evt n : Nat) : (s.count d evt n).digests = s.digests := rfl
@[simp] theorem State.count_ends (s : State) (d evt n : Nat) : (s.count d evt n).ends = s.ends := rfl
@[simp] theorem State.count_stopped (s : State) (d evt n : Nat) : (s.count d evt n).stopped = s.stopped := rfl
@[simp] theorem State.count_pol (s : State) (d evt n : Nat) : (s.count d evt n).pol = s.pol := rfl
@[simp] theorem State.count_alarms (s : State) (d evt n : Nat) : (s.count d evt n).alarms = s.alarms := rfl
@[simp] theorem State.count_tickets (s : State) (d evt n : Nat) : (s.count d evt n).tickets = s.tickets := rfl
@[simp] theorem State.count_ctrl (s : State) (d evt n : Nat) : (s.count d evt n).ctrl = s.ctrl := rfl
@[simp] theorem State.count_seq (s : State) (d evt n : Nat) : (s.count d evt n).seq = s.seq := rfl
@[simp] theorem State.count_turn (s : State) (d evt n : Nat) : (s.count d evt n).turn = s.turn := rfl
@[simp] theorem State.count_tick (s : State) (d evt n : Nat) : (s.count d evt n).tick = s.tick := rfl
@[simp] theorem State.count_now (s : State) (d evt n : Nat) : (s.count d evt n).now = s.now := rfl
@[simp] theorem State.count_cur (s : State) (d evt n : Nat) : (s.count d evt n).cur = s.cur := rfl

/-! `State.putV` -/

@[simp] theorem State.putV_cores (s : State) (d : VReg) (w : Vec) : (s.putV d w).cores = s.cores := rfl
@[simp] theorem State.putV_crews (s : State) (d : VReg) (w : Vec) : (s.putV d w).crews = s.crews := rfl
@[simp] theorem State.putV_dies (s : State) (d : VReg) (w : Vec) : (s.putV d w).dies = s.dies := rfl
@[simp] theorem State.putV_feat (s : State) (d : VReg) (w : Vec) : (s.putV d w).feat = s.feat := rfl
@[simp] theorem State.putV_mem (s : State) (d : VReg) (w : Vec) : (s.putV d w).mem = s.mem := rfl
@[simp] theorem State.putV_memPoison (s : State) (d : VReg) (w : Vec) : (s.putV d w).memPoison = s.memPoison := rfl
@[simp] theorem State.putV_lines (s : State) (d : VReg) (w : Vec) : (s.putV d w).lines = s.lines := rfl
@[simp] theorem State.putV_olds (s : State) (d : VReg) (w : Vec) : (s.putV d w).olds = s.olds := rfl
@[simp] theorem State.putV_codeAt (s : State) (d : VReg) (w : Vec) : (s.putV d w).codeAt = s.codeAt := rfl
@[simp] theorem State.putV_tlb (s : State) (d : VReg) (w : Vec) : (s.putV d w).tlb = s.tlb := rfl
@[simp] theorem State.putV_walks (s : State) (d : VReg) (w : Vec) : (s.putV d w).walks = s.walks := rfl
@[simp] theorem State.putV_unitWalks (s : State) (d : VReg) (w : Vec) : (s.putV d w).unitWalks = s.unitWalks := rfl
@[simp] theorem State.putV_prefs (s : State) (d : VReg) (w : Vec) : (s.putV d w).prefs = s.prefs := rfl
@[simp] theorem State.putV_mail (s : State) (d : VReg) (w : Vec) : (s.putV d w).mail = s.mail := rfl
@[simp] theorem State.putV_clusters (s : State) (d : VReg) (w : Vec) : (s.putV d w).clusters = s.clusters := rfl
@[simp] theorem State.putV_up (s : State) (d : VReg) (w : Vec) : (s.putV d w).up = s.up := rfl
@[simp] theorem State.putV_pkg (s : State) (d : VReg) (w : Vec) : (s.putV d w).pkg = s.pkg := rfl
@[simp] theorem State.putV_pkgSet (s : State) (d : VReg) (w : Vec) : (s.putV d w).pkgSet = s.pkgSet := rfl
@[simp] theorem State.putV_route (s : State) (d : VReg) (w : Vec) : (s.putV d w).route = s.route := rfl
@[simp] theorem State.putV_linkDown (s : State) (d : VReg) (w : Vec) : (s.putV d w).linkDown = s.linkDown := rfl
@[simp] theorem State.putV_locks (s : State) (d : VReg) (w : Vec) : (s.putV d w).locks = s.locks := rfl
@[simp] theorem State.putV_tiles (s : State) (d : VReg) (w : Vec) : (s.putV d w).tiles = s.tiles := rfl
@[simp] theorem State.putV_names (s : State) (d : VReg) (w : Vec) : (s.putV d w).names = s.names := rfl
@[simp] theorem State.putV_notices (s : State) (d : VReg) (w : Vec) : (s.putV d w).notices = s.notices := rfl
@[simp] theorem State.putV_recs (s : State) (d : VReg) (w : Vec) : (s.putV d w).recs = s.recs := rfl
@[simp] theorem State.putV_replies (s : State) (d : VReg) (w : Vec) : (s.putV d w).replies = s.replies := rfl
@[simp] theorem State.putV_launches (s : State) (d : VReg) (w : Vec) : (s.putV d w).launches = s.launches := rfl
@[simp] theorem State.putV_saved (s : State) (d : VReg) (w : Vec) : (s.putV d w).saved = s.saved := rfl
@[simp] theorem State.putV_faultMsgs (s : State) (d : VReg) (w : Vec) : (s.putV d w).faultMsgs = s.faultMsgs := rfl
@[simp] theorem State.putV_merges (s : State) (d : VReg) (w : Vec) : (s.putV d w).merges = s.merges := rfl
@[simp] theorem State.putV_merged (s : State) (d : VReg) (w : Vec) : (s.putV d w).merged = s.merged := rfl
@[simp] theorem State.putV_wakes (s : State) (d : VReg) (w : Vec) : (s.putV d w).wakes = s.wakes := rfl
@[simp] theorem State.putV_collects (s : State) (d : VReg) (w : Vec) : (s.putV d w).collects = s.collects := rfl
@[simp] theorem State.putV_sent (s : State) (d : VReg) (w : Vec) : (s.putV d w).sent = s.sent := rfl
@[simp] theorem State.putV_held (s : State) (d : VReg) (w : Vec) : (s.putV d w).held = s.held := rfl
@[simp] theorem State.putV_peers (s : State) (d : VReg) (w : Vec) : (s.putV d w).peers = s.peers := rfl
@[simp] theorem State.putV_switches (s : State) (d : VReg) (w : Vec) : (s.putV d w).switches = s.switches := rfl
@[simp] theorem State.putV_shadows (s : State) (d : VReg) (w : Vec) : (s.putV d w).shadows = s.shadows := rfl
@[simp] theorem State.putV_pages (s : State) (d : VReg) (w : Vec) : (s.putV d w).pages = s.pages := rfl
@[simp] theorem State.putV_pdir (s : State) (d : VReg) (w : Vec) : (s.putV d w).pdir = s.pdir := rfl
@[simp] theorem State.putV_lineAsks (s : State) (d : VReg) (w : Vec) : (s.putV d w).lineAsks = s.lineAsks := rfl
@[simp] theorem State.putV_farPuts (s : State) (d : VReg) (w : Vec) : (s.putV d w).farPuts = s.farPuts := rfl
@[simp] theorem State.putV_farGets (s : State) (d : VReg) (w : Vec) : (s.putV d w).farGets = s.farGets := rfl
@[simp] theorem State.putV_staged (s : State) (d : VReg) (w : Vec) : (s.putV d w).staged = s.staged := rfl
@[simp] theorem State.putV_accepted (s : State) (d : VReg) (w : Vec) : (s.putV d w).accepted = s.accepted := rfl
@[simp] theorem State.putV_nvmeTab (s : State) (d : VReg) (w : Vec) : (s.putV d w).nvmeTab = s.nvmeTab := rfl
@[simp] theorem State.putV_watches (s : State) (d : VReg) (w : Vec) : (s.putV d w).watches = s.watches := rfl
@[simp] theorem State.putV_window (s : State) (d : VReg) (w : Vec) : (s.putV d w).window = s.window := rfl
@[simp] theorem State.putV_nvme (s : State) (d : VReg) (w : Vec) : (s.putV d w).nvme = s.nvme := rfl
@[simp] theorem State.putV_nvmeTail (s : State) (d : VReg) (w : Vec) : (s.putV d w).nvmeTail = s.nvmeTail := rfl
@[simp] theorem State.putV_nvmeDone (s : State) (d : VReg) (w : Vec) : (s.putV d w).nvmeDone = s.nvmeDone := rfl
@[simp] theorem State.putV_bar2 (s : State) (d : VReg) (w : Vec) : (s.putV d w).bar2 = s.bar2 := rfl
@[simp] theorem State.putV_hostOut (s : State) (d : VReg) (w : Vec) : (s.putV d w).hostOut = s.hostOut := rfl
@[simp] theorem State.putV_repl (s : State) (d : VReg) (w : Vec) : (s.putV d w).repl = s.repl := rfl
@[simp] theorem State.putV_accum (s : State) (d : VReg) (w : Vec) : (s.putV d w).accum = s.accum := rfl
@[simp] theorem State.putV_digests (s : State) (d : VReg) (w : Vec) : (s.putV d w).digests = s.digests := rfl
@[simp] theorem State.putV_ends (s : State) (d : VReg) (w : Vec) : (s.putV d w).ends = s.ends := rfl
@[simp] theorem State.putV_stopped (s : State) (d : VReg) (w : Vec) : (s.putV d w).stopped = s.stopped := rfl
@[simp] theorem State.putV_pol (s : State) (d : VReg) (w : Vec) : (s.putV d w).pol = s.pol := rfl
@[simp] theorem State.putV_alarms (s : State) (d : VReg) (w : Vec) : (s.putV d w).alarms = s.alarms := rfl
@[simp] theorem State.putV_tickets (s : State) (d : VReg) (w : Vec) : (s.putV d w).tickets = s.tickets := rfl
@[simp] theorem State.putV_ctrl (s : State) (d : VReg) (w : Vec) : (s.putV d w).ctrl = s.ctrl := rfl
@[simp] theorem State.putV_seq (s : State) (d : VReg) (w : Vec) : (s.putV d w).seq = s.seq := rfl
@[simp] theorem State.putV_turn (s : State) (d : VReg) (w : Vec) : (s.putV d w).turn = s.turn := rfl
@[simp] theorem State.putV_tick (s : State) (d : VReg) (w : Vec) : (s.putV d w).tick = s.tick := rfl
@[simp] theorem State.putV_now (s : State) (d : VReg) (w : Vec) : (s.putV d w).now = s.now := rfl
@[simp] theorem State.putV_cur (s : State) (d : VReg) (w : Vec) : (s.putV d w).cur = s.cur := rfl

/-! `State.putM` -/

@[simp] theorem State.putM_cores (s : State) (d : MReg) (w : Mask) : (s.putM d w).cores = s.cores := rfl
@[simp] theorem State.putM_crews (s : State) (d : MReg) (w : Mask) : (s.putM d w).crews = s.crews := rfl
@[simp] theorem State.putM_dies (s : State) (d : MReg) (w : Mask) : (s.putM d w).dies = s.dies := rfl
@[simp] theorem State.putM_feat (s : State) (d : MReg) (w : Mask) : (s.putM d w).feat = s.feat := rfl
@[simp] theorem State.putM_mem (s : State) (d : MReg) (w : Mask) : (s.putM d w).mem = s.mem := rfl
@[simp] theorem State.putM_memPoison (s : State) (d : MReg) (w : Mask) : (s.putM d w).memPoison = s.memPoison := rfl
@[simp] theorem State.putM_lines (s : State) (d : MReg) (w : Mask) : (s.putM d w).lines = s.lines := rfl
@[simp] theorem State.putM_olds (s : State) (d : MReg) (w : Mask) : (s.putM d w).olds = s.olds := rfl
@[simp] theorem State.putM_codeAt (s : State) (d : MReg) (w : Mask) : (s.putM d w).codeAt = s.codeAt := rfl
@[simp] theorem State.putM_tlb (s : State) (d : MReg) (w : Mask) : (s.putM d w).tlb = s.tlb := rfl
@[simp] theorem State.putM_walks (s : State) (d : MReg) (w : Mask) : (s.putM d w).walks = s.walks := rfl
@[simp] theorem State.putM_unitWalks (s : State) (d : MReg) (w : Mask) : (s.putM d w).unitWalks = s.unitWalks := rfl
@[simp] theorem State.putM_prefs (s : State) (d : MReg) (w : Mask) : (s.putM d w).prefs = s.prefs := rfl
@[simp] theorem State.putM_mail (s : State) (d : MReg) (w : Mask) : (s.putM d w).mail = s.mail := rfl
@[simp] theorem State.putM_clusters (s : State) (d : MReg) (w : Mask) : (s.putM d w).clusters = s.clusters := rfl
@[simp] theorem State.putM_up (s : State) (d : MReg) (w : Mask) : (s.putM d w).up = s.up := rfl
@[simp] theorem State.putM_pkg (s : State) (d : MReg) (w : Mask) : (s.putM d w).pkg = s.pkg := rfl
@[simp] theorem State.putM_pkgSet (s : State) (d : MReg) (w : Mask) : (s.putM d w).pkgSet = s.pkgSet := rfl
@[simp] theorem State.putM_route (s : State) (d : MReg) (w : Mask) : (s.putM d w).route = s.route := rfl
@[simp] theorem State.putM_linkDown (s : State) (d : MReg) (w : Mask) : (s.putM d w).linkDown = s.linkDown := rfl
@[simp] theorem State.putM_locks (s : State) (d : MReg) (w : Mask) : (s.putM d w).locks = s.locks := rfl
@[simp] theorem State.putM_tiles (s : State) (d : MReg) (w : Mask) : (s.putM d w).tiles = s.tiles := rfl
@[simp] theorem State.putM_names (s : State) (d : MReg) (w : Mask) : (s.putM d w).names = s.names := rfl
@[simp] theorem State.putM_notices (s : State) (d : MReg) (w : Mask) : (s.putM d w).notices = s.notices := rfl
@[simp] theorem State.putM_recs (s : State) (d : MReg) (w : Mask) : (s.putM d w).recs = s.recs := rfl
@[simp] theorem State.putM_replies (s : State) (d : MReg) (w : Mask) : (s.putM d w).replies = s.replies := rfl
@[simp] theorem State.putM_launches (s : State) (d : MReg) (w : Mask) : (s.putM d w).launches = s.launches := rfl
@[simp] theorem State.putM_saved (s : State) (d : MReg) (w : Mask) : (s.putM d w).saved = s.saved := rfl
@[simp] theorem State.putM_faultMsgs (s : State) (d : MReg) (w : Mask) : (s.putM d w).faultMsgs = s.faultMsgs := rfl
@[simp] theorem State.putM_merges (s : State) (d : MReg) (w : Mask) : (s.putM d w).merges = s.merges := rfl
@[simp] theorem State.putM_merged (s : State) (d : MReg) (w : Mask) : (s.putM d w).merged = s.merged := rfl
@[simp] theorem State.putM_wakes (s : State) (d : MReg) (w : Mask) : (s.putM d w).wakes = s.wakes := rfl
@[simp] theorem State.putM_collects (s : State) (d : MReg) (w : Mask) : (s.putM d w).collects = s.collects := rfl
@[simp] theorem State.putM_sent (s : State) (d : MReg) (w : Mask) : (s.putM d w).sent = s.sent := rfl
@[simp] theorem State.putM_held (s : State) (d : MReg) (w : Mask) : (s.putM d w).held = s.held := rfl
@[simp] theorem State.putM_peers (s : State) (d : MReg) (w : Mask) : (s.putM d w).peers = s.peers := rfl
@[simp] theorem State.putM_switches (s : State) (d : MReg) (w : Mask) : (s.putM d w).switches = s.switches := rfl
@[simp] theorem State.putM_shadows (s : State) (d : MReg) (w : Mask) : (s.putM d w).shadows = s.shadows := rfl
@[simp] theorem State.putM_pages (s : State) (d : MReg) (w : Mask) : (s.putM d w).pages = s.pages := rfl
@[simp] theorem State.putM_pdir (s : State) (d : MReg) (w : Mask) : (s.putM d w).pdir = s.pdir := rfl
@[simp] theorem State.putM_lineAsks (s : State) (d : MReg) (w : Mask) : (s.putM d w).lineAsks = s.lineAsks := rfl
@[simp] theorem State.putM_farPuts (s : State) (d : MReg) (w : Mask) : (s.putM d w).farPuts = s.farPuts := rfl
@[simp] theorem State.putM_farGets (s : State) (d : MReg) (w : Mask) : (s.putM d w).farGets = s.farGets := rfl
@[simp] theorem State.putM_staged (s : State) (d : MReg) (w : Mask) : (s.putM d w).staged = s.staged := rfl
@[simp] theorem State.putM_accepted (s : State) (d : MReg) (w : Mask) : (s.putM d w).accepted = s.accepted := rfl
@[simp] theorem State.putM_nvmeTab (s : State) (d : MReg) (w : Mask) : (s.putM d w).nvmeTab = s.nvmeTab := rfl
@[simp] theorem State.putM_watches (s : State) (d : MReg) (w : Mask) : (s.putM d w).watches = s.watches := rfl
@[simp] theorem State.putM_window (s : State) (d : MReg) (w : Mask) : (s.putM d w).window = s.window := rfl
@[simp] theorem State.putM_nvme (s : State) (d : MReg) (w : Mask) : (s.putM d w).nvme = s.nvme := rfl
@[simp] theorem State.putM_nvmeTail (s : State) (d : MReg) (w : Mask) : (s.putM d w).nvmeTail = s.nvmeTail := rfl
@[simp] theorem State.putM_nvmeDone (s : State) (d : MReg) (w : Mask) : (s.putM d w).nvmeDone = s.nvmeDone := rfl
@[simp] theorem State.putM_bar2 (s : State) (d : MReg) (w : Mask) : (s.putM d w).bar2 = s.bar2 := rfl
@[simp] theorem State.putM_hostOut (s : State) (d : MReg) (w : Mask) : (s.putM d w).hostOut = s.hostOut := rfl
@[simp] theorem State.putM_repl (s : State) (d : MReg) (w : Mask) : (s.putM d w).repl = s.repl := rfl
@[simp] theorem State.putM_accum (s : State) (d : MReg) (w : Mask) : (s.putM d w).accum = s.accum := rfl
@[simp] theorem State.putM_digests (s : State) (d : MReg) (w : Mask) : (s.putM d w).digests = s.digests := rfl
@[simp] theorem State.putM_ends (s : State) (d : MReg) (w : Mask) : (s.putM d w).ends = s.ends := rfl
@[simp] theorem State.putM_stopped (s : State) (d : MReg) (w : Mask) : (s.putM d w).stopped = s.stopped := rfl
@[simp] theorem State.putM_pol (s : State) (d : MReg) (w : Mask) : (s.putM d w).pol = s.pol := rfl
@[simp] theorem State.putM_alarms (s : State) (d : MReg) (w : Mask) : (s.putM d w).alarms = s.alarms := rfl
@[simp] theorem State.putM_tickets (s : State) (d : MReg) (w : Mask) : (s.putM d w).tickets = s.tickets := rfl
@[simp] theorem State.putM_ctrl (s : State) (d : MReg) (w : Mask) : (s.putM d w).ctrl = s.ctrl := rfl
@[simp] theorem State.putM_seq (s : State) (d : MReg) (w : Mask) : (s.putM d w).seq = s.seq := rfl
@[simp] theorem State.putM_turn (s : State) (d : MReg) (w : Mask) : (s.putM d w).turn = s.turn := rfl
@[simp] theorem State.putM_tick (s : State) (d : MReg) (w : Mask) : (s.putM d w).tick = s.tick := rfl
@[simp] theorem State.putM_now (s : State) (d : MReg) (w : Mask) : (s.putM d w).now = s.now := rfl
@[simp] theorem State.putM_cur (s : State) (d : MReg) (w : Mask) : (s.putM d w).cur = s.cur := rfl

/-! `State.setLine` -/

@[simp] theorem State.setLine_slots (s : State) (asid va : Nat) (l : Line) : (s.setLine asid va l).slots = s.slots := rfl
@[simp] theorem State.setLine_cores (s : State) (asid va : Nat) (l : Line) : (s.setLine asid va l).cores = s.cores := rfl
@[simp] theorem State.setLine_crews (s : State) (asid va : Nat) (l : Line) : (s.setLine asid va l).crews = s.crews := rfl
@[simp] theorem State.setLine_dies (s : State) (asid va : Nat) (l : Line) : (s.setLine asid va l).dies = s.dies := rfl
@[simp] theorem State.setLine_feat (s : State) (asid va : Nat) (l : Line) : (s.setLine asid va l).feat = s.feat := rfl
@[simp] theorem State.setLine_mem (s : State) (asid va : Nat) (l : Line) : (s.setLine asid va l).mem = s.mem := rfl
@[simp] theorem State.setLine_memPoison (s : State) (asid va : Nat) (l : Line) : (s.setLine asid va l).memPoison = s.memPoison := rfl
@[simp] theorem State.setLine_olds (s : State) (asid va : Nat) (l : Line) : (s.setLine asid va l).olds = s.olds := rfl
@[simp] theorem State.setLine_codeAt (s : State) (asid va : Nat) (l : Line) : (s.setLine asid va l).codeAt = s.codeAt := rfl
@[simp] theorem State.setLine_tlb (s : State) (asid va : Nat) (l : Line) : (s.setLine asid va l).tlb = s.tlb := rfl
@[simp] theorem State.setLine_walks (s : State) (asid va : Nat) (l : Line) : (s.setLine asid va l).walks = s.walks := rfl
@[simp] theorem State.setLine_unitWalks (s : State) (asid va : Nat) (l : Line) : (s.setLine asid va l).unitWalks = s.unitWalks := rfl
@[simp] theorem State.setLine_prefs (s : State) (asid va : Nat) (l : Line) : (s.setLine asid va l).prefs = s.prefs := rfl
@[simp] theorem State.setLine_mail (s : State) (asid va : Nat) (l : Line) : (s.setLine asid va l).mail = s.mail := rfl
@[simp] theorem State.setLine_clusters (s : State) (asid va : Nat) (l : Line) : (s.setLine asid va l).clusters = s.clusters := rfl
@[simp] theorem State.setLine_up (s : State) (asid va : Nat) (l : Line) : (s.setLine asid va l).up = s.up := rfl
@[simp] theorem State.setLine_pkg (s : State) (asid va : Nat) (l : Line) : (s.setLine asid va l).pkg = s.pkg := rfl
@[simp] theorem State.setLine_pkgSet (s : State) (asid va : Nat) (l : Line) : (s.setLine asid va l).pkgSet = s.pkgSet := rfl
@[simp] theorem State.setLine_route (s : State) (asid va : Nat) (l : Line) : (s.setLine asid va l).route = s.route := rfl
@[simp] theorem State.setLine_linkDown (s : State) (asid va : Nat) (l : Line) : (s.setLine asid va l).linkDown = s.linkDown := rfl
@[simp] theorem State.setLine_locks (s : State) (asid va : Nat) (l : Line) : (s.setLine asid va l).locks = s.locks := rfl
@[simp] theorem State.setLine_tiles (s : State) (asid va : Nat) (l : Line) : (s.setLine asid va l).tiles = s.tiles := rfl
@[simp] theorem State.setLine_names (s : State) (asid va : Nat) (l : Line) : (s.setLine asid va l).names = s.names := rfl
@[simp] theorem State.setLine_notices (s : State) (asid va : Nat) (l : Line) : (s.setLine asid va l).notices = s.notices := rfl
@[simp] theorem State.setLine_recs (s : State) (asid va : Nat) (l : Line) : (s.setLine asid va l).recs = s.recs := rfl
@[simp] theorem State.setLine_replies (s : State) (asid va : Nat) (l : Line) : (s.setLine asid va l).replies = s.replies := rfl
@[simp] theorem State.setLine_launches (s : State) (asid va : Nat) (l : Line) : (s.setLine asid va l).launches = s.launches := rfl
@[simp] theorem State.setLine_saved (s : State) (asid va : Nat) (l : Line) : (s.setLine asid va l).saved = s.saved := rfl
@[simp] theorem State.setLine_faultMsgs (s : State) (asid va : Nat) (l : Line) : (s.setLine asid va l).faultMsgs = s.faultMsgs := rfl
@[simp] theorem State.setLine_merges (s : State) (asid va : Nat) (l : Line) : (s.setLine asid va l).merges = s.merges := rfl
@[simp] theorem State.setLine_merged (s : State) (asid va : Nat) (l : Line) : (s.setLine asid va l).merged = s.merged := rfl
@[simp] theorem State.setLine_wakes (s : State) (asid va : Nat) (l : Line) : (s.setLine asid va l).wakes = s.wakes := rfl
@[simp] theorem State.setLine_collects (s : State) (asid va : Nat) (l : Line) : (s.setLine asid va l).collects = s.collects := rfl
@[simp] theorem State.setLine_sent (s : State) (asid va : Nat) (l : Line) : (s.setLine asid va l).sent = s.sent := rfl
@[simp] theorem State.setLine_held (s : State) (asid va : Nat) (l : Line) : (s.setLine asid va l).held = s.held := rfl
@[simp] theorem State.setLine_peers (s : State) (asid va : Nat) (l : Line) : (s.setLine asid va l).peers = s.peers := rfl
@[simp] theorem State.setLine_switches (s : State) (asid va : Nat) (l : Line) : (s.setLine asid va l).switches = s.switches := rfl
@[simp] theorem State.setLine_shadows (s : State) (asid va : Nat) (l : Line) : (s.setLine asid va l).shadows = s.shadows := rfl
@[simp] theorem State.setLine_pages (s : State) (asid va : Nat) (l : Line) : (s.setLine asid va l).pages = s.pages := rfl
@[simp] theorem State.setLine_pdir (s : State) (asid va : Nat) (l : Line) : (s.setLine asid va l).pdir = s.pdir := rfl
@[simp] theorem State.setLine_lineAsks (s : State) (asid va : Nat) (l : Line) : (s.setLine asid va l).lineAsks = s.lineAsks := rfl
@[simp] theorem State.setLine_farPuts (s : State) (asid va : Nat) (l : Line) : (s.setLine asid va l).farPuts = s.farPuts := rfl
@[simp] theorem State.setLine_farGets (s : State) (asid va : Nat) (l : Line) : (s.setLine asid va l).farGets = s.farGets := rfl
@[simp] theorem State.setLine_staged (s : State) (asid va : Nat) (l : Line) : (s.setLine asid va l).staged = s.staged := rfl
@[simp] theorem State.setLine_accepted (s : State) (asid va : Nat) (l : Line) : (s.setLine asid va l).accepted = s.accepted := rfl
@[simp] theorem State.setLine_nvmeTab (s : State) (asid va : Nat) (l : Line) : (s.setLine asid va l).nvmeTab = s.nvmeTab := rfl
@[simp] theorem State.setLine_watches (s : State) (asid va : Nat) (l : Line) : (s.setLine asid va l).watches = s.watches := rfl
@[simp] theorem State.setLine_window (s : State) (asid va : Nat) (l : Line) : (s.setLine asid va l).window = s.window := rfl
@[simp] theorem State.setLine_nvme (s : State) (asid va : Nat) (l : Line) : (s.setLine asid va l).nvme = s.nvme := rfl
@[simp] theorem State.setLine_nvmeTail (s : State) (asid va : Nat) (l : Line) : (s.setLine asid va l).nvmeTail = s.nvmeTail := rfl
@[simp] theorem State.setLine_nvmeDone (s : State) (asid va : Nat) (l : Line) : (s.setLine asid va l).nvmeDone = s.nvmeDone := rfl
@[simp] theorem State.setLine_bar2 (s : State) (asid va : Nat) (l : Line) : (s.setLine asid va l).bar2 = s.bar2 := rfl
@[simp] theorem State.setLine_hostOut (s : State) (asid va : Nat) (l : Line) : (s.setLine asid va l).hostOut = s.hostOut := rfl
@[simp] theorem State.setLine_repl (s : State) (asid va : Nat) (l : Line) : (s.setLine asid va l).repl = s.repl := rfl
@[simp] theorem State.setLine_accum (s : State) (asid va : Nat) (l : Line) : (s.setLine asid va l).accum = s.accum := rfl
@[simp] theorem State.setLine_digests (s : State) (asid va : Nat) (l : Line) : (s.setLine asid va l).digests = s.digests := rfl
@[simp] theorem State.setLine_ends (s : State) (asid va : Nat) (l : Line) : (s.setLine asid va l).ends = s.ends := rfl
@[simp] theorem State.setLine_stopped (s : State) (asid va : Nat) (l : Line) : (s.setLine asid va l).stopped = s.stopped := rfl
@[simp] theorem State.setLine_pol (s : State) (asid va : Nat) (l : Line) : (s.setLine asid va l).pol = s.pol := rfl
@[simp] theorem State.setLine_alarms (s : State) (asid va : Nat) (l : Line) : (s.setLine asid va l).alarms = s.alarms := rfl
@[simp] theorem State.setLine_tickets (s : State) (asid va : Nat) (l : Line) : (s.setLine asid va l).tickets = s.tickets := rfl
@[simp] theorem State.setLine_ctrl (s : State) (asid va : Nat) (l : Line) : (s.setLine asid va l).ctrl = s.ctrl := rfl
@[simp] theorem State.setLine_seq (s : State) (asid va : Nat) (l : Line) : (s.setLine asid va l).seq = s.seq := rfl
@[simp] theorem State.setLine_turn (s : State) (asid va : Nat) (l : Line) : (s.setLine asid va l).turn = s.turn := rfl
@[simp] theorem State.setLine_tick (s : State) (asid va : Nat) (l : Line) : (s.setLine asid va l).tick = s.tick := rfl
@[simp] theorem State.setLine_now (s : State) (asid va : Nat) (l : Line) : (s.setLine asid va l).now = s.now := rfl
@[simp] theorem State.setLine_cur (s : State) (asid va : Nat) (l : Line) : (s.setLine asid va l).cur = s.cur := rfl

/-! `State.delLine` -/

@[simp] theorem State.delLine_slots (s : State) (asid va : Nat) : (s.delLine asid va).slots = s.slots := rfl
@[simp] theorem State.delLine_cores (s : State) (asid va : Nat) : (s.delLine asid va).cores = s.cores := rfl
@[simp] theorem State.delLine_crews (s : State) (asid va : Nat) : (s.delLine asid va).crews = s.crews := rfl
@[simp] theorem State.delLine_dies (s : State) (asid va : Nat) : (s.delLine asid va).dies = s.dies := rfl
@[simp] theorem State.delLine_feat (s : State) (asid va : Nat) : (s.delLine asid va).feat = s.feat := rfl
@[simp] theorem State.delLine_mem (s : State) (asid va : Nat) : (s.delLine asid va).mem = s.mem := rfl
@[simp] theorem State.delLine_memPoison (s : State) (asid va : Nat) : (s.delLine asid va).memPoison = s.memPoison := rfl
@[simp] theorem State.delLine_olds (s : State) (asid va : Nat) : (s.delLine asid va).olds = s.olds := rfl
@[simp] theorem State.delLine_codeAt (s : State) (asid va : Nat) : (s.delLine asid va).codeAt = s.codeAt := rfl
@[simp] theorem State.delLine_tlb (s : State) (asid va : Nat) : (s.delLine asid va).tlb = s.tlb := rfl
@[simp] theorem State.delLine_walks (s : State) (asid va : Nat) : (s.delLine asid va).walks = s.walks := rfl
@[simp] theorem State.delLine_unitWalks (s : State) (asid va : Nat) : (s.delLine asid va).unitWalks = s.unitWalks := rfl
@[simp] theorem State.delLine_prefs (s : State) (asid va : Nat) : (s.delLine asid va).prefs = s.prefs := rfl
@[simp] theorem State.delLine_mail (s : State) (asid va : Nat) : (s.delLine asid va).mail = s.mail := rfl
@[simp] theorem State.delLine_clusters (s : State) (asid va : Nat) : (s.delLine asid va).clusters = s.clusters := rfl
@[simp] theorem State.delLine_up (s : State) (asid va : Nat) : (s.delLine asid va).up = s.up := rfl
@[simp] theorem State.delLine_pkg (s : State) (asid va : Nat) : (s.delLine asid va).pkg = s.pkg := rfl
@[simp] theorem State.delLine_pkgSet (s : State) (asid va : Nat) : (s.delLine asid va).pkgSet = s.pkgSet := rfl
@[simp] theorem State.delLine_route (s : State) (asid va : Nat) : (s.delLine asid va).route = s.route := rfl
@[simp] theorem State.delLine_linkDown (s : State) (asid va : Nat) : (s.delLine asid va).linkDown = s.linkDown := rfl
@[simp] theorem State.delLine_locks (s : State) (asid va : Nat) : (s.delLine asid va).locks = s.locks := rfl
@[simp] theorem State.delLine_tiles (s : State) (asid va : Nat) : (s.delLine asid va).tiles = s.tiles := rfl
@[simp] theorem State.delLine_names (s : State) (asid va : Nat) : (s.delLine asid va).names = s.names := rfl
@[simp] theorem State.delLine_notices (s : State) (asid va : Nat) : (s.delLine asid va).notices = s.notices := rfl
@[simp] theorem State.delLine_recs (s : State) (asid va : Nat) : (s.delLine asid va).recs = s.recs := rfl
@[simp] theorem State.delLine_replies (s : State) (asid va : Nat) : (s.delLine asid va).replies = s.replies := rfl
@[simp] theorem State.delLine_launches (s : State) (asid va : Nat) : (s.delLine asid va).launches = s.launches := rfl
@[simp] theorem State.delLine_saved (s : State) (asid va : Nat) : (s.delLine asid va).saved = s.saved := rfl
@[simp] theorem State.delLine_faultMsgs (s : State) (asid va : Nat) : (s.delLine asid va).faultMsgs = s.faultMsgs := rfl
@[simp] theorem State.delLine_merges (s : State) (asid va : Nat) : (s.delLine asid va).merges = s.merges := rfl
@[simp] theorem State.delLine_merged (s : State) (asid va : Nat) : (s.delLine asid va).merged = s.merged := rfl
@[simp] theorem State.delLine_wakes (s : State) (asid va : Nat) : (s.delLine asid va).wakes = s.wakes := rfl
@[simp] theorem State.delLine_collects (s : State) (asid va : Nat) : (s.delLine asid va).collects = s.collects := rfl
@[simp] theorem State.delLine_sent (s : State) (asid va : Nat) : (s.delLine asid va).sent = s.sent := rfl
@[simp] theorem State.delLine_held (s : State) (asid va : Nat) : (s.delLine asid va).held = s.held := rfl
@[simp] theorem State.delLine_peers (s : State) (asid va : Nat) : (s.delLine asid va).peers = s.peers := rfl
@[simp] theorem State.delLine_switches (s : State) (asid va : Nat) : (s.delLine asid va).switches = s.switches := rfl
@[simp] theorem State.delLine_shadows (s : State) (asid va : Nat) : (s.delLine asid va).shadows = s.shadows := rfl
@[simp] theorem State.delLine_pages (s : State) (asid va : Nat) : (s.delLine asid va).pages = s.pages := rfl
@[simp] theorem State.delLine_pdir (s : State) (asid va : Nat) : (s.delLine asid va).pdir = s.pdir := rfl
@[simp] theorem State.delLine_lineAsks (s : State) (asid va : Nat) : (s.delLine asid va).lineAsks = s.lineAsks := rfl
@[simp] theorem State.delLine_farPuts (s : State) (asid va : Nat) : (s.delLine asid va).farPuts = s.farPuts := rfl
@[simp] theorem State.delLine_farGets (s : State) (asid va : Nat) : (s.delLine asid va).farGets = s.farGets := rfl
@[simp] theorem State.delLine_staged (s : State) (asid va : Nat) : (s.delLine asid va).staged = s.staged := rfl
@[simp] theorem State.delLine_accepted (s : State) (asid va : Nat) : (s.delLine asid va).accepted = s.accepted := rfl
@[simp] theorem State.delLine_nvmeTab (s : State) (asid va : Nat) : (s.delLine asid va).nvmeTab = s.nvmeTab := rfl
@[simp] theorem State.delLine_watches (s : State) (asid va : Nat) : (s.delLine asid va).watches = s.watches := rfl
@[simp] theorem State.delLine_window (s : State) (asid va : Nat) : (s.delLine asid va).window = s.window := rfl
@[simp] theorem State.delLine_nvme (s : State) (asid va : Nat) : (s.delLine asid va).nvme = s.nvme := rfl
@[simp] theorem State.delLine_nvmeTail (s : State) (asid va : Nat) : (s.delLine asid va).nvmeTail = s.nvmeTail := rfl
@[simp] theorem State.delLine_nvmeDone (s : State) (asid va : Nat) : (s.delLine asid va).nvmeDone = s.nvmeDone := rfl
@[simp] theorem State.delLine_bar2 (s : State) (asid va : Nat) : (s.delLine asid va).bar2 = s.bar2 := rfl
@[simp] theorem State.delLine_hostOut (s : State) (asid va : Nat) : (s.delLine asid va).hostOut = s.hostOut := rfl
@[simp] theorem State.delLine_repl (s : State) (asid va : Nat) : (s.delLine asid va).repl = s.repl := rfl
@[simp] theorem State.delLine_accum (s : State) (asid va : Nat) : (s.delLine asid va).accum = s.accum := rfl
@[simp] theorem State.delLine_digests (s : State) (asid va : Nat) : (s.delLine asid va).digests = s.digests := rfl
@[simp] theorem State.delLine_ends (s : State) (asid va : Nat) : (s.delLine asid va).ends = s.ends := rfl
@[simp] theorem State.delLine_stopped (s : State) (asid va : Nat) : (s.delLine asid va).stopped = s.stopped := rfl
@[simp] theorem State.delLine_pol (s : State) (asid va : Nat) : (s.delLine asid va).pol = s.pol := rfl
@[simp] theorem State.delLine_alarms (s : State) (asid va : Nat) : (s.delLine asid va).alarms = s.alarms := rfl
@[simp] theorem State.delLine_tickets (s : State) (asid va : Nat) : (s.delLine asid va).tickets = s.tickets := rfl
@[simp] theorem State.delLine_ctrl (s : State) (asid va : Nat) : (s.delLine asid va).ctrl = s.ctrl := rfl
@[simp] theorem State.delLine_seq (s : State) (asid va : Nat) : (s.delLine asid va).seq = s.seq := rfl
@[simp] theorem State.delLine_turn (s : State) (asid va : Nat) : (s.delLine asid va).turn = s.turn := rfl
@[simp] theorem State.delLine_tick (s : State) (asid va : Nat) : (s.delLine asid va).tick = s.tick := rfl
@[simp] theorem State.delLine_now (s : State) (asid va : Nat) : (s.delLine asid va).now = s.now := rfl
@[simp] theorem State.delLine_cur (s : State) (asid va : Nat) : (s.delLine asid va).cur = s.cur := rfl

/-! `State.bump` -/

@[simp] theorem State.bump_slots (s : State) : s.bump.slots = s.slots := rfl
@[simp] theorem State.bump_cores (s : State) : s.bump.cores = s.cores := rfl
@[simp] theorem State.bump_crews (s : State) : s.bump.crews = s.crews := rfl
@[simp] theorem State.bump_dies (s : State) : s.bump.dies = s.dies := rfl
@[simp] theorem State.bump_feat (s : State) : s.bump.feat = s.feat := rfl
@[simp] theorem State.bump_mem (s : State) : s.bump.mem = s.mem := rfl
@[simp] theorem State.bump_memPoison (s : State) : s.bump.memPoison = s.memPoison := rfl
@[simp] theorem State.bump_lines (s : State) : s.bump.lines = s.lines := rfl
@[simp] theorem State.bump_olds (s : State) : s.bump.olds = s.olds := rfl
@[simp] theorem State.bump_codeAt (s : State) : s.bump.codeAt = s.codeAt := rfl
@[simp] theorem State.bump_tlb (s : State) : s.bump.tlb = s.tlb := rfl
@[simp] theorem State.bump_walks (s : State) : s.bump.walks = s.walks := rfl
@[simp] theorem State.bump_unitWalks (s : State) : s.bump.unitWalks = s.unitWalks := rfl
@[simp] theorem State.bump_prefs (s : State) : s.bump.prefs = s.prefs := rfl
@[simp] theorem State.bump_mail (s : State) : s.bump.mail = s.mail := rfl
@[simp] theorem State.bump_clusters (s : State) : s.bump.clusters = s.clusters := rfl
@[simp] theorem State.bump_up (s : State) : s.bump.up = s.up := rfl
@[simp] theorem State.bump_pkg (s : State) : s.bump.pkg = s.pkg := rfl
@[simp] theorem State.bump_pkgSet (s : State) : s.bump.pkgSet = s.pkgSet := rfl
@[simp] theorem State.bump_route (s : State) : s.bump.route = s.route := rfl
@[simp] theorem State.bump_linkDown (s : State) : s.bump.linkDown = s.linkDown := rfl
@[simp] theorem State.bump_locks (s : State) : s.bump.locks = s.locks := rfl
@[simp] theorem State.bump_tiles (s : State) : s.bump.tiles = s.tiles := rfl
@[simp] theorem State.bump_names (s : State) : s.bump.names = s.names := rfl
@[simp] theorem State.bump_notices (s : State) : s.bump.notices = s.notices := rfl
@[simp] theorem State.bump_recs (s : State) : s.bump.recs = s.recs := rfl
@[simp] theorem State.bump_replies (s : State) : s.bump.replies = s.replies := rfl
@[simp] theorem State.bump_launches (s : State) : s.bump.launches = s.launches := rfl
@[simp] theorem State.bump_saved (s : State) : s.bump.saved = s.saved := rfl
@[simp] theorem State.bump_faultMsgs (s : State) : s.bump.faultMsgs = s.faultMsgs := rfl
@[simp] theorem State.bump_merges (s : State) : s.bump.merges = s.merges := rfl
@[simp] theorem State.bump_merged (s : State) : s.bump.merged = s.merged := rfl
@[simp] theorem State.bump_wakes (s : State) : s.bump.wakes = s.wakes := rfl
@[simp] theorem State.bump_collects (s : State) : s.bump.collects = s.collects := rfl
@[simp] theorem State.bump_sent (s : State) : s.bump.sent = s.sent := rfl
@[simp] theorem State.bump_held (s : State) : s.bump.held = s.held := rfl
@[simp] theorem State.bump_peers (s : State) : s.bump.peers = s.peers := rfl
@[simp] theorem State.bump_switches (s : State) : s.bump.switches = s.switches := rfl
@[simp] theorem State.bump_shadows (s : State) : s.bump.shadows = s.shadows := rfl
@[simp] theorem State.bump_pages (s : State) : s.bump.pages = s.pages := rfl
@[simp] theorem State.bump_pdir (s : State) : s.bump.pdir = s.pdir := rfl
@[simp] theorem State.bump_lineAsks (s : State) : s.bump.lineAsks = s.lineAsks := rfl
@[simp] theorem State.bump_farPuts (s : State) : s.bump.farPuts = s.farPuts := rfl
@[simp] theorem State.bump_farGets (s : State) : s.bump.farGets = s.farGets := rfl
@[simp] theorem State.bump_staged (s : State) : s.bump.staged = s.staged := rfl
@[simp] theorem State.bump_accepted (s : State) : s.bump.accepted = s.accepted := rfl
@[simp] theorem State.bump_nvmeTab (s : State) : s.bump.nvmeTab = s.nvmeTab := rfl
@[simp] theorem State.bump_watches (s : State) : s.bump.watches = s.watches := rfl
@[simp] theorem State.bump_window (s : State) : s.bump.window = s.window := rfl
@[simp] theorem State.bump_nvme (s : State) : s.bump.nvme = s.nvme := rfl
@[simp] theorem State.bump_nvmeTail (s : State) : s.bump.nvmeTail = s.nvmeTail := rfl
@[simp] theorem State.bump_nvmeDone (s : State) : s.bump.nvmeDone = s.nvmeDone := rfl
@[simp] theorem State.bump_bar2 (s : State) : s.bump.bar2 = s.bar2 := rfl
@[simp] theorem State.bump_hostOut (s : State) : s.bump.hostOut = s.hostOut := rfl
@[simp] theorem State.bump_repl (s : State) : s.bump.repl = s.repl := rfl
@[simp] theorem State.bump_accum (s : State) : s.bump.accum = s.accum := rfl
@[simp] theorem State.bump_digests (s : State) : s.bump.digests = s.digests := rfl
@[simp] theorem State.bump_ends (s : State) : s.bump.ends = s.ends := rfl
@[simp] theorem State.bump_stopped (s : State) : s.bump.stopped = s.stopped := rfl
@[simp] theorem State.bump_pol (s : State) : s.bump.pol = s.pol := rfl
@[simp] theorem State.bump_alarms (s : State) : s.bump.alarms = s.alarms := rfl
@[simp] theorem State.bump_tickets (s : State) : s.bump.tickets = s.tickets := rfl
@[simp] theorem State.bump_ctrl (s : State) : s.bump.ctrl = s.ctrl := rfl
@[simp] theorem State.bump_turn (s : State) : s.bump.turn = s.turn := rfl
@[simp] theorem State.bump_tick (s : State) : s.bump.tick = s.tick := rfl
@[simp] theorem State.bump_now (s : State) : s.bump.now = s.now := rfl
@[simp] theorem State.bump_cur (s : State) : s.bump.cur = s.cur := rfl

/-! `State.wrote` -/

@[simp] theorem State.wrote_slots (s : State) (asid va n : Nat) : (s.wrote asid va n).slots = s.slots := rfl
@[simp] theorem State.wrote_cores (s : State) (asid va n : Nat) : (s.wrote asid va n).cores = s.cores := rfl
@[simp] theorem State.wrote_crews (s : State) (asid va n : Nat) : (s.wrote asid va n).crews = s.crews := rfl
@[simp] theorem State.wrote_dies (s : State) (asid va n : Nat) : (s.wrote asid va n).dies = s.dies := rfl
@[simp] theorem State.wrote_feat (s : State) (asid va n : Nat) : (s.wrote asid va n).feat = s.feat := rfl
@[simp] theorem State.wrote_mem (s : State) (asid va n : Nat) : (s.wrote asid va n).mem = s.mem := rfl
@[simp] theorem State.wrote_memPoison (s : State) (asid va n : Nat) : (s.wrote asid va n).memPoison = s.memPoison := rfl
@[simp] theorem State.wrote_lines (s : State) (asid va n : Nat) : (s.wrote asid va n).lines = s.lines := rfl
@[simp] theorem State.wrote_olds (s : State) (asid va n : Nat) : (s.wrote asid va n).olds = s.olds := rfl
@[simp] theorem State.wrote_codeAt (s : State) (asid va n : Nat) : (s.wrote asid va n).codeAt = s.codeAt := rfl
@[simp] theorem State.wrote_tlb (s : State) (asid va n : Nat) : (s.wrote asid va n).tlb = s.tlb := rfl
@[simp] theorem State.wrote_walks (s : State) (asid va n : Nat) : (s.wrote asid va n).walks = s.walks := rfl
@[simp] theorem State.wrote_unitWalks (s : State) (asid va n : Nat) : (s.wrote asid va n).unitWalks = s.unitWalks := rfl
@[simp] theorem State.wrote_prefs (s : State) (asid va n : Nat) : (s.wrote asid va n).prefs = s.prefs := rfl
@[simp] theorem State.wrote_mail (s : State) (asid va n : Nat) : (s.wrote asid va n).mail = s.mail := rfl
@[simp] theorem State.wrote_clusters (s : State) (asid va n : Nat) : (s.wrote asid va n).clusters = s.clusters := rfl
@[simp] theorem State.wrote_up (s : State) (asid va n : Nat) : (s.wrote asid va n).up = s.up := rfl
@[simp] theorem State.wrote_pkg (s : State) (asid va n : Nat) : (s.wrote asid va n).pkg = s.pkg := rfl
@[simp] theorem State.wrote_pkgSet (s : State) (asid va n : Nat) : (s.wrote asid va n).pkgSet = s.pkgSet := rfl
@[simp] theorem State.wrote_route (s : State) (asid va n : Nat) : (s.wrote asid va n).route = s.route := rfl
@[simp] theorem State.wrote_linkDown (s : State) (asid va n : Nat) : (s.wrote asid va n).linkDown = s.linkDown := rfl
@[simp] theorem State.wrote_locks (s : State) (asid va n : Nat) : (s.wrote asid va n).locks = s.locks := rfl
@[simp] theorem State.wrote_tiles (s : State) (asid va n : Nat) : (s.wrote asid va n).tiles = s.tiles := rfl
@[simp] theorem State.wrote_names (s : State) (asid va n : Nat) : (s.wrote asid va n).names = s.names := rfl
@[simp] theorem State.wrote_notices (s : State) (asid va n : Nat) : (s.wrote asid va n).notices = s.notices := rfl
@[simp] theorem State.wrote_recs (s : State) (asid va n : Nat) : (s.wrote asid va n).recs = s.recs := rfl
@[simp] theorem State.wrote_replies (s : State) (asid va n : Nat) : (s.wrote asid va n).replies = s.replies := rfl
@[simp] theorem State.wrote_launches (s : State) (asid va n : Nat) : (s.wrote asid va n).launches = s.launches := rfl
@[simp] theorem State.wrote_saved (s : State) (asid va n : Nat) : (s.wrote asid va n).saved = s.saved := rfl
@[simp] theorem State.wrote_faultMsgs (s : State) (asid va n : Nat) : (s.wrote asid va n).faultMsgs = s.faultMsgs := rfl
@[simp] theorem State.wrote_merges (s : State) (asid va n : Nat) : (s.wrote asid va n).merges = s.merges := rfl
@[simp] theorem State.wrote_merged (s : State) (asid va n : Nat) : (s.wrote asid va n).merged = s.merged := rfl
@[simp] theorem State.wrote_wakes (s : State) (asid va n : Nat) : (s.wrote asid va n).wakes = s.wakes := rfl
@[simp] theorem State.wrote_collects (s : State) (asid va n : Nat) : (s.wrote asid va n).collects = s.collects := rfl
@[simp] theorem State.wrote_sent (s : State) (asid va n : Nat) : (s.wrote asid va n).sent = s.sent := rfl
@[simp] theorem State.wrote_held (s : State) (asid va n : Nat) : (s.wrote asid va n).held = s.held := rfl
@[simp] theorem State.wrote_peers (s : State) (asid va n : Nat) : (s.wrote asid va n).peers = s.peers := rfl
@[simp] theorem State.wrote_switches (s : State) (asid va n : Nat) : (s.wrote asid va n).switches = s.switches := rfl
@[simp] theorem State.wrote_shadows (s : State) (asid va n : Nat) : (s.wrote asid va n).shadows = s.shadows := rfl
@[simp] theorem State.wrote_pages (s : State) (asid va n : Nat) : (s.wrote asid va n).pages = s.pages := rfl
@[simp] theorem State.wrote_pdir (s : State) (asid va n : Nat) : (s.wrote asid va n).pdir = s.pdir := rfl
@[simp] theorem State.wrote_lineAsks (s : State) (asid va n : Nat) : (s.wrote asid va n).lineAsks = s.lineAsks := rfl
@[simp] theorem State.wrote_farPuts (s : State) (asid va n : Nat) : (s.wrote asid va n).farPuts = s.farPuts := rfl
@[simp] theorem State.wrote_farGets (s : State) (asid va n : Nat) : (s.wrote asid va n).farGets = s.farGets := rfl
@[simp] theorem State.wrote_staged (s : State) (asid va n : Nat) : (s.wrote asid va n).staged = s.staged := rfl
@[simp] theorem State.wrote_accepted (s : State) (asid va n : Nat) : (s.wrote asid va n).accepted = s.accepted := rfl
@[simp] theorem State.wrote_nvmeTab (s : State) (asid va n : Nat) : (s.wrote asid va n).nvmeTab = s.nvmeTab := rfl
@[simp] theorem State.wrote_window (s : State) (asid va n : Nat) : (s.wrote asid va n).window = s.window := rfl
@[simp] theorem State.wrote_nvme (s : State) (asid va n : Nat) : (s.wrote asid va n).nvme = s.nvme := rfl
@[simp] theorem State.wrote_nvmeTail (s : State) (asid va n : Nat) : (s.wrote asid va n).nvmeTail = s.nvmeTail := rfl
@[simp] theorem State.wrote_nvmeDone (s : State) (asid va n : Nat) : (s.wrote asid va n).nvmeDone = s.nvmeDone := rfl
@[simp] theorem State.wrote_bar2 (s : State) (asid va n : Nat) : (s.wrote asid va n).bar2 = s.bar2 := rfl
@[simp] theorem State.wrote_hostOut (s : State) (asid va n : Nat) : (s.wrote asid va n).hostOut = s.hostOut := rfl
@[simp] theorem State.wrote_repl (s : State) (asid va n : Nat) : (s.wrote asid va n).repl = s.repl := rfl
@[simp] theorem State.wrote_accum (s : State) (asid va n : Nat) : (s.wrote asid va n).accum = s.accum := rfl
@[simp] theorem State.wrote_digests (s : State) (asid va n : Nat) : (s.wrote asid va n).digests = s.digests := rfl
@[simp] theorem State.wrote_ends (s : State) (asid va n : Nat) : (s.wrote asid va n).ends = s.ends := rfl
@[simp] theorem State.wrote_stopped (s : State) (asid va n : Nat) : (s.wrote asid va n).stopped = s.stopped := rfl
@[simp] theorem State.wrote_pol (s : State) (asid va n : Nat) : (s.wrote asid va n).pol = s.pol := rfl
@[simp] theorem State.wrote_alarms (s : State) (asid va n : Nat) : (s.wrote asid va n).alarms = s.alarms := rfl
@[simp] theorem State.wrote_tickets (s : State) (asid va n : Nat) : (s.wrote asid va n).tickets = s.tickets := rfl
@[simp] theorem State.wrote_ctrl (s : State) (asid va n : Nat) : (s.wrote asid va n).ctrl = s.ctrl := rfl
@[simp] theorem State.wrote_seq (s : State) (asid va n : Nat) : (s.wrote asid va n).seq = s.seq := rfl
@[simp] theorem State.wrote_turn (s : State) (asid va n : Nat) : (s.wrote asid va n).turn = s.turn := rfl
@[simp] theorem State.wrote_tick (s : State) (asid va n : Nat) : (s.wrote asid va n).tick = s.tick := rfl
@[simp] theorem State.wrote_now (s : State) (asid va n : Nat) : (s.wrote asid va n).now = s.now := rfl
@[simp] theorem State.wrote_cur (s : State) (asid va n : Nat) : (s.wrote asid va n).cur = s.cur := rfl

end Sys2Proof.Machine
end

