-- ==== Sys2Proof/Laws/Ops.lean ====
section
/-!
SUPPORT. What the shared operations do: reading and writing slots and registers, the gate at issue, retiring, and taking
a trap.
-/

namespace Sys2Proof.Machine

/-! ### Slots -/

@[simp] theorem slot_setSlot_self (s : State) (p : Nat) (x : Slot) : (s.setSlot p x).slot p = x := by
  simp [State.slot, State.setSlot]
theorem slot_setSlot_other (s : State) {p q : Nat} (x : Slot) (h : q ≠ p) : (s.setSlot p x).slot q = s.slot q := by
  simp [State.slot, State.setSlot, SMap.getD_set_other _ _ _ h]
@[simp] theorem slot_modSlot_self (s : State) (p : Nat) (f : Slot → Slot) : (s.modSlot p f).slot p = f (s.slot p) := by
  simp [State.modSlot]
theorem slot_modSlot_other (s : State) {p q : Nat} (f : Slot → Slot) (h : q ≠ p) : (s.modSlot p f).slot q = s.slot q :=
  slot_setSlot_other s _ h
@[simp] theorem me_modMe (s : State) (f : Slot → Slot) : (s.modMe f).me = f s.me := by
  simp [State.me, State.modMe]
@[simp] theorem slot_modCore (s : State) (k : Nat) (f : Core → Core) (p : Nat) : (s.modCore k f).slot p = s.slot p := rfl
@[simp] theorem slot_modChan (s : State) (k : Nat) (n : Fin 4) (f : Channel → Channel) (p : Nat) :
    (s.modChan k n f).slot p = s.slot p := rfl
@[simp] theorem slot_modCrew (s : State) (k : Nat) (f : Crew → Crew) (p : Nat) : (s.modCrew k f).slot p = s.slot p := rfl
@[simp] theorem slot_modDie (s : State) (d : Nat) (f : Die → Die) (p : Nat) : (s.modDie d f).slot p = s.slot p := rfl
@[simp] theorem slot_modCluster (s : State) (k : Nat) (f : Cluster → Cluster) (p : Nat) :
    (s.modCluster k f).slot p = s.slot p := rfl
@[simp] theorem slot_count (s : State) (d e n p : Nat) : (s.count d e n).slot p = s.slot p := rfl
@[simp] theorem core_modCore_self (s : State) (k : Nat) (f : Core → Core) : (s.modCore k f).core k = f (s.core k) := by
  simp [State.core, State.modCore]
theorem core_modCore_other (s : State) {k j : Nat} (f : Core → Core) (h : j ≠ k) : (s.modCore k f).core j = s.core j := by
  simp [State.core, State.modCore, SMap.getD_set_other _ _ _ h]
@[simp] theorem crew_modCrew_self (s : State) (k : Nat) (f : Crew → Crew) : (s.modCrew k f).crew k = f (s.crew k) := by
  simp [State.crew, State.modCrew]
@[simp] theorem die_modDie_self (s : State) (d : Nat) (f : Die → Die) : (s.modDie d f).die d = f (s.die d) := by
  simp [State.die, State.modDie]
theorem die_modDie_other (s : State) {d e : Nat} (f : Die → Die) (h : e ≠ d) : (s.modDie d f).die e = s.die e := by
  simp [State.die, State.modDie, SMap.getD_set_other _ _ _ h]
@[simp] theorem cluster_modCluster_self (s : State) (k : Nat) (f : Cluster → Cluster) :
    (s.modCluster k f).cluster k = f (s.cluster k) := by
  simp [State.cluster, State.modCluster]

/-! ### Registers -/

@[simp] theorem reg_zero (x : Slot) : x.reg 0 = 0 := rfl
theorem reg_setReg_self (x : Slot) (d : SReg) (w : Word) : (x.setReg d w).reg d = if d = 0 then 0 else w := by
  by_cases h : d.val = 0
  · have : d = 0 := Fin.ext h
    simp [this]
  · have : ¬ d = 0 := fun e => h (by simp [e])
    simp [Slot.reg, Slot.setReg, h, this]
theorem reg_setReg_other (x : Slot) {d r : SReg} (w : Word) (h : r ≠ d) : (x.setReg d w).reg r = x.reg r := by
  have hv : d.val ≠ r.val := fun e => h (Fin.ext e.symm)
  by_cases hd : d.val = 0
  · simp [Slot.setReg, hd]
  · simp [Slot.reg, Slot.setReg, hd, Vector.getElem_set_ne, hv]
theorem full_setReg_self (x : Slot) (d : SReg) (w : Word) : (x.setReg d w).full d = true := by
  by_cases h : d.val = 0
  · simp [Slot.full, h]
  · simp [Slot.full, Slot.setReg, h]
theorem full_setReg_other (x : Slot) {d r : SReg} (w : Word) (h : r ≠ d) : (x.setReg d w).full r = x.full r := by
  have hv : r.val ≠ d.val := fun e => h (Fin.ext e)
  by_cases hd : d.val = 0
  · simp [Slot.setReg, hd]
  · simp [Slot.full, Slot.setReg, hd, hv]
@[simp] theorem mask_zero (x : Slot) : x.mask 0 = BitVec.allOnes 16 := rfl
theorem mask_setMask_self (x : Slot) (d : MReg) (w : Mask) :
    (x.setMask d w).mask d = if d = 0 then BitVec.allOnes 16 else w := by
  by_cases h : d.val = 0
  · have : d = 0 := Fin.ext h
    simp [this]
  · have : ¬ d = 0 := fun e => h (by simp [e])
    simp [Slot.mask, Slot.setMask, h, this]
theorem vec_setVec_self (x : Slot) (d : VReg) (w : Vec) : (x.setVec d w).v[d] = w := by simp [Slot.setVec]
theorem vec_setVec_other (x : Slot) {d r : VReg} (w : Vec) (h : r ≠ d) : (x.setVec d w).v[r] = x.v[r] := by
  have hv : d.val ≠ r.val := fun e => h (Fin.ext e.symm)
  simp [Slot.setVec, Vector.getElem_set_ne, hv]

/-! ### Issue -/

theorem gate_go {s : State} {q : Form} {k : Out} (h : s.gateOf s.cur q = .go) : s.gate q k = k := by
  simp [State.gate, h]
theorem gate_wait {s : State} {q : Form} {k : Out} (h : s.gateOf s.cur q = .wait) : s.gate q k = .next s := by
  simp [State.gate, h, State.waits]
theorem gate_trap {s : State} {q : Form} {k : Out} {c : Nat} {v : Word} (h : s.gateOf s.cur q = .trap c v) :
    s.gate q k = s.trap c v q.lit := by
  simp [State.gate, h]
/-- Everything that the gate can answer. -/
theorem gate_cases (s : State) (q : Form) (k : Out) :
    (s.gateOf s.cur q = .go ∧ s.gate q k = k) ∨ (s.gateOf s.cur q = .wait ∧ s.gate q k = .next s) ∨
    (∃ c v, s.gateOf s.cur q = .trap c v ∧ s.gate q k = s.trap c v q.lit) := by
  cases h : s.gateOf s.cur q with
  | go => exact .inl ⟨rfl, gate_go h⟩
  | wait => exact .inr (.inl ⟨rfl, gate_wait h⟩)
  | trap c v => exact .inr (.inr ⟨c, v, rfl, gate_trap h⟩)

theorem needPriv_user {s : State} {i : Instr} {k : Out} (h : s.me.priv = 0) :
    s.needPriv i k = s.trap 0x03 (wordOf i) false := by simp [State.needPriv, h]
theorem needPriv_super {s : State} {i : Instr} {k : Out} (h : s.me.priv ≠ 0) : s.needPriv i k = k := if_neg h

/-! ### Crews -/

/-- Taking a member out of the attached set changes the crew and a counter only. -/
theorem detach_cases (s : State) (ck m : Nat) :
    s.detach ck m = s ∨ ∃ (f : Crew → Crew) (n : Nat), s.detach ck m = (s.modCrew ck f).count (crewDie ck) 0x0A n := by
  unfold State.detach
  split
  · exact .inr ⟨_, _, rfl⟩
  · exact .inl rfl

@[simp] theorem slot_detach (s : State) (ck m p : Nat) : (s.detach ck m).slot p = s.slot p := by
  rcases detach_cases s ck m with h | ⟨f, n, h⟩ <;> rw [h]
  rfl
@[simp] theorem detach_mem (s : State) (ck m : Nat) : (s.detach ck m).mem = s.mem := by
  rcases detach_cases s ck m with h | ⟨f, n, h⟩ <;> rw [h]
  rfl
@[simp] theorem detach_feat (s : State) (ck m : Nat) : (s.detach ck m).feat = s.feat := by
  rcases detach_cases s ck m with h | ⟨f, n, h⟩ <;> rw [h]
  rfl
@[simp] theorem detach_cur (s : State) (ck m : Nat) : (s.detach ck m).cur = s.cur := by
  rcases detach_cases s ck m with h | ⟨f, n, h⟩ <;> rw [h]
  rfl
@[simp] theorem detach_lines (s : State) (ck m : Nat) : (s.detach ck m).lines = s.lines := by
  rcases detach_cases s ck m with h | ⟨f, n, h⟩ <;> rw [h]
  rfl
@[simp] theorem detach_clusters (s : State) (ck m : Nat) : (s.detach ck m).clusters = s.clusters := by
  rcases detach_cases s ck m with h | ⟨f, n, h⟩ <;> rw [h]
  rfl
@[simp] theorem detach_cores (s : State) (ck m : Nat) : (s.detach ck m).cores = s.cores := by
  rcases detach_cases s ck m with h | ⟨f, n, h⟩ <;> rw [h]
  rfl

/-! ### Taking a trap -/

/-- Outside a skim handler a trap writes the trap frame, and the slot goes on at the handler with PRIV 1. -/
theorem takeTrap_slot {s : State} {p c : Nat} {v : Word} {lit : Bool} {epc : Word} (h : (s.slot p).use ≠ .skim) :
    (s.takeTrap p c v lit epc).slot p = (s.slot p).trapTo c v (s.estatOf p lit) epc (s.die (dieOf p)).tvec := by
  have : ((s.slot p).use == Use.skim) = false := by simpa using h
  simp [State.takeTrap, this]
theorem takeTrap_slot_other {s : State} {p r c : Nat} {v : Word} {lit : Bool} {epc : Word}
    (h : (s.slot p).use ≠ .skim) (hr : r ≠ p) : (s.takeTrap p c v lit epc).slot r = s.slot r := by
  have : ((s.slot p).use == Use.skim) = false := by simpa using h
  simp [State.takeTrap, this, slot_modSlot_other _ _ hr]
theorem takeTrap_mem {s : State} {p c : Nat} {v : Word} {lit : Bool} {epc : Word} (h : (s.slot p).use ≠ .skim) :
    (s.takeTrap p c v lit epc).mem = s.mem := by
  have : ((s.slot p).use == Use.skim) = false := by simpa using h
  simp [State.takeTrap, this]

end Sys2Proof.Machine
end

