-- ==== Sys2Proof/Tests/Slice0.lean ====
section
/-!
SUPPORT. Tests: words made by hand from the encodings of the manual decode to their instructions, words and terms outside the
limits are refused, and for every statement a state and operands that meet its hypotheses, clause by clause, at the ends of
their ranges, with what the step then does as the rules cited by the statement give it.
-/

namespace Sys2Proof.Tests

-- One theorem after another: each waits for the kernel, and every waiting one would hold a thread.
set_option Elab.async false
open Sys2Proof.Machine Sys2Proof.Claims

/-! ### Small states -/

/-- A supervisor at PC 0x1000 with every register full and s2 = 7, s3 = −2, s4 = 0x1004. -/
def boss : Slot :=
  { Slot.init with
    use := .supervisor, priv := 1, pc := 0x1000,
    s := (((Slot.init.s.set 2 7).set 3 (BitVec.allOnes 64 - 1)).set 4 0x1004) }

/-- A task at PRIV 0 with the same registers. -/
def user : Slot := { boss with use := .task, priv := 0, tid := 9, asid := 1 }

/-- Slot 0 of the package holds the given one and has the turn; every feature is accepted. -/
def with0 (x : Slot) : State :=
  { State.reset.setSlot 0 x with feat := 7, turn := { elapsed := 0, act := .issue 0 } }

/-- The supervisor in slot 0. -/
def sup : State := with0 boss
/-- The task in slot 0. -/
def usr : State := with0 user

/-- Channel 0 of core 0, from slot 1 to slot 0, holds the given entries. -/
def chanTo (s : State) (w r : BitVec 4) (l : List Word) : State :=
  s.modCore 0 fun c => { c with chan := c.chan.set 0 { Channel.init with en := true, wslot := w, rslot := r, fifo := l } }

/-- A meaning answers a next state in which the given condition holds. -/
def after (o : Out) (f : State → Bool) : Bool := match o with | .next t => f t | _ => false

/-- Bytes placed in memory before any task runs, so that no fetch finds what stood there (R71). -/
def place (s : State) (a : Nat) (b : List Byte) : State := { s.putPhys a b with olds := s.olds }

/-- The slot of `sup` with an instruction word and its literal at its PC. -/
def code (s : State) (w : Nat) : State := place s 0x1000 (toBytes 8 w)

/-- Slot 0 of cores 0 and 1 as an attached pair of crew members at PRIV 1. -/
def pair : State :=
  let x : Slot := { boss with crew := true }
  ({ (with0 x).modSlot 16 (fun _ => x) with crews := [] }).modCrew 0 fun c => { c with live := 3, att := 3, dpc := 0x1000 }

/-- A state with another value in s2. -/
def s2 (s : State) (w : Word) : State := s.modMe fun x => x.setReg 2 w

/-- `sup` with a value in s2. -/
def wr (w : Word) : State := s2 sup w

/-- One access, number 1, of the supervisor in slot 0. -/
def one (k : AccKind) (size data : Nat) (dst : FillDst) : Access :=
  { id := 1, kind := k, asid := 0, user := false, hint := .dflt, sp := false, dst := dst, since := 0, reported := false,
    parts := [{ va := 0x2038, size := size, lane := 0, data := data, st := .todo, acks := [] }] }

/-- A line at 0x2000 with every byte 0x87, in the L2 of die 0. -/
def line7 : Line :=
  { frame := 0x2000, attr := .window, cur := List.replicate 64 0x87, poison := false, dirty := false, present := [0],
    owner := none, stale := [], l1 := [], excl := none, upd := none, empties := [], ret := 0,
    born := 0, pass := false }

/-- Slot 0 with an access under way, and a line on chip. -/
def under (a : Access) (l : Line) : State :=
  { with0 { boss with accs := [a] } with lines := [(lineKey 0 0x2000, l)] }

/-- Words of memory from an address on. -/
def put8 (s : State) (a : Nat) (l : List Nat) : State := place s a (l.flatMap (toBytes 8))

/-- A page table of address space 1 (root 0x20000, tables at 0x30000 and 0x40000), tensor 1 (FP32, four tiles of 16 × 64),
kernels 1 (slots 0 to 13) and 2 (a skim handler), classes 0, 1 (no gate) and 2 (order-dependent), and a pool of sixteen control
blocks, in the context entries of address spaces 0 and 1. -/
def world (s : State) : State :=
  let s := s.modDie 0 fun d => { d with asctx := 0x4000, cbpool := 0x11004, tvec := 0x3000 }
  let s := put8 s 0x4000 [2 ^ 63 + 0x20000, 0x6000, 0x7000, 0x8000, 0, 0, 0, 0, 2 ^ 63 + 0x20000, 0x6000, 0x7000, 0x8000]
  let s := put8 s 0x6040 [2 ^ 63 + 0x50000, 2 ^ 32 + 4, 0, 16 + 64 * 2 ^ 16]
  let s := put8 s 0x7040 [2 ^ 63 + 0x9000, 0, 0xD00, 0, 0, 0, 0, 0, 2 ^ 63 + 0x9000, 0, 0xEE0]
  let s := put8 s 0x8000 [0, 2 ^ 63, 0, 2 ^ 63, 0, 2 ^ 63 + 2]
  put8 (put8 (put8 s 0x20000 [0x30001]) 0x30000 [0x40001, 0x2000003F]) 0x40000 [0x2001F, 0x2005F]

/-- Version 5 of tile 0 of tensor 1. -/
def tile5 : Word := 0x0010000000000005

/-- A version slot of the name of `tile5`, full, in the pool, with a count. -/
def vslot (ver count : Nat) (full : Bool) : VSlot :=
  { version := ver, full := full, loc := 0, count := count, frame := 3, data := List.replicate 4096 0x11,
    side := List.replicate 256 0, last := 0, poison := false }

/-- The directory entry of the name of `tile5` with FLOOR 2 and the given version slots. -/
def name5 (slots : List (Nat × VSlot)) : Name :=
  { die := 0, slice := 8, set := 0, way := 0, tensor := 1, tile := 0, floor := 2, slots := slots, waiters := [], stores := [],
    lost := false, noted := [] }

/-- The home of `tile5`. -/
def home5 : Home := { x := 8, place := 1, base := 0x50000, strip := 0, rows := 0, pkg := none }

/-- Request 4 of the task in slot 0. -/
def req (k : TileKind) (st : TileState) : TileReq :=
  { kind := k, h := tile5, asid := 0, user := false, slot := 0, tid := 0, st := st, since := 0, reported := false, inc := 1,
    poison := false, home := home5, frame := none }

/-- Key of the directory entry of the name of `tile5`: die 0, slice 8, set 0, tensor 1, tile 0. -/
def key5 : Nat := 8 * 2 ^ 60 + 2 ^ 28

/-- The supervisor of a world with that request, and the directory entry. -/
def asking (r : TileReq) (m : Name) : State :=
  { world sup with tiles := [(4, r)], names := [(key5, m)] }


/-- A record of class 0 and kernel 1 of address space 1. -/
def rec5 : Rec :=
  { key := 5, path := 77, folds := 1, sealed := false, nf := false, lr := false, acnt := 0, aff := 0xE, prio := 0, cls := 0,
    entry := 1, stamp := 3, token := 0, asid := 1, lnch := 0, payload := Vector.replicate 8 1, spill := none, dev := false,
    resume := none, det := false, dom := none, inst := none }

/-- A world whose task in slot 0 belongs to address space 1, with records in the pan of die 0. -/
def pan (l : List Rec) : State := (world usr).modDie 0 fun d => { d with pan := l, enq := 8 }

/-- A record on its way to die 0. -/
def coming (r : Rec) : RecMsg := { die := 0, r := r, slot := 0, tid := 9, dst := none, free := true }

/-- A launch of four tasks of one level of kernel 1. -/
def four : Launch :=
  { words := Vector.ofFn fun i => if i.val = 0 then 2 ^ 63 + 0xE000001 else if i.val = 8 then 4 else if i.val = 7 then 0xE000001 else 0,
    asid := 1, path := 0, die := 0, started := true, next := 0, posted := [], wait := none, refused := false }

/-- A world with a launch under way. -/
def launched (l : Launch) : State := { pan [] with launches := [(0x20000, l)] }

/-- A command of the given words. -/
def cmd (l : List W32) : Cmd :=
  { ticket := 1, words := l, started := false, fate := none, pos := 0, paused := false, loaded := false, fail := none, marks := [],
    out := [], wrote := [], tile := none, scale := none, rows := [], pops := [], claims := [], page := none, flags := 0 }

/-- A state whose slot 0 has a command at the head of an engine's queue, with guard 0. -/
def queued (s : State) (e : Engine) (c : Cmd) : State :=
  s.modSlot 0 fun x => { x with eng := x.eng.set (engNum e) { x.engine e with queue := [c], p := 1 } }

/-- A fault message about page 5 of address space 1 at a router and port. -/
def fault5 (router port : Nat) : FaultMsg :=
  { router := router, port := port, asid := 1, page := 5, cause := 0x40, addr := 0x50000, die := 0, inc := 1, acc := 0, eng := false,
    who := some (.notice 0x20000, 2, 9) }

/-- A package whose host is served, with features 0 to 10. -/
def served : State := { world usr with ctrl := { sup.ctrl with booted := true }, feat := 0x7FF }

/-- A package, number 0, in a link group with package 3, to which link 2 leads. -/
def grouped : State := { served with pkgSet := true, route := [(3, 4)] }

/-- Header of a message of package 3, die 1 to die 0 of package 0 under address space 1, with tag 4. -/
def hdr (typ len q2 q3 : Nat) : List Word :=
  [BitVec.ofNat 64 (typ * 2 ^ 56 + 3 * 2 ^ 36 + 1 * 2 ^ 28 + 1 * 2 ^ 12 + 1), BitVec.ofNat 64 (2 ^ 48 + len * 2 ^ 40 + 4), BitVec.ofNat 64 q2, BitVec.ofNat 64 q3]

/-! ### Decoding: words made by hand from the fields of the opcode table, an operand at its highest value or with a literal -/

/-- Every listed word decodes to the instruction beside it. -/
def reads (l : List (Nat × Instr)) : Bool := l.all fun x => decide (decodeTableWord 64 x.1 = some x.2)

theorem test_decode_scalar_1 : reads
    [(0x3FFDEA0, (.add 63 ⟨62, false⟩ (.reg ⟨61, true⟩))),
     (0xFFFFFFF802AFA060, (.add 21 ⟨61, true⟩ (.lit 0xFFFFFFF8))),
     (0x3FFDEA1, (.sub 63 ⟨62, false⟩ (.reg ⟨61, true⟩))),
     (0x3FFDEA2, (.mul 63 ⟨62, false⟩ (.reg ⟨61, true⟩))),
     (0x3FFDEA3, (.mulhI64 63 ⟨62, false⟩ (.reg ⟨61, true⟩))),
     (0x3FFDEA4, (.mulhN64 63 ⟨62, false⟩ (.reg ⟨61, true⟩))),
     (0xFFFFFFF802534065, (.divI64 10 ⟨26, true⟩ (.lit 0xFFFFFFF8))),
     (0xFFFFFFF803508066, (.divN64 42 ⟨4, true⟩ (.lit 0xFFFFFFF8))),
     (0xFFFFFFF8022EA067, (.remI64 5 ⟨53, true⟩ (.lit 0xFFFFFFF8))),
     (0xFFFFFFF80318E068, (.remN64 35 ⟨7, true⟩ (.lit 0xFFFFFFF8))),
     (0x3FFDEA9, (.and 63 ⟨62, false⟩ (.reg ⟨61, true⟩))),
     (0x1000502C4C06A, (.or 24 ⟨38, true⟩ (.lit 0x00010005))),
     (0x3FFDEAB, (.xor 63 ⟨62, false⟩ (.reg ⟨61, true⟩))),
     (0x402000000227606C, (.andn 4 ⟨59, true⟩ (.lit 0x40200000))),
     (0x3FFDEAD, (.shl 63 ⟨62, false⟩ (.reg ⟨61, true⟩))),
     (0x3FFDEAE, (.shr 63 ⟨62, false⟩ (.reg ⟨61, true⟩))),
     (0x3FFDEAF, (.sar 63 ⟨62, false⟩ (.reg ⟨61, true⟩))),
     (0x3FFDEB0, (.rol 63 ⟨62, false⟩ (.reg ⟨61, true⟩))),
     (0xFFFFFFF80309C071, (.minI64 33 ⟨14, true⟩ (.lit 0xFFFFFFF8))),
     (0xFFFFFFF80218C072, (.minN64 3 ⟨6, true⟩ (.lit 0xFFFFFFF8))),
     (0xFFFFFFF802E36073, (.maxI64 28 ⟨27, true⟩ (.lit 0xFFFFFFF8))),
     (0xFFFFFFF8022A0074, (.maxN64 5 ⟨16, true⟩ (.lit 0xFFFFFFF8))),
     (0x3FFDEB5, (.sel 63 ⟨62, false⟩ (.reg ⟨61, true⟩))),
     (0x5FFC000, (.clz 63 ⟨62, false⟩))] = true := by
  decide +kernel

theorem test_decode_scalar_2 : reads
    [(0x4348040, (.clz 6 ⟨36, true⟩)),
     (0x4E08041, (.ctz 28 ⟨4, true⟩)),
     (0x5FFC002, (.popc 63 ⟨62, false⟩)),
     (0x5ACA043, (.mov 53 ⟨37, true⟩)),
     (0x5FFC004, (.sextI8 63 ⟨62, false⟩)),
     (0x447A045, (.sextI16 8 ⟨61, true⟩)),
     (0x47D2046, (.sextI32 15 ⟨41, true⟩)),
     (0x5FFC007, (.zextN8 63 ⟨62, false⟩)),
     (0x54CC048, (.zextN16 41 ⟨38, true⟩)),
     (0x5E88049, (.zextN32 61 ⟨4, true⟩)),
     (0x10005052CC070, (.setEq 37 ⟨38, true⟩ (.lit 0x00010005))),
     (0x1000504D08071, (.setNe 26 ⟨4, true⟩ (.lit 0x00010005))),
     (0x1000505F9E072, (.setLt 63 ⟨15, true⟩ (.lit 0x00010005))),
     (0x10005041C8073, (.setGe 3 ⟨36, true⟩ (.lit 0x00010005))),
     (0x5FFDEB4, (.setLtn 63 ⟨62, false⟩ (.reg ⟨61, true⟩))),
     (0x5FFDEB5, (.setGen 63 ⟨62, false⟩ (.reg ⟨61, true⟩))),
     (0x7FFCFFD, (.addImm 63 ⟨62, false⟩ 0xFFD)),
     (0x7B93801, (.addImm 55 ⟨9, true⟩ 0x801)),
     (0x9FFCFFD, (.andImm 63 ⟨62, false⟩ 0xFFD)),
     (0x89B7801, (.andImm 19 ⟨27, true⟩ 0x801)),
     (0xBFFCFFD, (.orImm 63 ⟨62, false⟩ 0xFFD)),
     (0xA547801, (.orImm 10 ⟨35, true⟩ 0x801)),
     (0xDFFCFFD, (.xorImm 63 ⟨62, false⟩ 0xFFD)),
     (0xC44B801, (.xorImm 8 ⟨37, true⟩ 0x801))] = true := by
  decide +kernel

theorem test_decode_scalar_3 : reads
    [(0xFFFC03F, (.shlImm 63 ⟨62, false⟩ 63)),
     (0xEA49020, (.shlImm 20 ⟨36, true⟩ 32)),
     (0xFAD9420, (.shrImm 53 ⟨44, true⟩ 32)),
     (0xE60F820, (.sarImm 12 ⟨7, true⟩ 32)),
     (0xF34BC20, (.rolImm 38 ⟨37, true⟩ 32)),
     (0x11FFC07F, (.bfx 63 ⟨62, false⟩ 1 63)),
     (0x1149BFC1, (.bfx 41 ⟨13, true⟩ 63 1)),
     (0x13FFC07F, (.bfi 63 ⟨62, false⟩ 1 63)),
     (0x12C0FFC1, (.bfi 24 ⟨7, true⟩ 63 1)),
     (0x15F80FFD, (.li 63 0xFFD)),
     (0x15200801, (.li 36 0x801)),
     (0x17FFDEA0, (.lih 63 ⟨62, false⟩ (.reg ⟨61, true⟩))),
     (0xFFFFFFF81770A060, (.lih 46 ⟨5, true⟩ (.lit 0xFFFFFFF8))),
     (0x19FFDEA3, (.lea 63 ⟨62, false⟩ (.reg ⟨61, true⟩) 3)),
     (0xFFFFFFF819288061, (.lea 37 ⟨4, true⟩ (.lit 0xFFFFFFF8) 1))] = true := by
  decide +kernel

theorem test_decode_control_1 : reads
    [(0x21F7CFFD, (.brEq ⟨62, false⟩ ⟨62, true⟩ 0x7FD)),
     (0x2141D401, (.brEq ⟨40, true⟩ ⟨14, false⟩ 0x401)),
     (0x23F7CFFD, (.brNe ⟨62, false⟩ ⟨62, true⟩ 0x7FD)),
     (0x23059401, (.brNe ⟨32, true⟩ ⟨44, false⟩ 0x401)),
     (0x25F7CFFD, (.brLt ⟨62, false⟩ ⟨62, true⟩ 0x7FD)),
     (0x251B9401, (.brLt ⟨35, true⟩ ⟨28, false⟩ 0x401)),
     (0x27F7CFFD, (.brGe ⟨62, false⟩ ⟨62, true⟩ 0x7FD)),
     (0x2792B401, (.brGe ⟨50, true⟩ ⟨21, false⟩ 0x401)),
     (0x29F7CFFD, (.brLtn ⟨62, false⟩ ⟨62, true⟩ 0x7FD)),
     (0x28F4D401, (.brLtn ⟨30, true⟩ ⟨38, false⟩ 0x401)),
     (0x2BF7CFFD, (.brGen ⟨62, false⟩ ⟨62, true⟩ 0x7FD)),
     (0x2BE3D401, (.brGen ⟨60, true⟩ ⟨30, false⟩ 0x401)),
     (0x2C3807FD, (.brAny 7 0x7FD)),
     (0x2C180401, (.brAny 3 0x401)),
     (0x2E3807FD, (.brAll 7 0x7FD)),
     (0x2E180401, (.brAll 3 0x401)),
     (0x303807FD, (.brNone 7 0x7FD)),
     (0x30100401, (.brNone 2 0x401)),
     (0x323807FD, (.brNall 7 0x7FD)),
     (0x32380401, (.brNall 7 0x401)),
     (0x35FFFFFD, (.bra 0x1FFFFFD)),
     (0x35000001, (.bra 0x1000001)),
     (0x37FFFFFD, (.call 0x1FFFFFD)),
     (0x37000001, (.call 0x1000001))] = true := by
  decide +kernel

theorem test_decode_control_2 : reads
    [(0x3807CFFD, (.jtab ⟨62, false⟩ 0xFFD)),
     (0x38019801, (.jtab ⟨12, true⟩ 0x801)),
     (0x3A07C000, (.jr ⟨62, false⟩)),
     (0x3A05A040, (.jr ⟨45, true⟩)),
     (0x3A07C001, (.callReg ⟨62, false⟩)),
     (0x3C000000, .nop),
     (0x3C0001FD, (.trap 0xFD)),
     (0x3C000200, .eret),
     (0x3C000300, .halt)] = true := by
  decide +kernel

theorem test_decode_system_1 : reads
    [(0x41F80383, (.ctlRd 63 0x383)),
     (0x41900010, (.ctlRd 50 0x10)),
     (0x4207C383, (.ctlWr ⟨62, false⟩ 0x383)),
     (0x42021010, (.ctlWr ⟨16, true⟩ 0x10)),
     (0x4407C383, (.ctlSet ⟨62, false⟩ 0x383)),
     (0x4400D010, (.ctlSet ⟨6, true⟩ 0x10)),
     (0x4607C383, (.ctlClr ⟨62, false⟩ 0x383)),
     (0x4604B010, (.ctlClr ⟨37, true⟩ 0x10)),
     (0x4807C005, (.fence ⟨62, false⟩ 5)),
     (0x48029003, (.fence ⟨20, true⟩ 3))] = true := by
  decide +kernel

theorem test_decode_float_1 : reads
    [(0x51FFDEA2, (.fadd 63 ⟨62, false⟩ (.reg ⟨61, true⟩) .bf16)),
     (0x4020000051140061, (.fadd 34 ⟨32, true⟩ (.lit 0x40200000) .f16)),
     (0x51FFDEA6, (.fsub 63 ⟨62, false⟩ (.reg ⟨61, true⟩) .bf16)),
     (0x51FFDEAA, (.fmul 63 ⟨62, false⟩ (.reg ⟨61, true⟩) .bf16)),
     (0x51FFDEAE, (.fdiv 63 ⟨62, false⟩ (.reg ⟨61, true⟩) .bf16)),
     (0x51FFDEB2, (.fmin 63 ⟨62, false⟩ (.reg ⟨61, true⟩) .bf16)),
     (0x51FFDEB6, (.fmax 63 ⟨62, false⟩ (.reg ⟨61, true⟩) .bf16)),
     (0x51FFDEBA, (.fsgn 63 ⟨62, false⟩ (.reg ⟨61, true⟩) .bf16)),
     (0x53FFDEA2, (.fma 63 ⟨62, false⟩ (.reg ⟨61, true⟩) .bf16)),
     (0xFFFFFFF853CAC061, (.fma 57 ⟨22, true⟩ (.lit 0xFFFFFFF8) .f16)),
     (0x53FFDEA6, (.fms 63 ⟨62, false⟩ (.reg ⟨61, true⟩) .bf16)),
     (0x40200000537BA069, (.fnma 47 ⟨29, true⟩ (.lit 0x40200000) .f16)),
     (0x53FFC00E, (.fsqrt 63 ⟨62, false⟩ .bf16)),
     (0x40200000529CE071, (.fcmp 19 ⟨39, true⟩ (.lit 0x40200000) .f16)),
     (0x53F8A055, (.fclass 63 ⟨5, true⟩ .f16)),
     (0x52443558, (.fcvt 8 ⟨33, true⟩ .i32 .bf16)),
     (0x55FFFFFD, (.liF32 31 0xFFFFD)),
     (0x54E80001, (.liF32 14 0x80001)),
     (0x57FFC1FF, (.faddCb 63 ⟨62, false⟩ .bf16 255)),
     (0x565E3180, (.faddCb 11 ⟨49, true⟩ .bf16 128)),
     (0x56B15380, (.fsubCb 22 ⟨10, true⟩ .bf16 128)),
     (0x57E41580, (.fmulCb 60 ⟨32, true⟩ .bf16 128)),
     (0x57FFC7FF, (.fmaCb 63 ⟨62, false⟩ .bf16 255)),
     (0x56D87980, (.fminCb 27 ⟨3, true⟩ .bf16 128))] = true := by
  decide +kernel

theorem test_decode_float_2 : reads
    [(0x57F57B80, (.fmaxCb 62 ⟨43, true⟩ .bf16 128))] = true := by
  decide +kernel

theorem test_decode_vector_int_1 : reads
    [(0x59FF77A0, (.vaddI32 31 ⟨30, false⟩ (.reg ⟨29, true⟩) 7)),
     (0x40200000583C82E0, (.vaddI32 3 ⟨25, true⟩ (.lit 0x40200000) 5)),
     (0x40200000593D03E1, (.vsubI32 19 ⟨26, true⟩ (.lit 0x40200000) 7)),
     (0x4020000058B58362, (.vmulI32 11 ⟨11, true⟩ (.lit 0x40200000) 6)),
     (0x4020000058CA0263, (.vminI32 12 ⟨20, true⟩ (.lit 0x40200000) 4)),
     (0x40200000593D0264, (.vminN32 19 ⟨26, true⟩ (.lit 0x40200000) 4)),
     (0x40200000583D80E5, (.vmaxI32 3 ⟨27, true⟩ (.lit 0x40200000) 1)),
     (0x4020000059F48266, (.vmaxN32 31 ⟨9, true⟩ (.lit 0x40200000) 4)),
     (0x40200000597B00E7, (.vandI32 23 ⟨22, true⟩ (.lit 0x40200000) 1)),
     (0x59FF77A8, (.vorI32 31 ⟨30, false⟩ (.reg ⟨29, true⟩) 7)),
     (0x40200000582C0369, (.vxorI32 2 ⟨24, true⟩ (.lit 0x40200000) 6)),
     (0x4020000058AA82EA, (.vshlI32 10 ⟨21, true⟩ (.lit 0x40200000) 5)),
     (0x40200000596D826B, (.vshrI32 22 ⟨27, true⟩ (.lit 0x40200000) 4)),
     (0x4020000058AB826C, (.vsarI32 10 ⟨23, true⟩ (.lit 0x40200000) 4))] = true := by
  decide +kernel

theorem test_decode_vector_float_1 : reads
    [(0x5BFF77A2, (.vaddFp 31 ⟨30, false⟩ (.reg ⟨29, true⟩) 7 .bf16)),
     (0xFFFFFFF85BDB01E1, (.vaddFp 29 ⟨22, true⟩ (.lit 0xFFFFFFF8) 3 .f16)),
     (0xFFFFFFF85A1F8265, (.vsubFp 1 ⟨31, true⟩ (.lit 0xFFFFFFF8) 4 .f16)),
     (0xFFFFFFF85AC302E9, (.vmulFp 12 ⟨6, true⟩ (.lit 0xFFFFFFF8) 5 .f16)),
     (0x402000005A4800ED, (.vfma 4 ⟨16, true⟩ (.lit 0x40200000) 1 .f16)),
     (0xFFFFFFF85A7C81F1, (.vminFp 7 ⟨25, true⟩ (.lit 0xFFFFFFF8) 3 .f16)),
     (0xFFFFFFF85A5C0175, (.vmaxFp 5 ⟨24, true⟩ (.lit 0xFFFFFFF8) 2 .f16)),
     (0x5C7F77B3, (.vcmp 7 ⟨30, false⟩ (.reg ⟨29, true⟩) 7 .bf16 .ge)),
     (0x402000005C4683E5, (.vcmp 4 ⟨13, true⟩ (.lit 0x40200000) 7 .n32 .ne)),
     (0x5DFF77B4, (.vsel 31 ⟨30, false⟩ (.reg ⟨29, true⟩) 7)),
     (0x5D018156, (.vfclass 16 ⟨3, true⟩ 2 .f16))] = true := by
  decide +kernel

theorem test_decode_vector_move_1 : reads
    [(0x5FFF0380, (.vbcast 31 ⟨30, false⟩ 7)),
     (0x5EF682C0, (.vbcast 15 ⟨13, true⟩ 5)),
     (0x402000005E9E8061, (.vins 9 ⟨29, true⟩ (.lit 0x40200000))),
     (0x5FFF7422, (.vextN32 31 ⟨30, false⟩ (.reg ⟨29, true⟩))),
     (0x5FFF7423, (.vextI32 31 ⟨30, false⟩ (.reg ⟨29, true⟩))),
     (0x5FFF77A4, (.vperm 31 ⟨30, false⟩ (.reg ⟨29, true⟩) 7)),
     (0xFFFFFFF85E5D8265, (.vslide 5 ⟨27, true⟩ (.lit 0xFFFFFFF8) 4)),
     (0x61FF0382, (.vredsum 31 ⟨30, false⟩ 7 .f32)),
     (0x61C901C1, (.vredsum 28 ⟨18, true⟩ 3 .n32)),
     (0x617701C5, (.vredmax 23 ⟨14, true⟩ 3 .n32)),
     (0x616E8249, (.vredmin 22 ⟨29, true⟩ 4 .n32)),
     (0x63FF77A0, (.vdot8E4m3 31 ⟨30, false⟩ (.reg ⟨29, true⟩) 7)),
     (0xFFFFFFF863F40160, (.vdot8E4m3 31 ⟨8, true⟩ (.lit 0xFFFFFFF8) 2)),
     (0x63FF77A1, (.vdot8E5m2 31 ⟨30, false⟩ (.reg ⟨29, true⟩) 7)),
     (0x63FF77A2, (.vdot8I8 31 ⟨30, false⟩ (.reg ⟨29, true⟩) 7)),
     (0x63FF77A3, (.vdottT2 31 ⟨30, false⟩ (.reg ⟨29, true⟩) 7))] = true := by
  decide +kernel

theorem test_decode_vector_convert_1 : reads
    [(0x65FF1B81, (.vcvt 31 ⟨30, false⟩ 7 .f16 .n32)),
     (0x64330945, (.vcvt 3 ⟨6, true⟩ 2 .i32 .bf16)),
     (0x65EE7429, (.vqnt 30 ⟨28, false⟩ (.reg ⟨29, true⟩) .e5m2)),
     (0x10005648B006B, (.vdqnt 8 ⟨22, true⟩ (.lit 0x00010005) .e5m2)),
     (0x67FF0382, (.vrecip 31 ⟨30, false⟩ 7 .bf16)),
     (0x66808241, (.vrecip 8 ⟨1, true⟩ 4 .f16)),
     (0x67B98145, (.vrsqrt 27 ⟨19, true⟩ 2 .f16)),
     (0x67FF038A, (.vexp2 31 ⟨30, false⟩ 7 .bf16)),
     (0x69FFFFFD, (.vbcastF32 31 0xFFFFD)),
     (0x68980001, (.vbcastF32 9 0x80001)),
     (0x6BFFF1FF, (.vaddCb 31 31 7 .bf16 255)),
     (0x6AA0A180, (.vaddCb 10 1 2 .bf16 128)),
     (0x6AE93380, (.vsubCb 14 18 3 .bf16 128)),
     (0x6B49B580, (.vmulCb 20 19 3 .bf16 128)),
     (0x6BF2E780, (.vfmaCb 31 5 6 .bf16 128)),
     (0x6BC8D980, (.vminCb 28 17 5 .bf16 128)),
     (0x6B5B6B80, (.vmaxCb 21 22 6 .bf16 128))] = true := by
  decide +kernel

theorem test_decode_mask_1 : reads
    [(0x6C38E280, (.mand 7 7 (.reg 5))),
     (0x402000006C088020, (.mand 1 4 (.lit 0x40200000))),
     (0xFFFFFFF86C38E021, (.mor 7 7 (.lit 0xFFFFFFF8))),
     (0x6C38E282, (.mxor 7 7 (.reg 5))),
     (0x6C38E003, (.mnot 7 7)),
     (0x6DF8E004, (.mpop 63 7)),
     (0x6DF8E005, (.mfirst 63 7)),
     (0x6C381EA6, (.mset 7 (.reg ⟨61, true⟩))),
     (0x100056DE8E027, (.mtest 61 7 (.lit 0x00010005)))] = true := by
  decide +kernel

theorem test_decode_memory_1 : reads
    [(0x81FFDFFD, (.ldI8 63 ⟨62, true⟩ .by 0x3FD)),
     (0x81668601, (.ldI8 44 ⟨52, false⟩ .st 0x201)),
     (0x83FFDFFD, (.ldN8 63 ⟨62, true⟩ .by 0x3FD)),
     (0x83234601, (.ldN8 36 ⟨26, false⟩ .st 0x201)),
     (0x85FFDFFD, (.ldI16 63 ⟨62, true⟩ .by 0x3FD)),
     (0x84D34601, (.ldI16 26 ⟨26, false⟩ .st 0x201)),
     (0x87FFDFFD, (.ldN16 63 ⟨62, true⟩ .by 0x3FD)),
     (0x86D0E601, (.ldN16 26 ⟨7, false⟩ .st 0x201)),
     (0x89FFDFFD, (.ldI32 63 ⟨62, true⟩ .by 0x3FD)),
     (0x88FD2601, (.ldI32 31 ⟨41, false⟩ .st 0x201)),
     (0x8BFFDFFD, (.ldN32 63 ⟨62, true⟩ .by 0x3FD)),
     (0x8AD08601, (.ldN32 26 ⟨4, false⟩ .st 0x201)),
     (0x8DFFDFFD, (.ldI64 63 ⟨62, true⟩ .by 0x3FD)),
     (0x8C68A601, (.ldI64 13 ⟨5, false⟩ .st 0x201)),
     (0x8FFFDFFD, (.stI8 63 ⟨62, true⟩ .by 0x3FD)),
     (0x8E73A601, (.stI8 14 ⟨29, false⟩ .st 0x201)),
     (0x91FFDFFD, (.stI16 63 ⟨62, true⟩ .by 0x3FD)),
     (0x90590601, (.stI16 11 ⟨8, false⟩ .st 0x201)),
     (0x93FFDFFD, (.stI32 63 ⟨62, true⟩ .by 0x3FD)),
     (0x92B4E601, (.stI32 22 ⟨39, false⟩ .st 0x201)),
     (0x95FFDFFD, (.stI64 63 ⟨62, true⟩ .by 0x3FD)),
     (0x9420E601, (.stI64 4 ⟨7, false⟩ .st 0x201)),
     (0x96FFDFFD, (.vld 31 ⟨62, true⟩ .by 0x3FD)),
     (0x960CA601, (.vld 1 ⟨37, false⟩ .st 0x201))] = true := by
  decide +kernel

theorem test_decode_memory_2 : reads
    [(0x98FFDFFD, (.vst 31 ⟨62, true⟩ .by 0x3FD)),
     (0x982C6601, (.vst 5 ⟨35, false⟩ .st 0x201)),
     (0x9BFFDFFD, (.ldSp 63 ⟨62, true⟩ .b8 0x3FD)),
     (0x9A3FA601, (.ldSp 7 ⟨61, false⟩ .b2 0x201)),
     (0x9DFFDFFD, (.ldSpN 63 ⟨62, true⟩ .b8 0x3FD)),
     (0x9CC50601, (.ldSpN 24 ⟨40, false⟩ .b2 0x201)),
     (0x9FFFDFFD, (.stSp 63 ⟨62, true⟩ .b8 0x3FD)),
     (0x9E10A601, (.stSp 2 ⟨5, false⟩ .b2 0x201)),
     (0xA1FFDFFD, (.ldsync 63 ⟨62, true⟩ true true 0x3FD)),
     (0xA1C1C201, (.ldsync 56 ⟨14, false⟩ false false 0x201)),
     (0xA2FFDFFD, (.vldSp 31 ⟨62, true⟩ 0x3FD)),
     (0xA2A32E01, (.vldSp 20 ⟨25, false⟩ 0x201)),
     (0xA4FFDFFD, (.vstSp 31 ⟨62, true⟩ 0x3FD)),
     (0xA42D2E01, (.vstSp 5 ⟨41, false⟩ 0x201)),
     (0xA607DEA3, (.stfill ⟨62, false⟩ (.reg ⟨61, true⟩) true true)),
     (0xFFFFFFF8A6022060, (.stfill ⟨17, true⟩ (.lit 0xFFFFFFF8) false false)),
     (0xA607DEA5, (.clrfe ⟨62, false⟩ (.reg ⟨61, true⟩) true)),
     (0xA7FFC007, (.lda 63 ⟨62, false⟩ true)),
     (0xA607DEA9, (.stl ⟨62, false⟩ (.reg ⟨61, true⟩) true)),
     (0xA607C04A, (.pref ⟨62, true⟩)),
     (0xA602E04B, (.prefSt ⟨23, true⟩)),
     (0xA604E04C, (.prefSk ⟨39, true⟩)),
     (0xA6000014, (.drain .link))] = true := by
  decide +kernel

theorem test_decode_atomic_1 : reads
    [(0xA9FF77A2, (.vgather 31 ⟨30, false⟩ (.reg ⟨29, true⟩) 7 true)),
     (0x40200000A8C800E0, (.vgather 12 ⟨16, true⟩ (.lit 0x40200000) 1 false)),
     (0xA9FF77A3, (.vscatter 31 ⟨30, false⟩ (.reg ⟨29, true⟩) 7 true)),
     (0xABFFDEA0, (.amoAdd 63 ⟨62, false⟩ (.reg ⟨61, true⟩) true)),
     (0x40200000AC46E061, (.amoMinI 8 ⟨55, true⟩ (.lit 0x40200000) false)),
     (0x40200000AD07E062, (.amoMinN 32 ⟨63, true⟩ (.lit 0x40200000) false)),
     (0x40200000ACF3E063, (.amoMaxI 30 ⟨31, true⟩ (.lit 0x40200000) false)),
     (0x40200000ACFA8064, (.amoMaxN 31 ⟨20, true⟩ (.lit 0x40200000) false)),
     (0xABFFDEA5, (.amoAnd 63 ⟨62, false⟩ (.reg ⟨61, true⟩) true)),
     (0x10005AC314066, (.amoOr 6 ⟨10, true⟩ (.lit 0x00010005) false)),
     (0xABFFDEA7, (.amoXor 63 ⟨62, false⟩ (.reg ⟨61, true⟩) true)),
     (0x40200000AC3E0068, (.amoSwap 7 ⟨48, true⟩ (.lit 0x40200000) false)),
     (0xABFFDEA9, (.amoCas 63 ⟨62, false⟩ (.reg ⟨61, true⟩) true)),
     (0xAA07DEB0, (.amoStadd ⟨62, false⟩ (.reg ⟨61, true⟩) true)),
     (0xFFFFFFF8AC02C071, (.amoStminI ⟨22, true⟩ (.lit 0xFFFFFFF8) false)),
     (0xFFFFFFF8AC060072, (.amoStminN ⟨48, true⟩ (.lit 0xFFFFFFF8) false)),
     (0xFFFFFFF8AC022073, (.amoStmaxI ⟨17, true⟩ (.lit 0xFFFFFFF8) false)),
     (0xFFFFFFF8AC03E074, (.amoStmaxN ⟨31, true⟩ (.lit 0xFFFFFFF8) false)),
     (0xAA07DEB5, (.amoStand ⟨62, false⟩ (.reg ⟨61, true⟩) true)),
     (0x40200000AC06C076, (.amoStor ⟨54, true⟩ (.lit 0x40200000) false)),
     (0xAA07DEB7, (.amoStxor ⟨62, false⟩ (.reg ⟨61, true⟩) true)),
     (0xFFFFFFF8AC05A078, (.amoStswap ⟨45, true⟩ (.lit 0xFFFFFFF8) false)),
     (0xABFFDEB9, (.amoStcas 63 ⟨62, false⟩ (.reg ⟨61, true⟩) true)),
     (0xAFFFDEA0, (.famoAdd 63 ⟨62, false⟩ (.reg ⟨61, true⟩)))] = true := by
  decide +kernel

theorem test_decode_atomic_2 : reads
    [(0x40200000AE5C4060, (.famoAdd 11 ⟨34, true⟩ (.lit 0x40200000))),
     (0xAE07DEA1, (.famoStadd ⟨62, false⟩ (.reg ⟨61, true⟩)))] = true := by
  decide +kernel

theorem test_decode_tile_1 : reads
    [(0xB007DEA1, (.tld ⟨62, false⟩ (.reg ⟨61, true⟩) true)),
     (0xFFFFFFF8B0004060, (.tld ⟨2, true⟩ (.lit 0xFFFFFFF8) false)),
     (0xFFFFFFF8B001C062, (.tst ⟨14, true⟩ (.lit 0xFFFFFFF8))),
     (0xB207C000, (.twait ⟨62, false⟩)),
     (0xB207A040, (.twait ⟨61, true⟩)),
     (0xB207A041, (.twaitY ⟨61, true⟩)),
     (0xB207C002, (.tdrop ⟨62, false⟩)),
     (0xB3FFDEA3, (.tpeek 63 ⟨62, false⟩ (.reg ⟨61, true⟩))),
     (0xFFFFFFF8B3130064, (.thmake 34 ⟨24, true⟩ (.lit 0xFFFFFFF8))),
     (0xB255A045, (.tq 10 ⟨45, true⟩))] = true := by
  decide +kernel

theorem test_decode_task_1 : reads
    [(0xC007DEA0, (.spawn ⟨62, false⟩ (.reg ⟨61, true⟩))),
     (0x10005C0046060, (.spawn ⟨35, true⟩ (.lit 0x00010005))),
     (0xC007DEA1, (.spawnk ⟨62, false⟩ (.reg ⟨61, true⟩))),
     (0xC007C002, (.launch ⟨62, false⟩)),
     (0xC0000003, .texit),
     (0xC0FFDEA4, (.reap 31 ⟨62, false⟩ (.reg ⟨61, true⟩))),
     (0xC0000005, .yield),
     (0xC1F81EA6, (.path 63 (.reg ⟨61, true⟩))),
     (0x10005C1D80027, (.recLd 59 (.lit 0x00010005))),
     (0xC3FFDEA0, (.callr 63 ⟨62, false⟩ (.reg ⟨61, true⟩))),
     (0x10005C2162060, (.callr 2 ⟨49, true⟩ (.lit 0x00010005))),
     (0xC207C001, (.reply ⟨62, false⟩)),
     (0xC407C000, (.chanCfg ⟨62, false⟩)),
     (0xC4044040, (.chanCfg ⟨34, true⟩)),
     (0xC407C001, (.chanCfgRel ⟨62, false⟩)),
     (0xC6000000, .detach),
     (0xFFFFFFF8C6028061, (.rejoin ⟨20, true⟩ (.lit 0xFFFFFFF8))),
     (0xC607E042, (.lockstep ⟨63, true⟩)),
     (0xC6000003, .split),
     (0xC7500004, (.crewid 42)),
     (0xC807DEA0, (.rvInit ⟨62, false⟩ (.reg ⟨61, true⟩))),
     (0xFFFFFFF8C8070060, (.rvInit ⟨56, true⟩ (.lit 0xFFFFFFF8))),
     (0xC835A041, (.rvArr 6 ⟨45, true⟩)),
     (0xC807DEA2, (.rvWait ⟨62, false⟩ (.reg ⟨61, true⟩)))] = true := by
  decide +kernel

theorem test_decode_task_2 : reads
    [(0x10005C806E063, (.boAdd ⟨55, true⟩ (.lit 0x00010005) false)),
     (0xC807DEAC, (.boInit ⟨62, false⟩ (.reg ⟨61, true⟩) true)),
     (0xC88C4045, (.boArr 17 ⟨34, true⟩ false)),
     (0xC807DEAE, (.boWait ⟨62, false⟩ (.reg ⟨61, true⟩) true)),
     (0xCA01FEA0, (.gset 15 (.reg ⟨61, true⟩))),
     (0x40200000CA00C020, (.gset 6 (.lit 0x40200000))),
     (0xCA01E001, (.gclr 15)),
     (0xCC07DEA0, (.digestAdd ⟨62, false⟩ (.reg ⟨61, true⟩))),
     (0xFFFFFFF8CC016060, (.digestAdd ⟨11, true⟩ (.lit 0xFFFFFFF8))),
     (0xFFFFFFF8CCBE4061, (.digestEnd 23 ⟨50, true⟩ (.lit 0xFFFFFFF8)))] = true := by
  decide +kernel

theorem test_decode_engine_1 : reads
    [(0xE1FBC001, (.cpushM 63 ⟨30, false⟩ true)),
     (0xE07A4040, (.cpushM 15 ⟨18, true⟩ false)),
     (0xE1FBC003, (.cpushC 63 ⟨30, false⟩ true)),
     (0xE1FBC005, (.cpushG 63 ⟨30, false⟩ true)),
     (0xE007C006, (.cwaitM ⟨62, false⟩)),
     (0xE007C007, (.cwaitC ⟨62, false⟩)),
     (0xE007C008, (.cwaitG ⟨62, false⟩)),
     (0xE1180009, (.cseqM 35)),
     (0xE190000A, (.cseqC 50)),
     (0xE108000B, (.cseqG 33)),
     (0xE3F81EA0, (.abind 63 (.reg ⟨61, true⟩))),
     (0x10005E2B00020, (.abind 22 (.lit 0x00010005))),
     (0xE2000001, .arel),
     (0xE3F80002, (.skimRow 63)),
     (0xE203DEA3, (.skimEnd 30 (.reg ⟨61, true⟩)))] = true := by
  decide +kernel

/-- What the decoder answers to a word: 0 an instruction, 1 no allocated row, 2 a field outside its limits. -/
def verdict (w : Nat) : Nat := match decode w 0 with | .ok _ => 0 | .error .opcode => 1 | .error (.field _) => 2

/-- No row (00 and 7F of bits 31–25); a length of 0 in BFX, more than 64 bits in BFI, JTAB of length 0, FENCE scope 2 with a register
or scope 6, an unlisted ctl index, GSET of guard 0, type 3 of FADD, a reserved bit of CLZ, an integer to integer
FCVT, a VQNT source of an odd register, a VDQNT destination that is no multiple of 4, and the word beside each that is one. -/
theorem test_decode_rejects :
    [0x00000000, 0xFE000000, 0x10000000, 0x10000001, 0x12000002 + 63 * 64, 0x12000001 + 63 * 64, 0x38000000, 0x38000001,
     0x48002002, 0x48000002, 0x48002003, 0x48000006, 0x4000000C, 0x4000000B, 0xCA000000, 0xCA002000, 0x50000003, 0x50000002,
     0x04000080, 0x52000018 + 5 * 1024 + 3 * 128, 0x64000008 + 32768, 0x64000008 + 4 * 32768, 0x6400000A + 2 * 1048576,
     0x6400000A + 4 * 1048576].map verdict =
    [1, 1, 2, 0, 2, 0, 2, 0, 2, 0, 0, 2, 2, 0, 2, 0, 2, 0, 2, 2, 2, 0, 2, 0] := by decide +kernel

/-! ### Well-formedness: a term that each check refuses -/

/-- Operand b that is the encoding of a literal, in each operand type. -/
theorem test_ill_formed_operand :
    (Instr.add 1 ⟨2, false⟩ (.reg ⟨0, true⟩)).wf = false ∧ (Instr.vaddI32 1 ⟨2, false⟩ (.reg ⟨0, true⟩) 0).wf = false ∧
    (Instr.vins 1 ⟨2, false⟩ (.reg ⟨0, true⟩)).wf = false ∧ (Instr.mset 1 (.reg ⟨0, true⟩)).wf = false ∧
    (Instr.add 1 ⟨2, false⟩ (.reg ⟨0, false⟩)).wf = true := by decide

theorem test_ill_formed_field :
    (Instr.bfx 1 ⟨2, false⟩ 0 0).wf = false ∧ (Instr.bfi 1 ⟨2, false⟩ 63 2).wf = false ∧ (Instr.bfi 1 ⟨2, false⟩ 63 1).wf = true ∧
    (Instr.jtab ⟨2, false⟩ 0).wf = false ∧ (Instr.ctlRd 1 0x00C).wf = false ∧ (Instr.ctlRd 1 0xEFF).wf = false ∧ (Instr.ctlWr ⟨1, false⟩ 0xF00).wf = true ∧
    (Instr.fence ⟨1, false⟩ 2).wf = false ∧ (Instr.fence ⟨0, true⟩ 2).wf = false ∧ (Instr.fence ⟨1, false⟩ 3).wf = true ∧
    (Instr.gset 0 (.lit 1)).wf = false ∧ (Instr.gclr 0).wf = false := by decide

theorem test_ill_formed_conversion :
    (Instr.fcvt 1 ⟨2, false⟩ .n32 .i64).wf = false ∧ (Instr.vcvt 1 ⟨2, false⟩ 0 .n32 .i32).wf = false ∧
    (Instr.vqnt 2 ⟨2, false⟩ (.lit 1) .e4m3).wf = false ∧ (Instr.vqnt 1 ⟨4, false⟩ (.lit 1) .e4m3).wf = false ∧
    (Instr.vqnt 2 ⟨4, false⟩ (.lit 1) .e4m3).wf = true ∧ (Instr.vdqnt 2 ⟨2, false⟩ (.lit 1) .e4m3).wf = false := by decide

theorem test_ill_formed_event :
    (Instr.copy 16384).wf = false ∧ (Instr.dispatch 16).wf = false ∧ (Instr.arrayLeaseGrant 128).wf = false ∧
    (Instr.ringTilePublish 127 16).wf = false ∧ (Instr.crewStallDetach 0 8).wf = false ∧ (Instr.ctlRegisterWrite .wr 0x00C ⟨1, false⟩).wf = false ∧
    (Instr.copy 16383).wf = true := by decide
/-! ### Witnesses: every hypothesis of a statement can be met -/

theorem witness_emptySource :
    sup.role 0 5 = .plain ∧ sup.me.full 5 = true ∧ usr.role 0 63 = .plain ∧
    (with0 { boss with sFull := 0 }).me.full 5 = false ∧ (with0 { boss with vFull := 1 }).me.vFull.getLsbD 31 = false ∧
    ({ srcs := [.s 5 true], dsts := [], lit := false } : Form).srcs = [.s 5 true] := by decide +kernel

theorem witness_channels :
    (chanTo sup 1 0 []).role 0 60 = .reader 0 ∧ (chanTo sup 0 1 []).role 0 60 = .writer 0 ∧
    ((chanTo sup 0 1 [1, 2, 3, 4, 5, 6, 7, 8]).chan 0 0).fifo.length = 8 ∧
    ((chanTo sup 0 1 [1, 2, 3, 4, 5, 6, 7]).chan 0 0).fifo.length < 8 ∧
    ((chanTo sup 0 1 []).chan 0 0).rrel = false ∧ ((chanTo sup 0 1 []).chan 0 0).wAway = false ∧
    ((chanTo sup 0 1 []).chan 0 0).rAway = false ∧ (chanTo sup 0 1 []).me.full 60 = true ∧
    (chanTo sup 0 1 []).role 0 5 = .plain ∧
    (((chanTo sup 0 1 []).modChan 0 0 fun c => { c with rrel := true }).chan 0 0).rrel = true ∧
    ((chanTo sup 0 1 []).modChan 0 0 fun c => { c with rrel := true }).role 0 60 = .writer 0 := by decide +kernel
theorem witness_step :
    (sup.mem.wf = true ∧ sup.feat.getLsbD 0 = true ∧ after (step (code sup 0x3C000000)) (fun t => t.me.pc == 0x1004)) ∧
    ((code sup 0x3C000000).canIssue 0 = true ∧ (code sup 0x3C000000).clear 0 = true ∧
      (code sup 0x3C000000).attached 0 = false ∧ ((code sup 0x3C000000).fetchInstr 0 0x1000).2.1 = .instr .nop) ∧
    ((code sup 0).fetchInstr 0 0x1000).2.1 = .bad 0 .opcode ∧
    ((code sup 0x3C000001).fetchInstr 0 0x1000).2.1 = .bad 0x3C000001 (.field none) ∧
    after (step (code sup 0)) (fun t => t.me.cause == 0x01 && t.me.tval == 0) ∧
    after (step (code sup 0x3C000001)) (fun t => t.me.cause == 0x02 && t.me.tval == 0x3C000001) := by decide +kernel

theorem witness_step_crew :
    let s := pair.modCrew 0 fun c => { c with bufs := [(0, [{ pc := 0x1000, word := 0x3C000000, lit := none, branch := none }])] }
    s.canIssue 0 = true ∧ s.clear 0 = true ∧ s.attached 0 = true ∧ (s.crew (s.crewKey 0)).lock = false ∧
    s.entry 0 = some { pc := 0x1000, word := 0x3C000000, lit := none, branch := none } ∧
    (s.got { pc := 0x1000, word := 0x3C000000, lit := none, branch := none }).2 = .instr .nop ∧ Instr.literal .nop = none ∧
    after (step s) (fun t => t.me.pc == 0x1004 && ((t.crew 0).bufs.getD 0 []).isEmpty) := by decide +kernel

theorem witness_step_event :
    Machine.Instr.spontaneous (.linkUp 0) = true ∧
    after (step { sup with turn := { elapsed := 3, act := .event (.linkUp 0) } }) (fun t => t.now == 3) := by decide +kernel

theorem witness_fetch :
    let s := place sup 0x1038 (toBytes 8 0x1234567802000020)
    s.me.priv ≠ 0 ∧ 0x1038 % 64 + 8 ≤ 64 ∧ s.phys 0x1038 = .dram 10 ∧ s.physPoison 0x1038 = false ∧ s.physPoison 0x103C = false ∧
    s.phys 0x103C = .dram 10 ∧ s.line 0 0x1038 = none ∧ s.farNeeds 0 0 0x1038 0x1038 .window false = none ∧
    s.farNeeds 0 0 0x103C 0x103C .window false = none ∧ (s.codeNear 0).get? (lineKey 0 0x1038) = none ∧ s.olds = [] ∧
    (s.fetchInstr 0 0x1038).2.1 = .instr (.add 0 ⟨0, false⟩ (.lit 0x12345678)) := by decide +kernel

theorem test_first_step :
    after (step (State.reset.withFetchWord 32 0x14280000)) (fun t => (t.slot 13).reg 5 == 0) ∧
    after (step (State.reset.withFetchWord 32 0x14280FFF)) (fun t => (t.slot 13).reg 5 == BitVec.allOnes 64 && (t.slot 13).pc == 4) ∧
    after (step (State.reset.withFetchWord 64 0x4020000002280020)) (fun t => (t.slot 13).reg 5 == 0x40200000 && (t.slot 13).pc == 8) := by
  decide +kernel
/-- A die whose first breakpoint stands armed at 0x1000; HLT as given. -/
def breaking (s : State) (hlt : Bool) : State :=
  s.modDie 0 fun d => { d with dbgbp := d.dbgbp.set 0 (0x8000000000001000 + (if hlt then 0x4000000000000000 else 0)) }

theorem witness_retire :
    Unbroken sup ∧ Unbroken usr ∧ TakesTraps usr ∧ TakesTraps sup ∧ ¬ Unbroken (breaking usr true) ∧
    (usr.die 0).breakAt 0x1000 = none ∧ usr.me.priv = 0 ∧
    ((breaking usr true).die (dieOf 0)).breakAt 0x1000 = some true ∧
    ((breaking usr false).die (dieOf 0)).breakAt 0x1000 = some false := by
  unfold Unbroken TakesTraps; decide +kernel

/-- A skim handler in slot 0. -/
def skimmer : State :=
  with0 { boss with use := .skim, skim := some { owner := 0, bank := 0, row := 0, tag := 0, dest := [] } }

theorem witness_flags_and_skim :
    ((0x01 : BitVec 5) &&& (with0 { user with ten := 0x10 }).me.ten = 0) ∧
    ((0x10 : BitVec 5) &&& (with0 { user with ten := 0x10 }).me.ten ≠ 0) ∧
    after ((with0 { user with ten := 0x10 }).trap 255 7 true) (fun t => t.me.cause == 255 && t.me.estat == 0x10) ∧
    skimmer.cur < 16384 ∧ skimmer.me.use = .skim ∧ skimmer.me.skim.isSome = true := by decide +kernel

theorem witness_integer :
    (∀ i ∈ [Instr.add 5 ⟨2, true⟩ (.reg ⟨3, false⟩), .divI64 63 ⟨2, false⟩ (.lit 0), .lea 0 ⟨63, false⟩ (.reg ⟨0, false⟩) 3],
      (twoSource i).isSome = true) ∧
    sup.gateOf 0 (formR [.s 5] ⟨2, true⟩ (.reg ⟨3, false⟩)) = .go ∧ sup.gateOf 0 (formR [.s 63] ⟨2, false⟩ (.lit 0)) = .go ∧
    (oneSource (.clz 5 ⟨63, true⟩)).isSome = true ∧ Instr.wf (.bfx 5 ⟨2, false⟩ 63 1) = true ∧
    Instr.wf (.bfi 5 ⟨2, false⟩ 0 63) = true ∧ (oneSource (.bfx 5 ⟨2, false⟩ 63 1)).isSome = true ∧
    sup.gateOf 0 (formA [.s 5] ⟨63, true⟩) = .go ∧ sup.gateOf 0 (form0 [.s 63]) = .go ∧
    sup.gateOf 0 { srcs := [.s 2 false, .s 5 false], dsts := [.s 5], lit := true } = .go ∧
    sup.gateOf 0 { srcs := [.s 2 false, .s 3 true, .s 5 false], dsts := [.s 5], lit := false } = .go ∧
    (∀ r : SReg, usr.role 0 r = .plain) ∧
    after (exec (.add 5 ⟨2, true⟩ (.reg ⟨3, false⟩)) sup) (fun t => t.me.reg 5 == 5) := by decide +kernel

theorem witness_control :
    sup.gateOf 0 { srcs := [.s 2 true, .s 3 false], dsts := [], lit := false } = .go ∧
    sup.gateOf 0 (formA [] ⟨4, true⟩) = .go ∧ sup.me.full 1 = true ∧
    (with0 { boss with sFull := 0 }).me.full 1 = false ∧
    (sup.sval (formA [] ⟨4, true⟩) 0).toNat % 4 = 0 ∧ (sup.sval (formA [] ⟨3, true⟩) 0).toNat % 4 ≠ 0 ∧
    (sup.sval (formA [] ⟨2, false⟩) 0) = 7 ∧
    (∀ k, k < 16 → (sup.me.mask 0).getLsbD k = true) ∧ (sup.me.mask 1).getLsbD 0 = false := by decide +kernel

/-- The table of a `jtab` at 0x1000 holds 8 and 6. -/
def jumps : State := place sup 0x1004 (toBytes 8 0x0000000600000008)

theorem witness_jtab :
    (jumps.fetchWord 0 (0x1004 + 4 * 1)).2 = .word 6 ∧ (jumps.fetchWord 0 (0x1004 + 4 * 0)).2 = .word 8 ∧
    (1 : Nat) < (2 : BitVec 12).toNat ∧ (2 : BitVec 12).toNat ≤ (7 : Word).toNat ∧
    after (exec (.jtab ⟨0, false⟩ 2) jumps) (fun t => t.me.pc == 0x100C) ∧
    after (exec (.jtab ⟨2, false⟩ 7) jumps) (fun t => t.me.cause == 0x06 && t.me.tval == 7) := by decide +kernel

theorem witness_system :
    (∀ e ∈ [(0 : BitVec 5), 1], e.extractLsb' 0 2 = 0 ∨ e.extractLsb' 0 2 = 1) ∧
    ((with0 { boss with estat := 9, epc := 0x2000 }).me.estat.extractLsb' 0 2 = 1) ∧
    ((with0 { boss with estat := 3 }).me.estat.extractLsb' 0 2 = 3) ∧ (with0 { boss with estat := 3 }).me.priv ≠ 0 ∧
    (with0 { boss with epc := 0x2002 }).me.epc.toNat % 4 ≠ 0 ∧ usr.me.priv = 0 ∧
    after (exec .eret (with0 { boss with estat := 9, epc := 0x2000 })) (fun t => t.me.pc == 0x2000 && t.me.priv == 1) ∧
    after (exec .eret usr) (fun t => t.me.cause == 0x03) ∧ after (exec (.trap 255) usr) (fun t => t.me.epc == 0x1004) := by
  decide +kernel

/-- A supervisor with 1.5 in s2, a signalling NaN in s3, −0 in s4 and +0 in s5 (FP32), and FP traps for NV. -/
def flt : State :=
  with0 { boss with s := (((boss.s.set 2 0x3FC00000).set 3 0x7F800001).set 4 0x80000000), ten := 0x10 }

theorem witness_float :
    (∀ i ∈ [Instr.fadd 5 ⟨2, true⟩ (.reg ⟨3, false⟩) .f32, .fdiv 5 ⟨2, false⟩ (.lit 0) .bf16, .fcmp 0 ⟨2, false⟩ (.lit 0) .f16],
      (floatTwo i).isSome = true) ∧
    (∀ i ∈ [Instr.fma 5 ⟨2, true⟩ (.reg ⟨3, false⟩) .f32, .fnma 5 ⟨2, false⟩ (.lit 0) .bf16], (floatThree i).isSome = true) ∧
    flt.gateOf 0 (formR [.s 5] ⟨2, true⟩ (.reg ⟨3, false⟩)) = .go ∧ flt.gateOf 0 (formR [.s 5] ⟨2, true⟩ (.lit 0)) = .go ∧
    flt.gateOf 0 { srcs := [.s 2 true, .s 3 false, .s 5 false], dsts := [.s 5], lit := false } = .go ∧
    flt.gateOf 0 { srcs := [.s 2 true, .s 5 false], dsts := [.s 5], lit := true } = .go ∧
    flt.gateOf 0 { srcs := [.s 2 true, .s 5 false], dsts := [.s 5], lit := false } = .go ∧
    flt.gateOf 0 (formA [.s 5] ⟨2, true⟩) = .go ∧ flt.me.full (lreg 31) = true ∧ flt.role 0 (lreg 31) = .plain ∧
    after (exec (.fadd 5 ⟨2, true⟩ (.reg ⟨2, false⟩) .f32) flt) (fun t => t.me.reg 5 == 0x40400000 && t.me.flags == 0) ∧
    after (exec (.fadd 5 ⟨2, true⟩ (.reg ⟨3, false⟩) .f32) flt) (fun t => t.me.cause == 0x20 && t.me.reg 5 == 0x7FC00000) := by
  decide +kernel

theorem witness_float_compare :
    let F := Fp.fmt .f32
    ¬ (nan F 0x80000000 ∨ nan F 0) ∧ key F 0x80000000 = key F 0 ∧ key F 0 < key F 0x3FC00000 ∧ nan F 0x7F800001 ∧
    snan F 0x7F800001 ∧ ¬ snan F 0x7FC00000 ∧ nan F 0x7FC00000 ∧ ¬ nan F 0x7F800000 ∧
    (F.val 0x7F800001).isNan = true ∧ (F.val 0xFF800000).isNan = false ∧ 0xFFFFFFFF < 2 ^ F.width := by
  unfold snan Claims.nan; decide +kernel

theorem witness_vector :
    Steady sup ∧ Steady skimmer ∧ (laneInt (.vaddI32 31 ⟨1, true⟩ (.lit 5) 0)).isSome = true ∧
    sup.gateOf 0 (formV [.v 31] ⟨1, true⟩ (.lit 5)) = .go ∧ sup.gateOf 0 (formV [.v 31] ⟨1, true⟩ (.reg ⟨2, false⟩)) = .go ∧
    (laneTwo (.vaddFp 31 ⟨1, true⟩ (.lit 5) 0 .bf16)).isSome = true ∧ (laneOne (.vexp2 31 ⟨1, true⟩ 7 .f16)).isSome = true ∧
    (laneCb (.vaddCb 31 1 0 .bf16 255)).isSome = true ∧
    sup.gateOf 0 { srcs := [.v 1 true], dsts := [.v 31], lit := false } = .go ∧ sup.me.vFull = BitVec.allOnes 32 ∧
    after (exec (.vaddI32 31 ⟨1, true⟩ (.lit 5) 0) sup) (fun t => lane t.me.v[(31 : Fin 32)] 15 == 5) := by
  refine ⟨Or.inl ?_, Or.inr ⟨Or.inl ?_, ?_⟩, ?_⟩
  · unfold TakesTraps; decide +kernel
  · decide +kernel
  · decide +kernel
  · decide +kernel
theorem witness_lanes :
    let s := with0 { boss with m := (boss.m.set 1 0x8000).set 2 0xC000, v := boss.v.set 1 (BitVec.allOnes 512) }
    s.me.vFull = BitVec.allOnes 32 ∧ s.me.sFull = BitVec.allOnes 64 ∧ s.me.mask 3 = 0 ∧ s.me.mask 1 = BitVec.twoPow 16 15 ∧
    s.me.mask 2 = BitVec.twoPow 16 (2 * 7) ||| BitVec.twoPow 16 (2 * 7 + 1) ∧ s.feat.getLsbD 2 = true ∧
    ({ s with feat := 1 } : State).feat.getLsbD 2 = false ∧ (28 : Fin 32).val % 4 = 0 ∧ (30 : Fin 32).val % 2 = 0 ∧
    (∀ r, s.role 0 r = .plain) ∧ (s.me.mask 1).getLsbD 15 = true ∧ (∀ j, j < 15 → (s.me.mask 1).getLsbD j = false) ∧
    s.gateOf 0 { srcs := [.v 1 false], dsts := [.v 2], lit := false } = .go ∧
    after (exec (.vredsum 5 ⟨1, false⟩ 2 .i32) s) (fun t => t.me.reg 5 == BitVec.allOnes 64 - 1) ∧
    after (exec (.vredmax 5 ⟨1, false⟩ 3 .f32) s) (fun t => t.me.reg 5 == 0xFF800000) ∧
    after (exec (.mfirst 5 1) s) (fun t => t.me.reg 5 == 15) ∧
    after (exec (.vqnt 30 ⟨28, false⟩ (.reg ⟨2, false⟩) .e5m2) s) (fun t => t.me.vFull.getLsbD 31) := by decide +kernel

/-- FP32 1.5 in s2, converted to an integer, to FP16, to FP32 (an integral value) and from an integer (R155, RNE). -/
theorem witness_float_conversion :
    kindFp .f32 = some .f32 ∧ kindFp .f16 = some .f16 ∧ kindInt .i32 = some (true, 32) ∧ CvtKind.f16 ≠ .f32 ∧
    after (exec (.fcvt 5 ⟨2, true⟩ .i32 .f32) flt) (fun t => t.me.reg 5 == 2 && t.me.flags == 1) ∧
    after (exec (.fcvt 5 ⟨2, true⟩ .f16 .f32) flt) (fun t => t.me.reg 5 == 0x3E00 && t.me.flags == 0) ∧
    after (exec (.fcvt 5 ⟨2, true⟩ .f32 .f32) flt) (fun t => t.me.reg 5 == 0x40000000) ∧
    after (exec (.fcvt 5 ⟨2, true⟩ .f32 .i32) (wr 3)) (fun t => t.me.reg 5 == 0x40400000) ∧
    after (exec (.fminCb 5 ⟨4, true⟩ .f32 0) flt) (fun t => t.me.reg 5 == 0x80000000) ∧
    ((0 : Nat) < 1 ∧ (1 : Nat) < 2 ^ ((Fp.fmt .f16).eb - 1) - 1) := by decide +kernel

/-- A slot with 3 in lane 0 of v1, −1 in lane 1, a signalling NaN in lane 2 and a code 2 in its first byte's second pair. -/
def lanes : State :=
  { with0 { boss with v := boss.v.set 1 (BitVec.ofNat 512 (3 + 0xFFFFFFFF * 2 ^ 32 + 0x7F800001 * 2 ^ 64)),
                      m := (((boss.m.set 1 3).set 2 7).set 3 0x400) } with feat := 7 }

theorem witness_lane_results :
    redNode (combine .sum .i32 lanes.rm) (lanes.me.mask 1) (lane lanes.me.v[(1 : VReg)]) 4 0 = some (2, 0) ∧
    redNode (combine .max .n32 lanes.rm) (lanes.me.mask 1) (lane lanes.me.v[(1 : VReg)]) 4 0 = some (0xFFFFFFFF, 0) ∧
    cmpFmt .f32 = some Fp.f32 ∧ (lanes.me.mask 2).getLsbD 2 = true ∧ (lanes.me.mask 1).getLsbD 2 = false ∧
    snan Fp.f32 (0x7F800001 % 2 ^ Fp.f32.width) ∧
    after (exec (.vcmp 4 ⟨1, true⟩ (.lit 3) 2 .f32 .eq) lanes) (fun t => t.me.mask 4 == 1 && t.me.flags == 0x10) ∧
    after (exec (.vcmp 4 ⟨1, true⟩ (.lit 3) 1 .i32 .ge) lanes) (fun t => t.me.mask 4 == 1 && t.me.flags == 0) ∧
    (lanes.me.mask 3).getLsbD (43 / 4) = true ∧ (lanes.me.v[(1 : VReg)].extractLsb' (2 * 43) 2).toNat = 2 ∧
    after (exec (.vdottT2 5 ⟨1, true⟩ (.lit 1) 3) lanes) (fun t => t.me.flags == 0x10) := by
  refine ⟨?_, ?_, ?_, ?_, ?_, ?_, ?_, ?_, ?_, ?_, ?_⟩ <;> decide +kernel

theorem witness_ctl_read :
    sup.me.full 63 = true ∧ sup.role 0 63 = .plain ∧ sup.cur < 16384 ∧ taskReads 0x00B = true ∧ taskReads 0x353 = true ∧
    sup.me.priv ≠ 0 ∧ ctlIndexOk 0x383 = true ∧ (0x383 : BitVec 12).toNat < 0xF00 ∧
    after (exec (.ctlRd 63 0x302) sup) (fun t => t.me.reg 63 == 1) ∧ after (exec (.ctlRd 0 0x00B) usr) (fun t => t.me.pc == 0x1004) := by
  decide +kernel

theorem witness_ctl_checks :
    ctlIndexOk 0x00C = false ∧ ctlIndexOk 0x384 = false ∧ ctlIndexOk 0xEFF = false ∧ 0xF00 ≤ (0xFFF : BitVec 12).toNat ∧
    ctlIndexOk 0x010 = true ∧ taskReads 0x010 = false ∧ usr.me.priv = 0 ∧ sup.me.priv ≠ 0 ∧ Readable sup ⟨2, true⟩ ∧
    (∀ c ∈ [0x010, 0x011, 0x301, 0x305, 0x361], writeOneToClear c = true) ∧ (∀ c ∈ [0x000, 0x00B, 0x302], readOnly c = true) := by
  unfold Readable; decide +kernel

theorem witness_ctl_bad :
    Readable (wr 5) ⟨2, false⟩ ∧ 5 ≤ ((5 : Word).extractLsb' 0 3).toNat ∧ 20 < ((21 : Word).extractLsb' 0 5).toNat ∧
    ((0x0F00 : Word).extractLsb' 8 5).toNat < 16 ∧ 24 < ((0x1900 : Word).extractLsb' 8 5).toNat ∧
    64 < ((0x8200000000001000 : Word).extractLsb' 57 7).toNat ∧
    ((0x8000000040000000 : Word).getLsbD 63 = true ∧ ((0x8000000040000000 : Word).extractLsb' 30 2).toNat < 2) ∧
    4 < ((0x5000000000000000 : Word).extractLsb' 60 3).toNat ∧ 0x0A < ((0x0B00000000000000 : Word).extractLsb' 56 8).toNat ∧
    2 ^ ((sup.die 0).migq.extractLsb' 0 4).toNat ≤ ((1 : Word).extractLsb' 0 16).toNat ∧
    ((0x3000000000000001 : Word).extractLsb' 60 2).toNat = 3 ∧ ((0 : Word).extractLsb' 0 12).toNat = 0 ∧
    (((sup.die 0).fqTail - (sup.die 0).fqHead).toNat < ((1 : Word).extractLsb' 0 16 - (sup.die 0).fqHead).toNat) ∧
    after (exec (.ctlWr ⟨2, false⟩ 0x312) (wr 5)) (fun t => t.me.cause == 0x02) ∧
    after (exec (.ctlWr ⟨2, false⟩ 0x310) (wr 21)) (fun t => t.me.cause == 0x02) ∧
    after (exec (.ctlWr ⟨2, false⟩ 0x333) (wr 0)) (fun t => t.me.cause == 0x02) := by unfold Readable; decide +kernel

theorem witness_ctl_own :
    sup.storesDone = true ∧ sup.walks = [] ∧ sup.names = [] ∧ ((4 : Word).extractLsb' 0 3).toNat = 4 ∧
    ((1 : Word).extractLsb' 0 12).toNat ≠ 0 ∧ ((0x1000000000000FFF : Word).extractLsb' 0 12).toNat ≠ 0 ∧
    (0x1000000000000FFF : Word).getLsbD 62 = false ∧
    ((0x1000000000000FFF : Word).extractLsb' 60 2).toNat = 1 ∧ ((0x2000000000000000 : Word).extractLsb' 60 2).toNat = 2 ∧
    (0x2000000000000001 : Word).getLsbD 61 = true ∧ (1 : Word).getLsbD 61 = false := by decide +kernel

theorem witness_ctl_own_more :
    sup.merge 128 1 0 = none ∧ (sup.die 0).vpurge.getLsbD 63 = false ∧
    ((0 : Word).extractLsb' 0 16).toNat < 2 ^ ((sup.die 0).migq.extractLsb' 0 4).toNat ∧
    (((0 : Word).extractLsb' 0 16 - (sup.die 0).fqHead).toNat ≤ ((sup.die 0).fqTail - (sup.die 0).fqHead).toNat) ∧
    after (exec (.fpcsrWrite .wr ⟨2, false⟩) (wr 0x1FFC)) (fun t => t.me.rm == 4 && t.me.flags == 31 && t.me.ten == 31) ∧
    after (exec (.secpolWrite .wr ⟨2, false⟩) (wr 2)) (fun t => t.pol == 2) ∧
    after (exec (.tlbinvAll .wr ⟨2, false⟩) (wr 0x2000000000000000)) (fun t => t.me.pc == 0x1004) ∧
    after (exec (.vpurgeStart .wr ⟨2, false⟩) (wr 0xFFF)) (fun t => (t.die 0).vpurge.getLsbD 63) := by decide +kernel

theorem witness_ctl_waits :
    let a : Access := { id := 1, kind := .store false false, asid := 1, user := true, hint := .dflt, sp := false,
                        parts := [{ va := 64, size := 8, lane := 0, data := 1, st := .todo, acks := [] }], dst := .none,
                        since := 0, reported := false }
    let s := with0 { boss with s := boss.s.set 2 0x2000000000000000, accs := [a] }
    s.storesDone = false ∧ ((s.me.reg 2).extractLsb' 60 2).toNat = 2 ∧
    after (exec (.tlbinvAll .wr ⟨2, false⟩) s) (fun t => t.me.pc == 0x1000 && t.me.wait == .invalidate) := by decide +kernel

/-- A task of a crew that stands in the pool's only block. -/
def parked : State :=
  let v : Saved := { x := user, pos := 5, tiles := [], held := false, mates := [], bank := false, fault := none, waits := none, fates := [] }
  ({ wr 0x10000 with saved := [(0x10000, v)] }.modDie 0 fun d => { d with cbpool := 0x11000 }).putPhys 0x10020 [2]

theorem witness_resume :
    (parked.die 0).inPool 0x10000 = true ∧ parked.physNum (0x10000 + 0x20) 1 % 16 = 2 ∧
    (parked.saved.get? 0x10000).isSome = true ∧
    after (exec (.resumeRequest .wr ⟨2, false⟩) parked) (fun t => (t.die 0).resume == 0x10000 && t.recs.length == 1) := by
  decide +kernel

theorem witness_debug_copy :
    (∀ x ∈ [((0 : Word), 0, 3), (0x1000000000000000, 1, 2047), (0x2000000000000000, 2, 0), (0x3000000000000000, 3, 0), (0x4000000000000000, 4, 7)],
      (x.1.extractLsb' 60 3).toNat = x.2.1) ∧
    sup.bankQuiet 15 3 = true ∧ sup.lines = [] ∧ sup.mail.getD 7 [] = [] ∧ (∀ k, k < 128 → sup.phys (0x5000 + k) = .dram 10) ∧
    after (exec (.dbgcopyMailbox .wr ⟨2, false⟩) (wr 0x4000000000005007)) (fun t => t.me.pc == 0x1004) := by decide +kernel

/-- A supervisor with a directory entry, an overflowed record, a used pool, a fault-queue entry and operations of its die under way. -/
def owning (w : Word) : State :=
  { asking (req .wait .queued) (name5 []) with saved := [(0x20000, { x := user, pos := 0, tiles := [], held := false, mates := [], bank := false, fault := none, waits := none, fates := [] })] }.modDie 0
    (fun d => { d with fqTail := 1, pres := 2 ^ 63, dbgctl := 2 ^ 63, vpurge := 2 ^ 63, pan := [{ rec5 with spill := some (0, 0) }] }) |> fun s => s2 s w

theorem witness_ctl_writes :
    let o := owning 0x1400
    given .wr ⟨2, false⟩ 0x303 (wr 7) = 7 ∧ given .set ⟨2, false⟩ 0x300 (wr 7) = 0x01000007 ∧ given .clr ⟨2, false⟩ 0x300 (wr 0x01000000) = 0 ∧
    (∃ e ∈ o.names, e.2.die = 0) ∧ ¬ (∃ e ∈ sup.names, e.2.die = 0) ∧ (∃ r ∈ (o.die 0).pan, r.spill ≠ none) ∧ (∀ r ∈ (sup.die 0).pan, r.spill = none) ∧
    sup.poolUsed 0 = false ∧ (o.die 0).pres.getLsbD 63 = true ∧ (o.die 0).fqTail ≠ (o.die 0).fqHead ∧ (sup.die 0).fqTail = (sup.die 0).fqHead ∧
    (o.die 0).dbgctl.getLsbD 63 = true ∧ (sup.die 0).dbgctl.getLsbD 63 = false ∧ (o.die 0).vpurge.getLsbD 63 = true ∧
    ((0x1400 : Word).extractLsb' 0 5).toNat ≤ 20 ∧ 16 ≤ ((0x1400 : Word).extractLsb' 8 5).toNat ∧
    (0 * 2048 + ((0x1000000000000004 : Word).extractLsb' 2 11).toNat ≠ sup.cur ∧ (0 * 2048 + ((0x1000000000000004 : Word).extractLsb' 2 11).toNat) % 16 ≠ 15) ∧
    (0 * 2048 + ((0x1000000000000000 : Word).extractLsb' 2 11).toNat = sup.cur) ∧
    after (exec (.ctlSet ⟨2, false⟩ 0x300) (wr 7)) (fun t => (t.die 0).wdog == 0x01000007) ∧
    after (exec (.ctlClr ⟨2, false⟩ 0x300) (wr 0x01000000)) (fun t => (t.die 0).wdog == 0) ∧
    after (exec (.ctlWr ⟨2, false⟩ 0x303) (wr 7)) (fun t => (t.die 0).tvec == 4) ∧
    after (exec (.ctlWr ⟨2, false⟩ 0x310) (wr 4)) (fun t => (t.die 0).vdir == 4) ∧ after (exec (.ctlWr ⟨2, false⟩ 0x310) (owning 4)) (fun t => (t.die 0).vdir == 0) ∧
    after (exec (.ctlWr ⟨2, false⟩ 0x320) (wr 4)) (fun t => (t.die 0).panovf == 4) ∧ after (exec (.ctlWr ⟨2, false⟩ 0x320) (owning 4)) (fun t => (t.die 0).panovf == 0) ∧
    after (exec (.ctlWr ⟨2, false⟩ 0x321) (wr 0x1400)) (fun t => (t.die 0).cbpool == 0x1400) ∧
    after (exec (.ctlWr ⟨2, false⟩ 0x322) (wr 0x40)) (fun t => (t.die 0).preempt == 0x40 && (t.die 0).pres == 2 ^ 63) ∧
    after (exec (.ctlWr ⟨2, false⟩ 0x322) o) (fun t => t.me.pc == 0x1000) ∧
    after (exec (.ctlWr ⟨2, false⟩ 0x331) (wr 0x4004)) (fun t => (t.die 0).fq == 0x4004) ∧ after (exec (.ctlWr ⟨2, false⟩ 0x331) (owning 0x4004)) (fun t => (t.die 0).fq == 0) ∧
    after (exec (.ctlWr ⟨2, false⟩ 0x370) (wr 0x1000000000000004)) (fun t => (t.die 0).dbgctl == 0x9000000000000004) ∧
    after (exec (.ctlWr ⟨2, false⟩ 0x370) (wr 0x1000000000000000)) (fun t => (t.die 0).dbgctl == 0x1200000000000000) ∧
    after (exec (.ctlWr ⟨2, false⟩ 0x370) o) (fun t => t.me.pc == 0x1000) := by decide +kernel

theorem witness_ctl_own_again :
    let a : Access := { one (.atomic (.fadd 0) 0) 4 1 .none with sp := false }
    let r := with0 { boss with s := boss.s.set 2 8, accs := [a] }
    let fl : State := { s2 (under (one .clear 8 0 .none) line7) 0x6000000000000000 with slots := [(0, { boss with s := boss.s.set 2 0x6000000000000000 })], lines := [(lineKey 1 0x2000, line7)] }
    r.me.accs.any Access.raises = true ∧ sup.me.accs.any Access.raises = false ∧ fl.walks = [] ∧ fl.storesDone = true ∧
    fl.flushBusy (rangeOf 0x6000000000000000) = false ∧ (0x6000000000000000 : Word).getLsbD 62 = true ∧
    (parked.die 0).inPool (0x10000 &&& 0x00FFFFFFFFFFFFC0 : Word).toNat = true ∧
    after (exec (.fpcsrWrite .wr ⟨2, false⟩) r) (fun t => t.me.pc == 0x1000 && t.me.flags == 0) ∧
    after (exec (.fpcsrWrite .set ⟨2, false⟩) (wr 8)) (fun t => t.me.flags == 1) ∧
    after (exec (.tlbinvAll .wr ⟨2, false⟩) fl) (fun t => t.lines.isEmpty && t.me.pc == 0x1004) ∧
    after (exec (.vpurgeStart .wr ⟨2, false⟩) (owning 1)) (fun t => t.me.pc == 0x1000) := by decide +kernel

theorem witness_ctl_reads :
    let c : State := chanTo sup 0 1 [3, 4]
    (∀ n, ((c.chan 0 n).fifo.length ≤ 8)) ∧ (c.chan 0 0).en = true ∧ (c.chan 0 1).en = false ∧ pair.me.crew = true ∧ sup.me.crew = false ∧
    after (exec (.ctlRd 5 0x008) c) (fun t => t.me.reg 5 == 1 + 1 * 2 ^ 5 + 2 * 2 ^ 9) ∧
    after (exec (.ctlRd 5 0x110) pair) (fun t => t.me.reg 5 == 0x0303) ∧
    after (exec (.ctlRd 5 0x340) sup) (fun t => t.me.reg 5 == 0xFFFF) ∧
    after (exec (.ctlRd 5 0x200) ((sup.modSlot 127 fun x => { x with flags := 4 }).modSlot 128 fun x => { x with flags := 2 })) (fun t => t.me.reg 5 == 4) ∧
    after (exec (.ctlWr ⟨2, false⟩ 0x00B) usr) (fun t => t.me.pc == 0x1004) := by decide +kernel

theorem witness_access_issue :
    let i := Instr.ldI32 5 ⟨4, true⟩ .by 0x3FF
    let v := Instr.vst 31 ⟨0, false⟩ .dflt 1
    let m := Instr.amoCas 5 ⟨0, false⟩ (.lit 9) true
    (Claims.issue i sup).isSome = true ∧ sup.gateOf 0 (loadIssue 4 true 5 ⟨4, true⟩ .by 0x3FF sup).form = .go ∧
    (loadIssue 4 true 5 ⟨4, true⟩ .by 0x3FF sup).addr = 0x1000 ∧ (Claims.issue v sup).isSome = true ∧
    (Claims.issue m sup).isSome = true ∧ sup.me.asid = 0 ∧ sup.outstanding 0 < 32 ∧
    sup.gateOf 0 (amoIssue .cas false (some 5) (some 5) (some 0x21) ⟨0, false⟩ (.lit 9) true sup).form = .go ∧
    after (exec i sup) (fun t => t.me.accs.length == 1 && !t.me.full 5 && t.me.pc == 0x1004) ∧
    after (exec v sup) (fun t => t.me.accs.length == 1) ∧ after (exec m sup) (fun t => t.me.pc == 0x1008) := by decide +kernel

/-- A slot with as many outstanding accesses as it may have. -/
def busy : State := with0 { boss with accs := List.replicate 32 (one (.load false false) 8 0 .none) }

theorem witness_access_checks :
    (with0 { boss with det := true }).me.det = true ∧ usr.me.asid ≠ 0 ∧ usr.ctx (dieOf 0) 1 = .invalid ∧
    ({ usr.modDie 0 fun d => { d with asctx := 64 } with memPoison := [(2, true)] } : State).ctx 0 1 = .poisoned ∧
    2 ^ 56 ≤ ((s2 sup 0x0100000000000000).me.reg 2).toNat ∧ busy.outstanding 0 = 32 ∧
    after (exec (.ldI64 5 ⟨2, false⟩ .dflt 0) (s2 sup 0x0100000000000000)) (fun t => t.me.cause == 0x43) ∧
    after (exec (.ldI64 5 ⟨2, false⟩ .dflt 0) (s2 sup 7)) (fun t => t.me.cause == 0x44 && t.me.tval == 7) ∧
    after (exec (.ldI64 5 ⟨0, false⟩ .dflt 0) usr) (fun t => t.me.cause == 0x46) ∧
    after (exec (.amoAdd 5 ⟨0, false⟩ (.lit 1) true) (with0 { boss with det := true })) (fun t => t.me.cause == 0x21) ∧
    after (exec (.ldI64 5 ⟨0, false⟩ .dflt 0) busy) (fun t => t.me.pc == 0x1000 && t.me.full 5) := by decide +kernel

theorem witness_lane_access :
    let q : Form := { srcs := lref ⟨31, true⟩ :: brefV (.lit 5), dsts := [.fillV 1], lit := true }
    let qs : Form := { srcs := lref ⟨31, true⟩ :: brefV (.reg ⟨2, false⟩) ++ [.v 1 false], dsts := [], lit := false }
    sup.gateOf 0 q = .go ∧ sup.gateOf 0 qs = .go ∧ (sup.sval q 0).toNat % 4 = 0 ∧
    (∀ i, i < 16 → (sup.sval q 0 + 4 * (vlane sup (.lit 5) i).zeroExtend 64).toNat = 20) ∧
    after (exec (.vgather 1 ⟨31, true⟩ (.lit 5) 0 false) sup) (fun t => t.me.pc == 0x1008 && t.me.accs.length == 1) ∧
    sup.gateOf 0 (formR [] ⟨0, false⟩ (.lit 4096)) = .go ∧
    after (exec (.clrfe ⟨0, false⟩ (.lit 4096) true) sup) (fun t => (t.me.accs.map fun a => a.parts.length) == [64]) ∧
    after (exec (.vscatter 1 ⟨31, true⟩ (.reg ⟨2, false⟩) 0 false) sup) (fun t => t.me.pc == 0x1004) := by decide +kernel

theorem witness_scratch :
    (0x7FFFC0 : Word).toNat < 2 ^ 23 ∧ (0x7FFFC0 : Word).toNat % 64 = 0 ∧ (0x7FFFF8 : Word).toNat < 2 ^ 23 ∧
    (sup.cluster 0).retired.contains 2047 = false ∧ sup.gateOf 0 (formA [.fillS 5] ⟨2, true⟩) = .go ∧
    sup.gateOf 0 { srcs := [.s 2 true, .v 5 false], dsts := [], lit := false } = .go ∧ (sup.cluster 0).locked 2047 = false ∧
    ((sup.modCluster 0 fun c => { c with locks := [2047] }).cluster 0).locked 2047 = true ∧
    ((sup.modCluster 0 fun c => { c with retired := [2047] }).cluster 0).retired.contains 2047 = true ∧
    2 ^ 23 ≤ (0x800000 : Word).toNat ∧ (0x7FFFFC : Word).toNat % Size.b8.bytes ≠ 0 ∧
    after (exec (.stSp 3 ⟨2, false⟩ .b8 0) (s2 sup 0x7FFFF8)) (fun t => spByte t 0x7FFFF8 == 0xFE && spByte t 0x7FFFFF == 0xFF) ∧
    after (exec (.ldSp 5 ⟨2, false⟩ .b8 0) (s2 sup 0x800000)) (fun t => t.me.cause == 0x43 && t.me.tval == 0x800000) ∧
    after (exec (.stfill ⟨0, false⟩ (.lit 9) false false) (sup.modCluster 0 fun c => c.emptyWord 0))
      (fun t => (t.cluster 0).full 0 && (t.cluster 0).spWord 0 == 9) := by decide +kernel

theorem witness_prefetch_drain :
    let s := with0 { boss with wait := .drain [(9, 1)] }
    sup.gateOf 0 (formA [] ⟨2, true⟩) = .go ∧ sup.me.wait = .none ∧ sup.saved = [] ∧
    (∀ k, k < 16 → ((sup.slot k).engine .c).queue = []) ∧ (s.me.wait = .drain [(9, 1)] ∧ s.cmdEnded 9 1 = true) ∧
    (({ s.modMe fun x => { x with tid := 9, eng := x.eng.set 1 { Eng.init with p := 1, queue := [cmd []] } } with tick := 0 } : State).cmdEnded 9 1 = false) ∧
    (under (one (.load false false) 8 0 .none) line7).line 0 0x2000 = some line7 ∧
    after (exec (.drain .mem) s) (fun t => t.me.wait == .none && t.me.pc == 0x1004) ∧
    after (exec (.prefSk ⟨2, false⟩) (s2 (under (one (.load false false) 8 0 .none) line7) 0x2000))
      (fun t => (t.line 0 0x2000).any fun l => l.ret == 2) := by decide +kernel

theorem witness_load_fill :
    let a := one (.load false false) 8 0 (.s 5 true 8)
    let s := under a line7
    s.tiles.get? 1 = none ∧ s.acc 0 1 = some a ∧ s.role 0 5 = .plain ∧ (a.parts.all fun x => s.ordered 0 a x) = true ∧
    s.line 0 0x2038 = some line7 ∧ s.handing line7.frame = false ∧ line7.attr.allows a.need = true ∧ line7.seenBy (dieOf 0) = some line7.cur ∧
    after (exec (.fillLand 0 1 0) s) (fun t => t.me.reg 5 == 0x8787878787878787 && t.me.full 5 && t.me.accs.isEmpty) := by
  decide +kernel

/-- The line of `line7`, held for write by die 0. -/
def owned : Line := { line7 with owner := some 0 }

theorem witness_slice_write :
    let st := under (one (.store false false) 8 0x0102030405060708 .none) owned
    let shared := under (one (.store false false) 8 1 .none) { owned with l1 := [5, 200] }
    let am := under (one (.atomic .add 0) 4 1 (.s 5 true 4)) owned
    owned.writable (dieOf 0) = true ∧ st.handing owned.frame = false ∧ st.locked 0 0x2038 = false ∧ (owned.l1.filter fun c => c != 0 / 16 && c / 128 == 0 / 2048) = [] ∧
    (([5, 200] : List Nat).filter fun c => c != 0 / 16 && c / 128 == 0 / 2048) = [5] ∧ 0x2038 % 64 + 8 ≤ owned.cur.length ∧
    (st.slot 0).accs.all (fun a => a.parts.all fun x => st.ordered 0 a x && owned.attr.allows a.need) ∧
    after (exec (.sliceWrite 0 1 0) st) (fun t => (t.line 0 0x2000).any fun l => l.cur.getD 56 0 == 8 && l.cur.getD 63 0 == 1 && l.dirty) ∧
    after (exec (.sliceWrite 0 1 0) shared) (fun t => (t.line 0 0x2000).any fun l => l.cur == line7.cur && (l.upd.any fun u => u.wait == [5])) ∧
    after (exec (.sliceWrite 0 1 0) am) (fun t => (t.line 0 0x2000).any fun l => l.cur.getD 56 0 == 0x88) ∧
    after (exec (.sliceWrite 0 1 0) (under (one .clear 8 0 .none) owned)) (fun t => (t.line 0 0x2000).any fun l => l.empties == [14, 15]) := by
  decide +kernel
theorem witness_line_steps :
    let u : Update := { off := 8, data := [1, 2], slot := 0, id := 1, part := 0, wait := [5], fill := false }
    let s := under (one (.load false false) 8 0 .none) { line7 with present := [1] }
    let w := under (one (.store false false) 8 0 .none) { line7 with present := [1] }
    let st : Line := { line7 with stale := [(3, List.replicate 64 0)] }
    (u.off + u.data.length ≤ line7.cur.length ∧ (5 ∈ u.wait) ∧ u.wait.filter (· != 5) = [] ∧ [5, 6].filter (· != 5) ≠ []) ∧
    s.wanted 0 0x80 false = true ∧ w.wanted 0 0x80 true = true ∧ s.locked 0 0x2000 = false ∧ w.hasMode 0x2000 true = true ∧
    st.stale.has 3 = true ∧ (∃ e, sup.phys 0x2000 = .dram e) ∧ sup.pages.get? (0x2000 / 2 ^ 16) = none ∧
    after (exec (.sharerUpdateAck 0x80 5) (under (one .clear 8 0 .none) { line7 with upd := some u })) (fun t => (t.line 0 0x2000).any fun l => l.upd == none && l.cur.getD 9 0 == 2) ∧
    after (exec (.directoryRequest 0 0x80 false) s) (fun t => (t.line 0 0x2000).any fun l => l.present.contains 0) ∧
    after (exec (.directoryRequest 0 0x80 true) w) (fun t => (t.line 0 0x2000).any fun l => l.owner == some 0 && l.stale.has 1) ∧
    after (exec (.invalidateAck 3 0x80) (under (one .clear 8 0 .none) st)) (fun t => (t.line 0 0x2000).any fun l => l.stale.isEmpty) ∧
    after (exec (.l2Eviction 0 0x80) (under (one .clear 8 0 .none) line7)) (fun t => (t.line 0 0x2000).any fun l => l.present.isEmpty) ∧
    after (exec (.l2Eviction 8 0x80) (under (one .clear 8 0 .none) { line7 with present := [], dirty := true })) (fun t => t.lines.isEmpty && t.mem.byte 0x203F == 0x87) := by
  refine ⟨by decide +kernel, by decide +kernel, by decide +kernel, by decide +kernel, by decide +kernel, by decide +kernel, ⟨10, by decide +kernel⟩, ?_⟩
  decide +kernel

/-- A store of slot 0 in address space 1, past its checks. -/
def missing (h : Hint) : State :=
  world (with0 { user with accs := [{ one (.store false false) 8 9 .none with asid := 1, user := true, hint := h }] })

theorem witness_miss :
    let e : TlbEntry := { mdie := 11, asid := 1, page := 0, log2 := 0, frame := 0x20000, attr := pteAttr 0x1F }
    let s : State := { missing .by with tlb := [e] }
    let far : Line := { line7 with frame := 0x22000, present := [1], dirty := true }
    let r : State := { s with lines := [(lineKey 1 0x2038, far)] }
    s.l2Room 0 (lineKey 1 0x2038) = true ∧ s.l3Room 0x2038 = true ∧ r.line 1 0x2038 = some far ∧ far.seenBy 0 = none ∧ far.stale = [] ∧
    after (exec (.l3MissTranslate 0 1 0) r) (fun t => t.lines.isEmpty && t.mem.byte 0x22038 == 0x87) ∧
    s.line 1 0x2038 = none ∧ s.xlateTlb 1 0x2038 = .ok 0x22038 (pteAttr 0x1F) ∧ s.phys 0x22038 = .dram 10 ∧
    s.farNeeds 0 1 0x2038 0x22038 (pteAttr 0x1F) true = none ∧ (s.slot 0).accs.all (fun a => (pteAttr 0x1F).allows a.need && a.parts.all fun x => s.ordered 0 a x) ∧
    s.lostMem 0x22038 = false ∧ s.locked 1 0x2038 = false ∧ (missing .dflt).xlateTlb 1 0x2038 = .miss ∧
    (missing .dflt).walkOf ((missing .dflt).transDie 1 0) 1 0 = none ∧
    after (exec (.l3MissTranslate 0 1 0) s) (fun t => t.mem.byte 0x22038 == 9 && t.lines.isEmpty) ∧
    after (exec (.l3MissTranslate 0 1 0) { missing .dflt with tlb := [e] }) (fun t => (t.line 1 0x2038).any fun l => l.frame == 0x22000) ∧
    after (exec (.l3MissTranslate 0 1 0) (missing .dflt)) (fun t => t.walks.length == 1) := by decide +kernel

/-- A walk of page 0 of address space 1, in the mailbox of core 1 of die 0 or still at its TLB. -/
def walking (box : Option Nat) (answer : Option WalkAnswer) (inc : BitVec 16) : State :=
  let w : Walk := { mdie := 11, inc := inc, asid := 1, page := 0, cd := 0, box := box, answer := answer }
  { world (with0 boss) with walks := [(2, w)], mail := match box with | some c => [(c, [2])] | none => [] }

theorem witness_walks :
    (walking none none 1).mailbox 0 1 0 = some 1 ∧ (walking (some 1) none 1).mail.getD 1 [] = [2] ∧
    (((walking (some 1) none 1).modSlot 31 fun x => { x with use := .rake }).slot (1 * 16 + 15)).use = .rake ∧
    ((walking none none 1).die 11).incarn = 1 ∧
    after (exec (.mailboxSpacePost 2) (walking none none 1)) (fun t => t.mail.getD 1 [] == [2]) ∧
    after (exec (.rakeWalk 1) ((walking (some 1) none 1).modSlot 31 fun x => { x with use := .rake }))
      (fun t => ((t.walks.get? 2).bind (·.answer)) == some (.leaf 0 0 0x20000 (pteAttr 0x1F))) ∧
    after (exec (.walkAnswer 2) (walking none (some (.leaf 0 0 0x20000 (pteAttr 0x1F))) 1)) (fun t => t.tlb.length == 1) ∧
    after (exec (.walkAnswer 2) (walking none (some .notPresent) 7)) (fun t => t.tlb.isEmpty && (t.die 11).stale == 1) := by
  decide +kernel

theorem witness_walk_result :
    let s := world sup
    s.ctx 0 1 = .ok 0x20000 0x6000 0x7000 0x8000 ∧ s.ctx 0 2 = .invalid ∧ s.isMem 0x20000 = true ∧ s.physPoison 0x20000 = false ∧
    s.physNum 0x20000 8 = 0x30001 ∧ pteMalformed 0 0x30001 = false ∧ pteMalformed 0 0x30003 = true ∧ s.physNum 0x20008 8 = 0 ∧
    s.physNum 0x30008 8 = 0x2000003F ∧ pteMalformed 1 0x2000003F = false ∧ (0x2000003F : Nat).testBit 5 = true ∧
    s.physNum 0x40008 8 = 0x2005F ∧ (0x2005F : Nat).testBit 6 = true ∧ pteMalformed 2 0x2005F = false ∧
    s.walk 0 1 8193 = .leaf 8192 13 0x20000000 (pteAttr 0x2000003F) ∧ s.walk 0 1 (2 ^ 26) = .notPresent := by decide +kernel

theorem witness_scratch_order :
    let w : Access := { one (.store false false) 8 9 .none with id := 0, sp := true, parts := [{ va := 64, size := 8, lane := 0, data := 9, st := .todo, acks := [] }] }
    let s := with0 { boss with accs := [w] }
    let e := sup.modCluster 0 fun c => c.emptyWord 0
    SpFree sup [(0x7FFFF8, 8)] ∧ SpFree { s with seq := 1 } [(72, 8), (56, 8)] ∧ ¬ SpFree { s with seq := 1 } [(71, 4)] ∧
    unfinished [w] = [w] ∧ (sup.me.mask 0 = 0xFFFF) ∧ (e.cluster 0).full 0 = false ∧
    after (exec (.ldSp 5 ⟨0, false⟩ .b8 9) { s with seq := 1 }) (fun t => t.me.pc == 0x1004 && t.me.s == s.me.s) ∧
    after (exec (.ldsync 5 ⟨0, false⟩ false false 0) e) (fun t => t.me.pc == 0x1004 && t.me.accs.length == 1 && !t.me.full 5) ∧
    after (exec (.ldsync 5 ⟨0, false⟩ false false 4) e) (fun t => t.me.pc == 0x1004 && (t.me.accs.map fun a => a.parts.map (·.performed)) == [[true]]) ∧
    after (exec (.stSp 3 ⟨0, false⟩ .b8 8) { s with seq := 1 }) (fun t => t.me.pc == 0x1004 && (t.cluster 0).spWord 16 == 0) := by
  unfold SpFree; refine ⟨?_, ?_, ?_, ?_, ?_, ?_, ?_, ?_, ?_, ?_⟩ <;> decide +kernel

theorem witness_no_lanes :
    let s := with0 { boss with m := boss.m.set 1 0 }
    s.me.mask 1 = 0 ∧
    after (exec (.vgather 1 ⟨31, true⟩ (.lit 5) 1 false) s) (fun t => t.me.pc == 0x1008 && t.me.accs.isEmpty && t.me.vFull.getLsbD 1) ∧
    after (exec (.vgather 1 ⟨31, true⟩ (.lit 5) 1 true) s) (fun t => t.me.pc == 0x1008 && t.me.accs.isEmpty) ∧
    after (exec (.vscatter 1 ⟨31, true⟩ (.lit 5) 1 false) s) (fun t => t.me.pc == 0x1008 && t.me.accs.isEmpty) ∧
    after (exec (.clrfe ⟨2, false⟩ (.lit 0) true) (wr 64)) (fun t => t.me.pc == 0x1008 && t.me.accs.isEmpty) := by decide +kernel

/-- The supervisor with 0x2000 in s2 and that line on chip, with the given attributes and holders. -/
def near (l : Line) : State := s2 { sup with lines := [(lineKey 0 0x2000, l)] } 0x2000

theorem witness_prefetch :
    let far := { line7 with present := [1] }
    let by_ := { line7 with attr := { Attr.window with ret := 3 } }
    let t : State := { world usr with tlb := [{ mdie := 11, asid := 1, page := 0, log2 := 0, frame := 0x20000, attr := pteAttr 0x1F }] }
    (near far).line 0 0x2000 = some far ∧ far.seenBy 0 = none ∧ far.upd = none ∧ (near line7).handing 0x2000 = false ∧ (line7.seenBy 0).isSome = true ∧
    Attr.window.r = true ∧ t.look 0 1 0x2000 = .ok 0x22000 (pteAttr 0x1F) ∧ t.hasMode 0x22000 false = true ∧ t.handing 0x22000 = false ∧
    t.phys 0x22000 = .dram 10 ∧ t.line 1 0x2000 = none ∧ 2 ^ 56 ≤ (0x0100000000000000 : Word).toNat ∧
    after (exec (.pref ⟨2, false⟩) (near by_)) (fun u => u.line 0 0x2000 == some by_) ∧
    after (exec (.prefSt ⟨2, false⟩) (near by_)) (fun u => (u.line 0 0x2000).any fun m => m.ret == 1) ∧
    after (exec (.prefSk ⟨2, false⟩) (near far)) (fun u => (u.line 0 0x2000).any fun m => m.ret == 2 && m.present.contains 0 && m.present.contains 1) ∧
    after (exec (.prefSt ⟨2, false⟩) (s2 t 0x2000)) (fun u => (u.line 1 0x2000).any fun m => m.ret == 1 && m.present == [0] && m.frame == 0x22000) ∧
    after (exec (.pref ⟨2, false⟩) (wr 0x0100000000000000)) (fun u => u.me.pc == 0x1004 && u.lines.isEmpty) := by decide +kernel

theorem witness_fence :
    let st := with0 { boss with accs := [{ one (.store false false) 8 9 .none with parts := [{ va := 64, size := 8, lane := 0, data := 9, st := .done 0, acks := [3] }] }] }
    let sy := with0 { boss with accs := [{ one (.load false true) 4 0 (.s 5 false 4) with sp := true }] }
    let dg : State := { sup with tiles := [(4, { req (.digest 1) .sent with h := tile5 })], seq := 5 }
    (∃ b ∈ sy.me.accs, ∃ x ∈ b.parts, x.performed = false) ∧ (3 : Nat) ≠ dieOf st.cur ∧ (8 : Word).toNat.testBit 3 = true ∧ st.up.getLsbD 3 = true ∧
    (st.me.accs.all fun b => b.parts.all (·.performed)) = true ∧ sup.me.borrowed = [] ∧ sup.digesting sup.me.tid sup.seq = false ∧
    dg.digesting dg.me.tid dg.seq = true ∧
    after (exec (.fence ⟨0, false⟩ 0) st) (fun t => t.me.pc == 0x1004) ∧
    after (exec (.fence ⟨2, false⟩ 3) (s2 st 8)) (fun t => t.me.pc == 0x1000) ∧
    after (exec (.fence ⟨2, false⟩ 3) (s2 st 4)) (fun t => t.me.pc == 0x1004) ∧
    after (exec (.fence ⟨0, false⟩ 0) sy) (fun t => t.me.pc == 0x1000) ∧
    after (exec (.fence ⟨0, false⟩ 0) dg) (fun t => t.me.pc == 0x1000) := by decide +kernel

theorem witness_drain :
    let v := cmd [0x23, 5, 0x100000, 0x1000, 0x10000000]
    let s := queued sup .c v
    v.opc = 0x23 ∧ (v.words.getD 0 0).getLsbD 13 = false ∧ s.drainSet 0 .sp = [(0, 1)] ∧ s.drainSet 0 .mem = [] ∧ s.me.wait = .none ∧
    after (exec (.drain .sp) s) (fun t => t.me.pc == 0x1000 && t.me.wait == .drain [(0, 1)]) ∧
    after (exec (.drain .mem) s) (fun t => t.me.pc == 0x1004) := by decide +kernel

/-- The streaming rival here is a second entry of the same key: which other keys share a set is free (entry 62). -/
theorem witness_lines_more :
    let st := { line7 with ret := 1 }
    let two : State := { near line7 with lines := [(0x80, line7), (0x80, st)] }
    (two.lines.get? 0x80 = some line7 ∧ (∃ e ∈ two.rivals 0 0x80, e.2.ret = 1)) ∧
    after (exec (.l2Eviction 0 0x80) two) (fun t => t.lines.length == 2) ∧
    (near line7).replaceable 0 0x80 line7 = true ∧ (∃ e ∈ (near st).rivals 0 0x80, e.2.ret = 1) ∧ line7.ret ≠ 1 ∧
    (near line7).l2Room 0 0x80 = true ∧ (near line7).l3Room 0x2000 = true ∧ (near line7).farPuts = [] ∧ (near line7).farGets = [] ∧
    (near line7).locked 0 0x2000 = false := by
  refine ⟨?_, ?_, ?_, ?_, ?_, ?_, ?_, ?_, ?_, ?_⟩ <;> decide +kernel

/-- A failed load of slot 0 into s5; a posted cause; a synchronising load that waits since cycle 0. -/
def failed : State :=
  with0 { boss with accs := [{ one (.load false false) 8 0 (.s 5 true 8) with parts := [{ va := 0x2038, size := 8, lane := 0, data := 0, st := .bad 0x43, acks := [] }] }] }

theorem witness_boundary :
    let p := with0 { boss with posted := [{ ticket := 7, cause := 0xA1, eng := .c, at_ := 0 }] }
    let y := { under (one (.load false true) 8 0 (.s 5 true 8)) line7 with now := 0x01000000 }
    failed.atBoundary 0 = true ∧ p.readyOutcomes 0 = [] ∧ y.acc 0 1 = some (one (.load false true) 8 0 (.s 5 true 8)) ∧
    (y.die 0).wdog.toNat ≠ 0 ∧ 0 + (y.die 0).wdog.toNat ≤ y.now ∧
    (y.die 0).fqFull = false ∧ after (exec (.syncTimeout 0 1) y) (fun t => (t.die 0).fqTail == 1 && t.me.accs.all (·.reported)) ∧
    (match oldest (failed.readyOutcomes 0) with | some (.acc a c addr) => a.failed == some c && c == 0x43 && addr == 0x2038 | _ => false) = true ∧
    after (exec (.lateOutcomeTaken 0) failed) (fun t => t.me.cause == 0x43 && t.me.reg 5 == 0 && t.me.tval == 0x2038) ∧
    after (exec (.postedCauseTaken 0) p) (fun t => t.me.cause == 0xA1 && t.me.tval == 7 && t.me.posted.isEmpty) := by
  decide +kernel
theorem witness_tile_issue :
    let s := s2 (world sup) tile5
    let w := (asking (req .wait (.answered 0 [] [])) (name5 [])).modMe fun x => { x with wait := .tile 4 }
    (s.desc 0 0 (tile5.toNat / 2 ^ 52)).isSome = true ∧ (s.desc 0 0 1).all (fun d => tile5.toNat / 2 ^ 24 % 2 ^ 28 < d.tiles && d.pkg == none) ∧
    s.gateOf 0 (formR [] ⟨2, true⟩ (.lit 0x07FF0001)) = .go ∧ s.gateOf 0 (formA [.fillS 5] ⟨2, true⟩) = .go ∧
    s.gateOf 0 (formR [.fillS 5] ⟨2, true⟩ (.lit 543)) = .go ∧ s.gateOf 0 (formR [.s 5] ⟨2, true⟩ (.lit 0x00FFFFFA)) = .go ∧
    s.outstanding 0 < 32 ∧ (s.cluster 0).tld.has 2047 = false ∧ (s.cluster 0).locked 2047 = false ∧ s.me.det = false ∧
    tile5.toNat % 2 ^ 24 + 0x00FFFFFA < 2 ^ 24 ∧ 2 ^ 24 ≤ tile5.toNat % 2 ^ 24 + 0x00FFFFFB ∧
    (w.me.wait = .tile 4 ∧ (w.tiles.get? 4).map (·.st) = some (.answered 0 [] [])) ∧
    after (exec (.tld ⟨2, true⟩ (.lit 0x07FF0001) false) s) (fun t => t.tiles.length == 1 && !(t.cluster 0).full (1024 * 2047)) ∧
    after (exec (.tst ⟨2, true⟩ (.lit 0x07FF0001)) s) (fun t => (t.cluster 0).locked 2047) ∧
    after (exec (.twait ⟨2, true⟩) w) (fun t => t.me.pc == 0x1004 && t.me.wait == .none) ∧
    after (exec (.thmake 5 ⟨2, true⟩ (.lit 0x00FFFFFA)) s) (fun t => t.me.reg 5 == 0x0010000000FFFFFF) := by decide +kernel

theorem witness_tile_checks :
    let s := s2 (world sup) tile5
    (tileForm (.tq 5 ⟨2, true⟩) s).isSome = true ∧ s.me.wait = .none ∧ (world sup).ctx 0 0 = .ok 0x20000 0x6000 0x7000 0x8000 ∧
    sup.ctx 0 0 = .invalid ∧ (world sup).desc 0 0 2 = none ∧ (tile5 + 0x4000000).toNat / 2 ^ 24 % 2 ^ 28 = 4 ∧
    after (exec (.tq 5 ⟨2, true⟩) (s.modMe fun x => { x with det := true })) (fun t => t.me.cause == 0x21) ∧
    after (exec (.tdrop ⟨2, true⟩) (s2 sup tile5)) (fun t => t.me.cause == 0x46) ∧
    after (exec (.tdrop ⟨2, true⟩) (s2 (world sup) (tile5 + tile5))) (fun t => t.me.cause == 0x63) ∧
    after (exec (.tdrop ⟨2, true⟩) (s2 (world sup) (tile5 + 0x4000000))) (fun t => t.me.cause == 0x64) ∧
    after (exec (.tdrop ⟨2, true⟩) (s2 (world sup) (tile5 - 5))) (fun t => t.me.cause == 0x66) ∧
    after (exec (.tst ⟨2, true⟩ (.lit 1)) (s2 (world sup) (tile5 - 5))) (fun t => t.me.cause == 0x60) ∧
    after (exec (.tst ⟨2, true⟩ (.lit 0x10000)) s) (fun t => t.me.cause == 0x66) ∧
    after (exec (.tpeek 5 ⟨2, true⟩ (.lit 544)) s) (fun t => t.me.cause == 0x64) ∧
    after (exec (.thmake 5 ⟨2, true⟩ (.lit 0x00FFFFFB)) s) (fun t => t.me.cause == 0x65) := by decide +kernel

theorem witness_version_request :
    let full := name5 [(0, vslot 5 2 true)]
    (homeOf tile5 { fmt := 0, rows := 16, cols := 64, tiles := 4, base := 0x50000, place := 1, seed := 0, sbase := 0, strip := 0, scaled := false, pkg := none }).pkg = none ∧
    (asking (req .wait .sent) full).homeDie home5 = 0 ∧ (asking (req .wait .sent) full).up.getLsbD 0 = true ∧
    0 * 2 ^ 40 + tile5.toNat / 2 ^ 24 = 2 ^ 28 ∧ tile5.toNat % 2 ^ 24 = 5 ∧ (name5 []).find 5 = none ∧ full.floor < 5 ∧
    (full.find 5).isSome = true ∧ (full.slots.get? 0).any (fun v => v.full && v.loc == 0 && v.count == 2 && !v.poison) = true ∧ (5 : Nat) ≤ ({ name5 [] with floor := 5 } : Name).floor ∧
    after (exec (.versionRequest 0 4) (asking (req (.load true 7) .sent) full)) (fun t => (t.tiles.get? 4).any fun r => match r.st with | .delivering d l => d.head? == some 0x11 && l.head? == some 0 | _ => false) ∧
    after (exec (.versionRequest 0 4) (asking (req (.load true 7) .sent) (name5 []))) (fun t => (t.names.get? key5).any fun m => m.waiters == [(5, 4)]) ∧
    after (exec (.versionRequest 0 4) (asking (req (.load true 7) .sent) { name5 [] with floor := 5 })) (fun t => (t.tiles.get? 4).any fun r => r.st == .bad 0x61 0) ∧
    after (exec (.versionRequest 0 4) (asking (req (.query 5) .sent) full)) (fun t => (t.tiles.get? 4).any fun r => r.st != .sent) := by decide +kernel

theorem witness_version_store :
    let s := asking (req (.store 7 3) .sent) (name5 [])
    let e := asking (req (.store 7 3) .sent) (name5 [(0, vslot 5 2 true)])
    let c := asking (req (.store 7 3) .copying) (name5 [(0, vslot 5 3 false)])
    (s.placeVersion 0 8 511).isSome = true ∧ (name5 []).stores = [] ∧ (name5 []).slots.length < 8 ∧
    (c.storeSource 4 (req (.store 7 3) .copying)).isSome = true ∧ (name5 []).waiters = [] ∧
    after (exec (.versionStoreRequest 0 4 511) s) (fun t => (t.tiles.get? 4).any fun r => r.st == .copying) ∧
    after (exec (.versionStoreRequest 0 4 0) e) (fun t => (t.tiles.get? 4).any fun r => r.st == .bad 0x60 0) ∧
    after (exec (.versionCopyDone 0 4) c) (fun t => (t.names.get? key5).any fun m => m.slots.any fun v => v.2.full && v.2.count == 3) := by
  decide +kernel

theorem witness_version_answers :
    let d := asking (req (.load true 7) (.delivering (List.replicate 4096 0x11) [1023])) (name5 [])
    let n := { asking (req .wait (.noticed 0 [] [])) (name5 []) with notices := [(6, { die := 0, inc := 1, ids := [4] })] }
    let p := (asking (req (.peek 5 0) (.answered 77 [] [])) (name5 [])).modMe fun x => { x with tid := 3 }
    (1023 ∈ ([1023] : List Nat)) ∧ (n.die 0).incarn = 1 ∧ ({ n with dies := [] } : State).notices.length = 1 ∧
    (({ p with tiles := [(4, { req (.peek 5 0) (.answered 77 [] []) with tid := 3 })] } : State).findTask 3) = some 0 ∧
    after (exec (.tileDelivery 4 1023) d) (fun t => t.tiles.isEmpty && (t.cluster 0).spWord (1024 * 7 + 1023) == 0x11111111) ∧
    after (exec (.arrivalNotice 0 6) n) (fun t => t.notices.isEmpty && (t.tiles.get? 4).any fun r => r.st == .answered 0 [] []) ∧
    after (exec (.arrivalNotice 0 6) (n.modDie 0 fun x => { x with incarn := 2 })) (fun t => t.tiles.isEmpty && (t.die 0).stale == 1) ∧
    after (exec (.fillLand 0 4 0) { p with tiles := [(4, { req (.peek 5 0) (.answered 77 [] []) with tid := 3 })] }) (fun t => t.me.reg 5 == 77 && t.tiles.isEmpty) ∧
    after (exec (.versionWaitTimeout 4) { p with tiles := [(4, { req .wait .queued with tid := 3 })], now := 0x01000000 })
      (fun t => (t.tiles.get? 4).any (·.reported) && (t.die 0).fqTail == 1) := by decide +kernel

theorem witness_spawn :
    let s := s2 (world usr) 5
    let lock := s.modMe fun x => { x with det := true }
    let args : List Ref := (List.range 8).map fun j => .s (Fin.ofNat 64 (3 + j)) false
    let q : Form := { srcs := .s 2 true :: args, dsts := [], lit := true }
    (s.cls 0 1 0).isSome = true ∧ (s.cls 0 1 0).all (·.independent) = true ∧ (s.cls 0 1 2).all (!·.independent) = true ∧
    s.cls 0 1 3 = none ∧ s.gateOf 0 q = .go ∧ s.gateOf 0 { q with dsts := [.fillS 5] } = .go ∧
    s.gateOf 0 (formR [] ⟨2, true⟩ (.lit 0xE000001)) = .go ∧ s.keyDie 5 < 8 ∧
    after (exec (.spawn ⟨2, true⟩ (.lit 0xE000001)) s) (fun t => t.me.idx == 1 && (t.recs.get? s.seq).any fun m => m.r.key == 5 && m.r.payload.toList.head? == some (BitVec.allOnes 64 - 1)) ∧
    after (exec (.spawnk ⟨2, true⟩ (.lit 0xF000001)) s) (fun t => (t.recs.get? s.seq).any fun m => m.die == 0 && m.r.payload.toList.take 2 == [1, 0]) ∧
    after (exec (.callr 5 ⟨2, true⟩ (.lit 0xE000001)) s) (fun t => !t.me.full 5 && (t.recs.get? s.seq).any fun m => m.r.nf && m.dst == some 5) ∧
    after (exec (.spawnk ⟨2, true⟩ (.lit 0xE030001)) s) (fun t => t.me.cause == 0x82) ∧
    after (exec (.spawnk ⟨2, true⟩ (.lit 0xE020001)) lock) (fun t => t.me.cause == 0x23) ∧
    after (exec (.spawnk ⟨2, true⟩ (.lit 0xD000001)) s) (fun t => t.me.cause == 0x02) := by decide +kernel

theorem witness_spawn_launch :
    let s := s2 ({ world usr with tlb := [{ mdie := 11, asid := 1, page := 0, log2 := 0, frame := 0x20000, attr := pteAttr 0x1F }] }) 0x1000
    let g := put8 (put8 s 0x21000 [2 ^ 63 + 0xF000001, 5, 0, 0, 0, 0, 0, 0, 4]) 0x22000 [0, 5]
    s.gateOf 0 (formA [] ⟨2, true⟩) = .go ∧ (g.cohRead (.slot 0) 0 1 0x1000 64 { r := true, u := true }).2.isOk = true ∧
    ((g.cohRead (.slot 0) 0 1 0x1000 64 { r := true, u := true }).1.cohRead (.slot 0) 0 1 0x1040 64 { r := true, u := true }).2.isOk = true ∧
    g.launchOk 0 1 four.words = true ∧ g.launchOk 0 1 (Vector.replicate 16 0) = false ∧ (g.freeBlock 0).isSome = true ∧
    after (exec (.launch ⟨2, true⟩) g) (fun t => t.launches.length == 1 && t.me.idx == 1 && (t.recs.any fun m => m.2.r.lr && m.2.r.key == 5)) ∧
    after (exec (.launch ⟨2, true⟩) (s2 g 0x2000)) (fun t => t.me.cause == 0x88) := by decide +kernel

theorem witness_task :
    let s := pan [{ rec5 with entry := 0xFFFF, sealed := true }]
    let t := (s2 s 7).modMe fun x => { x with token := 2 ^ 63 + 2 ^ 47 }
    s.gateOf 0 (formB [.s 5] (.lit 3)) = .go ∧ s.gateOf 0 (formR [.v 1] ⟨2, true⟩ (.lit 0xE000000)) = .go ∧
    s.quietTask 0 = true ∧ s.me.use = .task ∧ engines.all (fun e => (s.me.engine e).queue.isEmpty) = true ∧ s.canLeave 0 = true ∧ s.me.crew = false ∧
    ((pan []).modMe fun x => { x with accs := [one .clear 8 0 .none] }).quietTask 0 = false ∧
    t.fenced 0 (2 ^ (t.me.token.toNat / 2 ^ 38 % 2 ^ 3)) = true ∧ t.gateOf 0 (formA [] ⟨2, true⟩) = .go ∧ t.me.replied = false ∧
    after (exec (.recLd 5 (.lit 3)) (s.modMe fun x => { x with idx := 12 })) (fun t => t.me.reg 5 == 12) ∧
    after (exec (.recLd 5 (.lit 4)) s) (fun t => t.me.cause == 0x02) ∧
    after (exec (.path 5 (.lit 1)) s) (fun t => t.me.reg 5 == childpath 0 1) := by
  decide +kernel

theorem witness_task_end :
    let s := pan [{ rec5 with entry := 0xFFFF, sealed := true }]
    let t := (s2 s 7).modMe fun x => { x with token := 2 ^ 63 + 2 ^ 47 }
    after (exec (.texit) s) (fun t => (t.slot 0).use == .free) ∧
    after (exec (.reply ⟨2, true⟩) t) (fun u => (u.slot 0).use == .free && (u.replies.get? t.seq).any fun r => r.val == 7) ∧
    after (exec (.reply ⟨2, true⟩) s) (fun u => u.me.cause == 0x87) := by decide +kernel

theorem witness_reap :
    let s := s2 (pan [{ rec5 with entry := 0xFFFF, sealed := true, aff := 0 }]) 5
    s.gateOf 0 (formR [.v 1] ⟨2, true⟩ (.lit 0xF000000)) = .go ∧ (s.reapable 0 1 0 5 0).isSome = true ∧ (s.reapable 0 1 0 6 0) = none ∧
    (s.cls 0 1 0).all (fun c => c.gate == 0) = true ∧
    after (exec (.reap 1 ⟨2, true⟩ (.lit 0xF000000)) s) (fun t => (t.die 0).pan.isEmpty && (t.me.v[(1 : VReg)]).extractLsb' 448 64 == 1) ∧
    after (exec (.reap 1 ⟨2, true⟩ (.lit 0xF000000)) (s2 s 6)) (fun t => t.me.pc == 0x1000 && (t.die 0).pan.length == 1) := by decide +kernel

theorem witness_channel_configuration :
    let s := s2 sup (64 + 2)
    let c := s2 (chanTo sup 0 1 [9]) 2
    s.gateOf 0 (formA [] ⟨2, true⟩) = .go ∧ s.role 0 2 = .plain ∧ (s.chan 0 2).en = false ∧ (c.chan 0 0).endAt 0 = true ∧
    (c.chan 0 2).endAt 0 = false ∧ (c.chan 0 0).wslot ≠ (c.chan 0 0).rslot ∧
    after (exec (.chanCfg ⟨2, true⟩) s) (fun t => (t.chan 0 2).en && (t.chan 0 2).rslot == 1 && t.me.reg 62 == 0) ∧
    after (exec (.chanCfg ⟨2, true⟩) (s2 sup (64 * 15 + 2))) (fun t => t.me.cause == 0x0A) ∧
    after (exec (.chanCfg ⟨2, true⟩) (s2 c (64 * 2))) (fun t => t.me.cause == 0x0A) ∧
    after (exec (.chanCfgRel ⟨2, true⟩) c) (fun t => t.me.cause == 0x0A && t.me.tval == 2) ∧
    after (exec (.chanCfgRel ⟨2, true⟩) (s2 c 0)) (fun t => !(t.chan 0 0).endAt 0 && t.me.reg 60 == 0) := by decide +kernel

theorem witness_records :
    let r := { rec5 with stamp := 0 }
    let s : State := { pan [] with recs := [(6, coming { r with cls := 3 })] }
    let f : State := { pan [rec5] with recs := [(6, coming { r with path := 70 })] }
    let b (i : Nat) : State := { pan [] with replies := [(6, { token := BitVec.ofNat 64 (2 ^ 63 + i * 2 ^ 47 + 5 * 2 ^ 41 + 9), val := 44 })], slots := [(0, { user with sFull := 0 })] }
    s.cls 0 1 3 = none ∧ (s.die 0).place { r with cls := 3 } = some none ∧ s.up.getLsbD 0 = true ∧ (f.cls 0 1 0).any (fun c => c.run == 8) = true ∧
    rec5.sealed = false ∧ rec5.nf = false ∧ r.matches' rec5 = true ∧ ((b 1).die 0).incarn = 1 ∧ (b 1).slots = [(0, (b 1).slot 0)] ∧
    ((b 1).slot 0).live = true ∧ (b 1).role 0 5 = .plain ∧ ((b 1).slot 0).tid % 2 ^ 38 = 9 ∧
    (pan []).selection 0 = [] ∧ (pan []).usableSlots 0 [] 0 14 none ≠ [] ∧
    after (exec (.recordArrival 0 6) s) (fun t => t.recs.isEmpty && ((t.die 0).pan.map (·.stamp)) == [8] && (t.die 0).enq == 9) ∧
    after (exec (.recordArrival 0 6) f) (fun t => ((t.die 0).pan.map fun y => (y.folds, y.path, y.stamp)) == [(2, 70, 3)]) ∧
    after (exec (.panOverflowReturn 0) (pan [{ rec5 with spill := some (0, 0) }])) (fun t => ((t.die 0).pan.map (·.spill)) == [none]) ∧
    after (exec (.replyDelivery 6) (b 2)) (fun t => t.replies.isEmpty && (t.die 0).stale == 1 && !(t.slot 0).full 5) ∧
    after (exec (.replyDelivery 6) (b 1)) (fun t => t.replies.isEmpty && (t.slot 0).full 5 && (t.slot 0).reg 5 == 44) ∧
    after (exec (.idleDieSteal 0) (pan [])) (fun t => (t.die 0).steal.length == 7) := by decide +kernel

theorem witness_steal :
    let s := (pan [rec5, { rec5 with key := 6, stamp := 4 }]).modDie 1 fun d => { d with steal := [0, 2] }
    (s.die 1).steal = [0, 2] ∧ s.up.getLsbD 0 = true ∧ ((s.selection 0).filter (s.stealable 0)).map (·.key) = [5, 6] ∧
    after (exec (.stealRequest 1) s) (fun t => (t.die 1).steal.isEmpty && ((t.die 0).pan.map (·.key)) == [5] && t.recs.any fun m => m.2.die == 1 && m.2.r.key == 6) := by
  decide +kernel

theorem witness_scheduling :
    let s := pan [rec5]
    let r := { rec5 with lr := true, lnch := 0x20000 }
    let l := { four with started := false }
    let done := { four with next := 4, posted := [0] }
    (s.die 0).poolBase ≠ 0 ∧ (s.die 0).quiet = false ∧ (s.selection 0).map (·.key) = [5] ∧
    (s.kernel 0 1 1).any (fun k => !k.skim && k.crewM1 == 0) = true ∧ (s.usableSlots 0 [] 0 13 none).take 2 = [16, 32] ∧
    (s.freeBlocks 0 1 []).isSome = true ∧ (launched l).launches.get? 0x20000 = some l ∧
    lProd four.words 0 (lLevels four.words) = 4 ∧ ((launched four).expandRec 0x20000 four).1.1 = none ∧
    lProd four.words 0 (four.words[0].toNat / 2 ^ 48 % 2 ^ 3 + 1) = 4 ∧ four.words[7].toNat ≠ 0 ∧
    (launched { four with next := 1 }).launchTasks 0x20000 (some 0) = false ∧ (launched done).launchDone 0x20000 { done with posted := [0, 1, 2, 3] } = true ∧
    after (exec (.dispatch 0) s) (fun t => (t.slot 16).use == .task && (t.slot 16).pc == 0x9000 && (t.slot 16).key == 5 && (t.slot 16).path == 77 && (t.die 0).pan.isEmpty) ∧
    after (exec (.dispatch 0) { launched l with dies := (pan [r]).dies }) (fun t => (t.launches.get? 0x20000).any (·.started)) ∧
    after (exec (.launchExpansion 0x20000) (launched four)) (fun t => (t.launches.get? 0x20000).any (fun x => x.next == 1) && t.dies.any fun d => !d.2.pan.isEmpty) ∧
    after (exec (.instanceComplete 0x20000) (launched { four with next := 1 })) (fun t => t.recs.length == 1 && (t.launches.get? 0x20000).any fun x => x.posted == [0]) ∧
    after (exec (.launchComplete 0x20000) (launched { done with posted := [0, 1, 2, 3] })) (fun t => t.launches.isEmpty) := by
  decide +kernel

theorem witness_crew :
    let j : State := (pair.modMe fun x => { x with wait := .rejoin 0x1008 3 true }).modSlot 16 fun x => { x with wait := .rejoin 0x1008 1 true }
    let d : State := code pair 0x3C000000
    let e : Decoded := { pc := 0, word := 0, lit := none, branch := none }
    let f : State := { pair.modCrew 0 fun c => { c with bufs := [(1, List.replicate 32 e)], fullAt := [(1, 0)] } with now := 0x01000000 }
    let h : State := { pair.modCrew 0 fun c => { c with lock := true, heldAt := [(1, 0)] } with now := 0x01000000 }
    let w : State := { j.modCrew 0 fun c => { c with rejoins := [(0x1008, 0, false)] } with now := 0x01000000 }
    pair.me.crew = true ∧ pair.attached 0 = true ∧ sup.attached 0 = false ∧ leaderOf (pair.crew 0).att = memberOf 0 ∧ pair.me.wait = .none ∧
    pair.gateOf 0 (formR [] ⟨2, true⟩ (.lit 8)) = .go ∧ pair.gateOf 0 (form0 [.s 5]) = .go ∧
    j.rejoinGroup 0 0 0x1008 3 = [0, 1] ∧ j.rejoinAt 0 1 = some (0x1008, 1) ∧ (j.slot 16).halted = false ∧
    (pair.modMe fun x => { x with wait := .rejoin 0x1008 3 true }).rejoinAt 0 1 = none ∧
    after (exec .detach pair) (fun t => !t.attached 0 && t.attached 16) ∧
    after (exec .split pair) (fun t => (t.crew 0).att == 0) ∧
    after (exec (.lockstep ⟨2, true⟩) pair) (fun t => (t.crew 0).lock) ∧
    after (exec (.crewid 5) pair) (fun t => t.me.reg 5 == 0x03030018) ∧
    after (exec (.crewid 5) sup) (fun t => t.me.reg 5 == 0) ∧
    after (exec (.rejoin ⟨2, true⟩ (.lit 7)) pair) (fun t => t.me.cause == 0x07) ∧
    after (exec (.rejoin ⟨2, true⟩ (.lit 8)) sup) (fun t => t.me.pc == 0x1008) ∧
    after (exec (.rejoin ⟨2, true⟩ (.lit 8)) (s2 pair 3)) (fun t => t.me.wait == .rejoin 0x1008 3 true && !t.attached 0) ∧
    ((2 : Word).getLsbD 0 = false ∧ (3 : Word).getLsbD 0 = true) ∧
    after (exec (.rejoin ⟨2, true⟩ (.lit 8)) j) (fun t => t.me.pc == 0x1008 && (t.slot 16).pc == 0x1008 && (t.crew 0).att == 3) ∧
    after (exec (.frontEndDecode 0) d) (fun t => ((t.crew 0).bufs.getD 1 []).length == 1 && (t.crew 0).dpc == 0x1004) ∧
    after (exec (.crewStallDetach 0 1) f) (fun t => (t.crew 0).att == 1 && (t.crew 0).wdet == 2) ∧
    after (exec (.crewStallDetach 0 1) h) (fun t => (t.crew 0).att == 1 && (t.crew 0).wdet == 2) ∧
    after (exec (.rejoinTimeout 0) w) (fun t => (t.crew 0).rejoins == [(0x1008, 0, true)] && (t.die 0).fqTail == 1) := by decide +kernel

/-- Point 23 of cluster 0 with EXP 2 and generation 5, of slot 0's team, after some arrivals. -/
def point23 (a : Nat) : State :=
  (s2 sup 23).modCluster 0 fun c =>
    { c with ptTeam := some ((s2 sup 23).team 0), points := [(23, { init := true, e := 2, arrived := a, gen := 5 })] }

theorem witness_points :
    let p := point23
    let g := queued sup .c (cmd [0x320])
    sup.gateOf 0 (formR [] ⟨2, true⟩ (.lit 5)) = .go ∧ sup.gateOf 0 (formA [.s 5] ⟨2, true⟩) = .go ∧ sup.gateOf 0 (formB [] (.lit 0)) = .go ∧
    (sup.cluster 0).ptTeam = none ∧ ((p 1).cluster 0).ptTeam = some ((p 1).team 0) ∧ (((p 1).cluster 0).point 23).init = true ∧
    ((sup.cluster 0).point 23).init = false ∧ (p 1).fenced 0 1 = true ∧ (p 1).role 0 5 = .plain ∧
    after (exec (.rvInit ⟨2, true⟩ (.lit 0xFFFF)) (s2 sup 23)) (fun t => ((t.cluster 0).point 23).init && ((t.cluster 0).point 23).e == 0xFFFF) ∧
    after (exec (.rvInit ⟨2, true⟩ (.lit 0x10000)) (s2 sup 23)) (fun t => t.me.cause == 0x85) ∧
    after (exec (.rvInit ⟨2, true⟩ (.lit 1)) (s2 sup 24)) (fun t => t.me.cause == 0x85) ∧
    after (exec (.rvArr 5 ⟨2, true⟩) (p 0)) (fun t => t.me.reg 5 == 5 && ((t.cluster 0).point 23).arrived == 1) ∧
    after (exec (.rvArr 5 ⟨2, true⟩) (p 1)) (fun t => t.me.reg 5 == 5 && ((t.cluster 0).point 23).gen == 6) ∧
    after (exec (.rvWait ⟨2, true⟩ (.lit 5)) (p 1)) (fun t => t.me.pc == 0x1000) ∧
    after (exec (.rvWait ⟨2, true⟩ (.lit 4)) (p 1)) (fun t => t.me.pc == 0x1008) ∧
    after (exec (.gset 15 (.lit 0)) sup) (fun t => t.me.guard 15 == .isFalse) ∧
    after (exec (.gset 0 (.lit 0)) sup) (fun t => t.me.cause == 0x02) ∧
    after (exec (.gclr 15) (sup.modMe fun x => { x with g := Vector.replicate 16 .isTrue })) (fun t => t.me.guard 15 == .unresolved) ∧
    after (exec (.gclr 3) g) (fun t => t.me.pc == 0x1000) := by decide +kernel

/-- A barrier object as bytes. -/
def bytesOf (pend gen : Nat) : List Byte := toBytes 16 (2 * 2 ^ 44 + pend * 2 ^ 24 + gen * 2 ^ 20 + 1)

theorem witness_barriers :
    let s := s2 sup 64
    let o (pend gen : Nat) : State := s.modCluster 0 fun c => c.putSp 64 (bytesOf pend gen)
    let obj (t : State) : Barrier := objectOf ((t.cluster 0).spBytes 64 16)
    s.gateOf 0 (formR [] ⟨2, true⟩ (.lit 2)) = .go ∧ s.gateOf 0 (formA [.s 5] ⟨2, true⟩) = .go ∧ (s.cluster 0).locked 0 = false ∧
    obj s = objectOf [] ∧ (obj (o 1 15)).init = true ∧ (obj (o 1 15)).pend = 1 ∧ (o 1 15).fenced 0 (o 1 15).allDies = true ∧
    after (exec (.boInit ⟨2, true⟩ (.lit 2) true) s) (fun t => (obj t).exp == 2 && (obj t).pend == 2 && (obj t).init) ∧
    after (exec (.boInit ⟨2, true⟩ (.lit 0x100000) true) s) (fun t => t.me.cause == 0x85) ∧
    after (exec (.boAdd ⟨2, true⟩ (.lit 2) true) s) (fun t => t.me.cause == 0x85) ∧
    after (exec (.boAdd ⟨2, true⟩ (.lit 2) true) (o 1 15)) (fun t => (obj t).out == 2) ∧
    after (exec (.boArr 5 ⟨2, true⟩ true) (o 1 15)) (fun t => t.me.reg 5 == 15 && (obj t).gen == 0 && (obj t).pend == 2) ∧
    after (exec (.boWait ⟨2, true⟩ (.lit 14) true) (o 1 15)) (fun t => t.me.pc == 0x1008) ∧
    after (exec (.boWait ⟨2, true⟩ (.lit 15) true) (o 1 15)) (fun t => t.me.pc == 0x1000) ∧
    after (exec (.boWait ⟨2, true⟩ (.lit 3) true) (o 1 15)) (fun t => t.me.cause == 0x86) := by decide +kernel

theorem witness_barriers_memory :
    let s := s2 { world usr with tlb := [{ mdie := 11, asid := 1, page := 0, log2 := 0, frame := 0x20000, attr := pteAttr 0x1F }] } 0x1000
    let o := s.putPhys 0x21000 (bytesOf 1 15)
    let n : Need := { r := true, w := true, u := true }
    s.gateOf 0 (formR [] ⟨2, true⟩ (.lit 2)) = .go ∧ s.mySwitch 0x1000 false = none ∧
    ((o.cohRead (.slot 0) 0 1 0x1000 16 n).2.toOption.map fun b => (objectOf b).gen) = some 15 ∧
    (o.cohRead (.slot 0) 0 1 0x1000 16 n).1.inOrder (o.barrierAccess 0x1000 false) = true ∧
    (((o.sequence 0 (o.scPage 0 1 0x1000)).cohWrite (.slot 0) 0 1 0x1000 (bytesOf 2 0) .keep { r := true, w := true }).2.isOk = true) ∧
    (s2 o 0x20011000).mySwitch 0x20011000 false = none ∧ (match ((s2 o 0x20011000).cohRead (.slot 0) 0 1 0x20011000 16 n).2 with | .error c => c == 1 | .ok _ => false) = true ∧
    after (exec (.boAdd ⟨2, true⟩ (.lit 2) false) (s2 o 0x20011000)) (fun t => t.me.pc == 0x1000) ∧
    (o.cohRead (.slot 0) 0 1 0x1000 16 n).1.fenced 0 (o.cohRead (.slot 0) 0 1 0x1000 16 n).1.allDies = true ∧
    after (exec (.boInit ⟨2, true⟩ (.lit 2) false) s) (fun t => t.me.pc == 0x1008) ∧
    after (exec (.boAdd ⟨2, true⟩ (.lit 2) false) o) (fun t => t.me.pc == 0x1008) ∧
    after (exec (.boArr 5 ⟨2, true⟩ false) o) (fun t => t.me.reg 5 == 15) ∧
    after (exec (.boWait ⟨2, true⟩ (.lit 14) false) o) (fun t => t.me.pc == 0x1008) := by decide +kernel

/-- The fault queue of die 0 is full: one entry of one, not taken up. -/
def full (s : State) : State := s.modDie 0 fun d => { d with fqTail := 1 }

theorem witness_reports :
    let y := { under (one (.load false true) 8 0 (.s 5 true 8)) line7 with now := 0x01000000 }
    let d := full served
    ((full y).die 0).fqFull = true ∧ ((full y).die 0).reports = [] ∧ (d.die 0).fqFull = true ∧
    after (exec (.syncTimeout 0 1) (full y)) (fun t => (t.die 0).fqTail == 1 && (t.die 0).reports.map (fun e => (e.kind, e.cause)) == [(3, 0x47)]) ∧
    after (exec (.dieLoss 15) d) (fun t => (t.die 0).fqTail == 1 && (t.die 0).reports.map (·.cause) == [0xC0]) ∧
    after (exec (.securityAlarm 3) d) (fun t => (t.die 0).reports.map (·.cause) == [0xC4] && (t.die 7).fqTail == 1) ∧
    after (exec (.linkDown 0) d) (fun t => t.linkDown == 1 && (t.die 0).reports.map (·.cause) == [0xC5]) := by decide +kernel

theorem witness_launch_blocks :
    let s := s2 ({ world usr with tlb := [{ mdie := 11, asid := 1, page := 0, log2 := 0, frame := 0x20000, attr := pteAttr 0x1F }] }) 0x1000
    let g := put8 (put8 s 0x21000 [2 ^ 63 + 0xF000001, 5, 0, 0, 0, 0, 0, 0, 4]) 0x22000 [0, 5]
    let st := g.modMe fun x => { x with accs := [{ one (.store false false) 8 9 .none with id := 0, asid := 1, parts := [{ va := 0x1040, size := 8, lane := 0, data := 9, st := .todo, acks := [] }] }] }
    let n : State := { g.modDie 0 (fun d => { d with cbpool := 0x11000 }) with launches := [(0x10000, four)] }
    g.inOrder (g.readAccess 0x1000 128) = true ∧ ({ st with seq := 1 } : State).inOrder (({ st with seq := 1 } : State).readAccess 0x1000 128) = false ∧
    n.freeBlock 0 = none ∧
    (match ((s2 s 0x20011000).cohRead (.slot 0) 0 1 0x20011000 64 { r := true, u := true }).2 with | .error c => c == 1 | .ok _ => false) = true ∧
    after (exec (.launch ⟨2, true⟩) { st with seq := 1 }) (fun t => t.me.pc == 0x1000) ∧
    after (exec (.launch ⟨2, true⟩) n) (fun t => t.me.pc == 0x1000 && t.launches.length == 1) := by decide +kernel

theorem witness_yield :
    let s := (pan []).modMe fun x => { x with block := 0x20000 }
    let busy := s.modMe fun x => { x with accs := [{ one (.store false false) 8 9 .none with parts := [{ va := 64, size := 8, lane := 0, data := 9, st := .updating, acks := [] }] }] }
    let crew (l : BitVec 8) : State := (s.modMe fun x => { x with crew := true }).modCrew 0 fun c => { c with live := l }
    s.me.crew = false ∧ s.canLeave 0 = true ∧ (crew 3).liveMembers ((crew 3).crewKey 0) = 2 ∧ (crew 1).liveMembers ((crew 1).crewKey 0) = 1 ∧
    busy.canLeave 0 = false ∧
    after (exec .yield (crew 3)) (fun t => t.saved.isEmpty && t.me.pc == 0x1004) ∧
    after (exec .yield busy) (fun t => t.me.pc == 0x1000) ∧
    after (exec .yield sup) (fun t => t.me.pc == 0x1004) := by decide +kernel

theorem witness_refused_records :
    let r := { rec5 with entry := 3, token := 2 ^ 63 }
    let s := pan [r]
    let l := { four with words := four.words.set 4 0x1000 |>.set 5 77, next := 4, posted := [0, 1, 2, 3] }
    let n : State := { launched l with tlb := [{ mdie := 11, asid := 1, page := 0, log2 := 0, frame := 0x20000, attr := pteAttr 0x1F }] }
    let z : State := (launched { four with next := 2 }).modSlot 16 fun _ => { user with lnch := 0x20000, inst := some 0 }
    (s.selection 0).map (·.entry) = [3] ∧ s.recKernel 0 r = none ∧ (s.recKernel 0 rec5).isSome = true ∧
    n.launchDone 0x20000 l = true ∧ (n.cohWrite (.notice 0x20000) 0 1 0x1000 (toBytes 8 77) .now { w := true, u := true }).2.isOk = true ∧
    z.launchTasks 0x20000 (some 0) = true ∧ z.launchTasks 0x20000 (some 1) = false ∧ (0 : Nat) ∉ z.launches.flatMap (fun x => x.2.posted) ∧
    (∀ r ∈ s.selection 0, s.couldUse 0 16 r = false) ∧ (∃ p ∈ s.usableSlots 0 [] 0 14 none, ∀ r ∈ s.selection 0, s.couldUse 0 p r = false) ∧
    after (exec (.dispatch 0) s) (fun t => (t.die 0).pan.isEmpty && (t.die 0).fqTail == 1 && (t.replies.get? s.seq).any fun x => x.val == 0x88) ∧
    after (exec (.instanceComplete 0x20000) z) (fun t => (t.launches.get? 0x20000).any fun x => x.posted == [1]) ∧
    after (exec (.launchComplete 0x20000) n) (fun t => t.launches.isEmpty && (t.line 1 0x1000).all fun x => x.cur.head? == some 77) ∧
    after (exec (.launchComplete 0x20000) { n with launches := [(0x20000, { l with refused := true })] }) (fun t => t.launches.isEmpty && (t.die 0).fqTail == 1) ∧
    after (exec (.idleDieSteal 0) s) (fun t => (t.die 0).steal.length == 7) := by decide +kernel

/-- A pair that waits at 0x1008 with the masks given. -/
def joined (k l : BitVec 8) : State :=
  (pair.modMe fun x => { x with wait := .rejoin 0x1008 k true }).modSlot 16 fun x => { x with wait := .rejoin 0x1008 l true }

theorem witness_rejoin_masks :
    let j := joined 3 3
    let t := joined 2 2
    (∀ n, n < 8 → (3 : BitVec 8).getLsbD n = true → j.rejoinAt 0 n = some (0x1008, 3)) ∧ j.rejoinGroup 0 1 0x1008 3 = [0, 1] ∧
    t.rejoinGroup 0 1 0x1008 2 = [0, 1] ∧ (joined 0 3).rejoinGroup 0 0 0x1008 0 = [0] ∧ (0 : BitVec 8) ≠ 3 ∧
    after (exec (.rejoin ⟨2, true⟩ (.lit 8)) j) (fun u => (u.crew 0).att == 3) ∧
    after (exec (.rejoin ⟨2, true⟩ (.lit 8)) (pair.modMe fun x => { x with wait := .rejoin 0x1008 3 true })) (fun u => u.me.wait == .rejoin 0x1008 3 true) := by
  decide +kernel

theorem witness_guard_fate :
    let c := cmd [0xF20]
    let on := (queued sup .c c).modMe fun x => { x with g := Vector.replicate 16 .isTrue }
    let gone := queued sup .c { cmd [0x320] with fate := some false }
    c.guard = 15 ∧ c.fate = none ∧ c.started = false ∧ on.me.guard 15 ≠ .unresolved ∧
    (∀ e ∈ engines, ∀ c ∈ (gone.me.engine e).queue, c.fate ≠ some false → c.guard ≠ (3 : GReg).val) ∧
    (∃ e ∈ engines, ∃ c ∈ (on.me.engine e).queue, c.fate ≠ some false ∧ c.guard = (15 : GReg).val) ∧
    after (exec (.gset 15 (.lit 0)) on) (fun t => t.me.guard 15 == .isFalse && (t.me.engine .c).queue.map (·.fate) == [some true]) ∧
    after (exec (.gclr 3) gone) (fun t => t.me.pc == 0x1004) := by decide +kernel

theorem witness_barrier_outcomes :
    let s := s2 { world usr with tlb := [{ mdie := 11, asid := 1, page := 0, log2 := 0, frame := 0x20000, attr := pteAttr 0x01 }] } 0x1000
    let n : Need := { r := true, w := true, u := true }
    (match (s.cohRead (.slot 0) 0 1 0x1000 16 n).2 with | .error c => decide (1 < c) | .ok _ => false) = true ∧
    after (exec (.boAdd ⟨2, true⟩ (.lit 2) false) s) (fun t => t.me.pc == 0x1008 && t.me.late.map (fun l => (l.cause, l.tval)) == [(0x43, 0x1000)]) := by
  decide +kernel

theorem test_sha :
    ofBytes (sha256 [0x61, 0x62, 0x63]).reverse = 0xba7816bf8f01cfea414140de5dae2223b00361a396177a9cb410ff61f20015ad := by
  decide +kernel

theorem witness_digests :
    let s : State := { s2 (world usr) tile5 with feat := 0x200, repl := Vector.replicate 4 (2 ^ 63 + 5 * 2 ^ 10) }
    s.feature 9 = true ∧ replMembers (s.group4 3) = [0, 5] ∧ s.pkg = 0 ∧ s.gateOf 0 (formR [] ⟨2, true⟩ (.lit 3)) = .go ∧
    s.gateOf 0 (formR [.fillS 5] ⟨2, true⟩ (.lit 3)) = .go ∧ tile5.toNat % 2 ^ 24 ≠ 0 ∧ s.digesting s.me.tid s.seq = false ∧
    s.ends = [] ∧ s.digests = [] ∧ s.outstanding 0 < 32 ∧
    after (exec (.digestAdd ⟨2, true⟩ (.lit 3)) s) (fun t => t.tiles.length == 1 && t.me.pc == 0x1008) ∧
    after (exec (.digestEnd 5 ⟨2, true⟩ (.lit 3)) s) (fun t => t.ends.length == 1 && !t.me.full 5 && t.me.pc == 0x1008) := by decide +kernel

/-- Slot 0 of address space 1 with bank 3 bound and the array leased to its core, rings 0 and 1 of four full tiles each at tile
slots 0 and 4, ring 15 of 256 with a claimed full tile, and a command at the head of an engine's queue. -/
def array (e : Engine) (c : Cmd) : State :=
  let ring (b n : Nat) : Ring := { conf := true, base := b, len := n, head := 0, avail := 4, claim := 0, kept := [] }
  let s := { queued (world usr) e c with feat := 0xF }
  s.modCluster 0 fun k =>
    { k with
      ringTeam := some (s.team 0),
      rings := [(0, ring 0 4), (1, ring 4 4), (15, { ring 1000 256 with avail := 0, claim := 1 })],
      banks := [(3, { owner := some 0, cells := [(0, 100)], flags := 0 })],
      lease := { holder := some 0, started := 0, idle := some 0, prev := 0 } }

/-- The head command of an engine of slot 0. -/
def head (t : State) (e : Engine) : Option Cmd := ((t.slot 0).engine e).queue.head?

theorem witness_engine_instructions :
    let c := cmd [0x08]
    let s := queued usr .c c
    let k : State := (s2 usr 1).modMe fun x => { x with use := .skim, skim := some { owner := 16, bank := 0, row := 3, tag := 9, dest := List.range 32 } }
    let b := array .m c
    s.gateOf 0 { srcs := [.v 31 true], dsts := [.s 5], lit := false } = .go ∧ s.role 0 5 = .plain ∧ (s.me.engine .c).queue.length < 8 ∧
    s.gateOf 0 (formA [] ⟨2, true⟩) = .go ∧ s.gateOf 0 (form0 [.s 5]) = .go ∧ s.gateOf 0 (formB [.s 5] (.lit 4)) = .go ∧
    usr.bankHeld 0 = none ∧ b.bankHeld 0 = some 3 ∧ (queued b .m c).me.engine .m ≠ (usr.me.engine .m) ∧ k.me.replied = false ∧ k.gateOf 0 (formB [] (.lit 2)) = .go ∧
    k.me.vFull = BitVec.allOnes 32 ∧ (List.range 32).Nodup ∧ k.quietTask 0 = true ∧ (k.me.engine .g).queue = [] ∧ (k.cluster 0).locked 0 = false ∧
    after (exec (.cpushC 5 ⟨31, true⟩ true) s) (fun t => t.me.reg 5 == 2 && (t.me.engine .c).queue.length == 2) ∧
    after (exec (.cwaitC ⟨2, true⟩) (s2 s 2)) (fun t => t.me.cause == 0xA0) ∧
    after (exec (.cwaitC ⟨2, true⟩) (s2 s 1)) (fun t => t.me.pc == 0x1000) ∧
    after (exec (.cwaitC ⟨2, true⟩) (s2 s 0)) (fun t => t.me.pc == 0x1004) ∧
    after (exec (.cseqC 5) s) (fun t => t.me.reg 5 == 0) ∧
    after (exec (.abind 5 (.lit 5)) usr) (fun t => t.me.cause == 0xA2) ∧
    after (exec (.abind 5 (.lit 4)) usr) (fun t => t.me.wait == .abind usr.seq 4 0) ∧
    after (exec (.abind 5 (.lit 4)) b) (fun t => t.me.reg 5 == 3) ∧
    after (exec .arel usr) (fun t => t.me.pc == 0x1004) ∧
    after (exec .arel { b with slots := usr.slots }) (fun t => t.me.pc == 0x1004 && ((t.cluster 0).bank 3).owner == none) ∧
    after (exec .arel b) (fun t => t.me.pc == 0x1000) ∧
    after (exec (.skimRow 5) usr) (fun t => t.me.cause == 0xA4) ∧
    after (exec (.skimRow 5) k) (fun t => t.me.reg 5 == 0x900000003) ∧
    after (exec (.skimEnd 30 (.lit 3)) usr) (fun t => t.me.cause == 0xA4) ∧
    after (exec (.skimEnd 30 (.lit 2)) k) (fun t => (t.slot 0).use == .free && (t.cluster 0).full 31) := by decide +kernel

theorem witness_rings :
    let cfg := cmd [0x10, 14, 2047, 1]
    let adv := cmd [0x11, 0, 4]
    let rst := cmd [0x12, 0]
    (array .m cfg).headCmd 0 .m = .go cfg ∧ (array .m adv).headCmd 0 .m = .go adv ∧ (array .m rst).headCmd 0 .m = .go rst ∧
    (array .m cfg).ctrl.quiet = false ∧ ((array .m cfg).die 0).quiet = false ∧ (array .m cfg).up.getLsbD 0 = true ∧
    (((array .m cfg).cluster 0).ring 14).conf = false ∧ ((array .m cfg).cluster 0).ringTeam = some ((array .m cfg).team 0) ∧
    (((array .m adv).cluster 0).ring 0).avail = 4 ∧ (((array .m adv).cluster 0).ring 0).claim = 0 ∧
    after (exec (.ringCfg 0 .m) (array .m cfg)) (fun t => ((t.cluster 0).ring 14).base == 2047 && head t .m == none) ∧
    after (exec (.ringCfg 0 .m) (array .m (cmd [0x10, 14, 0, 257]))) (fun t => (t.slot 0).posted.length == 1) ∧
    after (exec (.ringAdv 0 .m) (array .m adv)) (fun t => ((t.cluster 0).ring 0).avail == 0 && ((t.cluster 0).ring 0).head == 0) ∧
    after (exec (.ringReset 0 .m) (array .m rst)) (fun t => ((t.cluster 0).ring 0).avail == 0) ∧
    ((array .m cfg).cluster 0).tileFull (1000 + (0 + 0) % 256) = true ∧
    after (exec (.ringTilePublish 0 15) (array .m cfg)) (fun t => ((t.cluster 0).ring 15).avail == 1) := by decide +kernel

theorem witness_matrix :
    let mma := cmd [0x10004]
    let zero := cmd [0x08]
    let drain := cmd [0x09, 0, 64, 2]
    let rows := { drain with started := true, rows := [(255, 0), (3, 1)] }
    let s := array .m mma
    let w := s.modSlot 16 fun _ => { user with wait := .abind 7 0 0 }
    let i : State := { s with now := 64 }
    s.headCmd 0 .m = .go mma ∧ (array .m zero).headCmd 0 .m = .go zero ∧ (array .m drain).headCmd 0 .m = .go drain ∧ s.mayUseArray 0 = true ∧
    (s.cluster 0).mmaReady mma = true ∧ ((s.cluster 0).ring mma.ringB).front 4 = [4, 5, 6, 7] ∧ (s.cluster 0).spBad 0 4096 = false ∧
    (s.cluster 0).spGone 0 4096 = false ∧ (s.cluster 0).locks = [] ∧ (s.kernel 0 1 2).any (·.skim) = true ∧
    (s.slot 14).vacant = true ∧ w.abindFits 16 0 = true ∧ (s.cluster 0).lease.idle = some 0 ∧
    after (exec (.mmaI8 0) s) (fun t => (head t .m).any (·.started) && ((t.cluster 0).bank 3).cells.getD 0 7 == 100) ∧
    after (exec (.mzero 0) (array .m zero)) (fun t => ((t.cluster 0).bank 3).cells.isEmpty) ∧
    after (exec (.mdrain 0) (array .m drain)) (fun t => (head t .m).any (·.started)) ∧
    after (exec (.mdrainRowRead 0) (array .m rows)) (fun t => (t.slot 14).use == .skim && (head t .m).any fun c => c.rows == [(3, 1)]) ∧
    after (exec (.abindGrant 16) w) (fun t => ((t.cluster 0).bank 0).owner == some 16 && (t.slot 16).wait == .none) ∧
    after (exec (.arrayLeaseIdleEnd 0) i) (fun t => (t.cluster 0).lease.holder == none) ∧
    after (exec (.arrayLeaseGrant 0) (s.modCluster 0 fun k => { k with lease := { k.lease with holder := none } })) (fun t => (t.cluster 0).lease.holder == some 0) := by
  decide +kernel

theorem witness_command_end :
    let c := cmd [0x25]
    let on := { cmd [0x24] with started := true, flags := 5 }
    let pop := { on with words := [0x10004], loaded := true, pops := [(0, 1)] }
    let p := (array .m pop).modCluster 0 fun k => { k with rings := k.rings.take 2 }
    (array .c c).cmdLegal .c c = false ∧ (array .c c).me.guard 0 = .isTrue ∧ (array .c c).me.guard 1 = .unresolved ∧
    (array .c c).me.posted.length < 5 ∧ (p.cluster 0).lease.started = 0 ∧ (∀ j < 16, ((p.cluster 0).ring j).claim = 0) ∧
    after (exec (.commandEnd 0 .c) (array .c c)) (fun t => (t.slot 0).posted.length == 1 && head t .c == none) ∧
    after (exec (.commandEnd 0 .c) (array .c (cmd [0x124]))) (fun t => (head t .c).isSome) ∧
    after (exec (.commandEnd 0 .c) ((array .c (cmd [0x124])).modMe fun x => { x with g := Vector.replicate 16 .isFalse })) (fun t => head t .c == none && (t.slot 0).posted.isEmpty) ∧
    after (exec (.commandEnd 0 .c) (array .c { on with fail := some (0xA5, 0) })) (fun t => (t.slot 0).posted.length == 1) ∧
    after (exec (.commandEnd 0 .c) (array .c { on with loaded := true })) (fun t => (t.slot 0).flags == 5 && (t.slot 0).posted.isEmpty) ∧
    after (exec (.commandEnd 0 .m) p) (fun t => head t .m == none) := by decide +kernel

theorem witness_copies :
    let sp := 0x10000000
    let copy := cmd [0x20, 0x7FFFF8, sp, 0x40, 0, 8]
    let two := cmd [0x21, 0, 0, 0x40, sp, 8, 0x80008, 2]
    let fill := cmd [0x24, 0x40, sp, 8, 0x01020304]
    let piece : Put := { sp := true, dst := 0x40, n := 8, src := .bytes [1, 2, 3, 4, 5, 6, 7, 8] }
    let q := cmd [0x22, 0x40, sp, 0, 0, 1]
    (array .c copy).headCmd 0 .c = .go copy ∧ (array .c two).headCmd 0 .c = .go two ∧ (array .c fill).headCmd 0 .c = .go fill ∧
    (array .c q).headCmd 0 .c = .go q ∧ (array .c copy).copyRoom 0 = true ∧ (array .c copy).gatherRoom 0 = true ∧
    loc copy 1 + 8 = 2 ^ 23 ∧ locSpace copy 1 = 1 ∧ locSpace copy 3 = 0 ∧
    after (exec (.copy 0) (array .c copy)) (fun t => (head t .c).any fun c => c.loaded && c.out.length == 1) ∧
    after (exec (.copy 0) (array .c (cmd [0x20, 0, sp, 0x40, 0, 0]))) (fun t => (t.slot 0).posted.length == 1) ∧
    after (exec (.copy2 0) (array .c two)) (fun t => (head t .c).any fun c => c.out.length == 2 && !(t.cluster 0).full 16) ∧
    after (exec (.tfill 0) (array .c fill)) (fun t => (head t .c).any fun c => c.out.length == 1 && !(t.cluster 0).full 17) ∧
    after (exec (.tfill 0) (array .c { fill with started := true, loaded := true, out := [piece] })) (fun t => (t.cluster 0).spWord 17 == 0x08070605 && (head t .c).any (·.out.isEmpty)) ∧
    after (exec (.copyQ 0) (array .c q)) (fun t => (head t .c).any (·.started)) := by decide +kernel

theorem witness_version_copies :
    let load := cmd [0x23, 5, 0x100000, 0x1000, 0x10000000]
    let store := cmd [0x2023, 5, 0x100000, 0x7FF000, 0x10000000, 0xFFFF]
    (array .c load).headCmd 0 .c = .go load ∧ (array .c store).headCmd 0 .c = .go store ∧ ((array .c load).engHandle 0 1 tile5).isOk = true ∧
    BitVec.ofNat 64 (word load 1 + 2 ^ 32 * word load 2) = tile5 ∧ ((array .c store).cluster 0).spGone 0x7FF000 4096 = false ∧
    after (exec (.copyVLoad 0) (array .c load)) (fun t => t.tiles.length == 1 && !(t.cluster 0).full 1024) ∧
    after (exec (.copyVStore 0) (array .c store)) (fun t => t.tiles.length == 1 && (t.cluster 0).locked 2047) := by decide +kernel

theorem witness_gather :
    let sp := 0x10000000
    let g := cmd [0x30, 0, sp, 0x100, 2, 4, 0x200]
    let d := cmd [0x31, 0, sp, 0x80000000, 0x200, 0x10001, 0x300]
    let m := cmd [0x32, 0x100, 0x200, 0x7FFFF8, 0x0]
    (array .g g).headCmd 0 .g = .go g ∧ (array .g d).headCmd 0 .g = .go d ∧ (array .g m).headCmd 0 .g = .go m ∧
    ((array .g m).cluster 0).spPoison = [] ∧ ((array .g m).cluster 0).retired = [] ∧ topOk (((array .g m).cluster 0).topAt 0x100 1) = true ∧
    after (exec (.gather 0) (array .g g)) (fun t => (head t .g).any fun c => c.out.length == 2 && c.loaded) ∧
    after (exec (.gdist 0) (array .g d)) (fun t => (head t .g).any (·.started)) ∧
    after (exec (.topkMerge 0) (array .g m)) (fun t => (head t .g).any fun c => c.out.length == 2 && c.loaded) := by decide +kernel

theorem witness_fault_messages :
    let f (m : FaultMsg) : State := { world usr with faultMsgs := [(3, m)] }
    let e : Merge := { router := 7, asid := 1, page := 5, ports := [2], first := fault5 7 2 }
    let full : State := { f (fault5 7 3) with merges := List.replicate 64 { e with page := 6 } }
    routerSize 7 = 64 ∧ (f (fault5 7 3)).faultHome 1 5 = 4 ∧ ((f (fault5 7 3)).die 4).fqFull = false ∧ (f (fault5 7 3)).merge 7 1 5 = none ∧
    after (exec (.faultMessage 3) { f (fault5 7 3) with merges := [e] }) (fun t => t.faultMsgs.isEmpty && (t.merge 7 1 5).any (fun m => m.ports.contains 3 && m.ports.contains 2) && t.merged.length == 1) ∧
    after (exec (.faultMessage 3) full) (fun t => t.faultMsgs.length == 1 && t.merges.length == 64) ∧
    after (exec (.faultMessage 3) (f (fault5 127 3))) (fun t => (t.faultMsgs.map fun m => (m.2.router, m.2.port)) == [(135, 15)]) ∧
    after (exec (.faultMessage 3) (f (fault5 135 3))) (fun t => (t.faultMsgs.map fun m => (m.2.router, m.2.port)) == [(137, 3)]) ∧
    after (exec (.faultMessage 3) (f (fault5 137 3))) (fun t => (t.faultMsgs.map fun m => (m.2.router, m.2.port)) == [(132, 16)]) ∧
    after (exec (.faultMessage 3) (f (fault5 136 3))) (fun t => (t.faultMsgs.map fun m => (m.2.router, m.2.port)) == [(137, 4)]) ∧
    after (exec (.faultMessage 3) (f (fault5 132 3))) (fun t => t.faultMsgs.isEmpty && (t.die 4).fqTail == 1) := by decide +kernel

theorem witness_wakes :
    let w (r : Nat) (l : List Nat) : State :=
      { world usr with wakes := [(3, { router := r, asid := 1, page := 5, ref := true })], merges := [{ router := r, asid := 1, page := 5, ports := l, first := fault5 r 2 }] }
    let v : Saved := { x := { user with block := 0x20000 }, pos := 0, tiles := [], held := false, mates := [], bank := false, fault := some { cause := 0x40, addr := 0x50000, id := none, refused := false }, waits := none, fates := [] }
    let d : State := { w 7 [2] with
      merged := [{ router := 7, asid := 1, page := 5, who := .task 0x20000, entry := 0, seq := 0 }],
      collects := [{ die := 0, asid := 1, page := 5, ref := true, pending := [7], got := [] }],
      saved := [(0x20000, v)] }
    (w 7 [2]).merge 7 1 5 = some { router := 7, asid := 1, page := 5, ports := [2], first := fault5 7 2 } ∧ (w 7 [2]).merge 7 1 4 = none ∧
    after (exec (.wake 3) { w 7 [2] with merges := [] }) (fun t => t.wakes.isEmpty) ∧
    after (exec (.wake 3) (w 136 [3, 4])) (fun t => t.merges.isEmpty && (t.wakes.map (·.2.router)) == [131, 137]) ∧
    after (exec (.wake 3) (w 128 [15, 16])) (fun t => t.merges.isEmpty && (t.wakes.map (·.2.router)).contains 15 && (t.wakes.map (·.2.router)).contains 136) ∧
    after (exec (.wake 3) d) (fun t => t.merged.isEmpty && t.collects.isEmpty && t.recs.length == 1 && (t.saved.get? 0x20000).any fun u => u.x.block == 0x20000 && u.fault.any (·.refused)) := by
  decide +kernel

theorem witness_preempt :
    let p (s : State) (w : Word) : State := s.modDie 0 fun d => { d with preempt := w, pres := 2 ^ 63 }
    let crew : State := (p usr 0).modMe fun x => { x with crew := true }
    (p usr 0).preemptible 0 = true ∧ (p (usr.modMe fun x => { x with halted := true }) 0).preemptible 0 = false ∧ crew.me.crew = true ∧
    after (exec (.preemptRequest 0) usr) (fun t => t.slots.length == usr.slots.length) ∧
    after (exec (.preemptRequest 0) (p sup 0)) (fun t => (t.die 0).pres.toNat / 2 ^ 60 == 1) ∧
    after (exec (.preemptRequest 0) (p usr (4 * 13))) (fun t => (t.die 0).pres.toNat / 2 ^ 60 == 2) ∧
    after (exec (.preemptRequest 0) (p usr (4 * 2047))) (fun t => (t.die 0).pres.toNat / 2 ^ 60 == 2) ∧
    after (exec (.preemptRequest 0) (p usr (2 ^ 25))) (fun t => (t.die 0).pres.toNat / 2 ^ 60 == 4) := by decide +kernel

theorem witness_debug_operations :
    let d (s : State) (w : Word) : State := s.modDie 0 fun d => { d with dbgctl := 2 ^ 63 + w }
    let h : State := usr.modMe fun x => { x with halted := true, dirtyS := 5 }
    usr.me.live = true ∧ ((d usr 0x1800000000000000).die 0).dbgctl.getLsbD 59 = true ∧ h.me.block = 0 ∧
    after (exec (.debugHalt 0) (d usr 0x1800000000000000)) (fun t => t.me.halted && t.me.ehold && (t.die 0).dbgctl.getLsbD 63 == false) ∧
    after (exec (.debugHalt 0) (d usr 0x1000000000000004)) (fun t => (t.die 0).dbgctl.toNat / 2 ^ 56 % 8 == 1) ∧
    after (exec (.debugResume 0) (d usr 0x2000000000000000)) (fun t => (t.die 0).dbgctl.toNat / 2 ^ 56 % 8 == 3) ∧
    after (exec (.debugResume 0) (d h 0x2000000000000000)) (fun t => !t.me.halted) ∧
    after (exec (.debugStep 0) (d h 0x3000000000000000)) (fun t => !t.me.halted && t.me.stepOne) ∧
    after (exec (.debugSnap 0) (d h 0x4000000000000000)) (fun t => (t.die 0).dbgctl.toNat / 2 ^ 56 % 8 == 1) ∧
    after (exec (.debugSnap 0) (d h 0x3000000000000000)) (fun t => (t.die 0).dbgctl.getLsbD 63) := by decide +kernel

theorem witness_purge :
    let p (m : Name) : State := { world usr with names := [(key5, m)] }.modDie 0 fun d => { d with vpurge := 2 ^ 63 + 1 }
    ((p (name5 [])).die 0).vpurge.toNat % 2 ^ 12 = 1 ∧ ((world usr).die 0).vpurge.getLsbD 63 = false ∧
    after (exec (.vpurgeDone 0) (p (name5 []))) (fun t => t.names.isEmpty && (t.die 0).vpurge.toNat / 2 ^ 24 % 2 ^ 20 == 0 && !(t.die 0).vpurge.getLsbD 63) ∧
    after (exec (.vpurgeDone 0) (p (name5 [(0, vslot 5 2 true)]))) (fun t => t.names.length == 1 && (t.die 0).vpurge.toNat / 2 ^ 24 % 2 ^ 20 == 1) := by
  decide +kernel

/-- A package with a migration descriptor of page 0 of address space 1, to a frame. -/
def moving (dest : Nat) (m : Option Move) : State :=
  (put8 { world usr with feat := 0x7FF } 0x60000 [1, dest]).modDie 0 fun d => { d with migq := 0x60001, migTail := 1, mig := m }

theorem witness_migration :
    let m : Move := { desc := 0, asid := 1, page := 0, dest := 0x200000, src := 0x20000, copied := false }
    (moving 0x200000 none).moveCodes 0 1 0x200000 0 = [] ∧ (moving 0x200001 none).moveCodes 0 1 0x200001 0 ≠ [] ∧
    ((moving 0x200000 none).die 0).migHead ≠ ((moving 0x200000 none).die 0).migTail ∧ (moving 0x200000 none).locked 1 0 = false ∧
    (moving 0x200000 none).leafOf 0 1 0 = some (2, 0x40000, 0x2001F) ∧ (moving 0x200000 none).pageBusy 1 0 = false ∧
    after (exec (.migrationMove 0) (moving 0x200000 none)) (fun t => (t.die 0).mig == some m && t.locks == [(1, 0, 1)]) ∧
    after (exec (.migrationMove 0) (moving 0x200001 none)) (fun t => (t.die 0).mig == none && (t.die 0).migHead == 1 && t.locks.isEmpty) ∧
    after (exec (.migrationSwitch 0) { moving 0x200000 (some { m with copied := true }) with locks := [(1, 0, 1)] }) (fun t => (t.die 0).mig == none && t.locks.isEmpty) ∧
    after (exec (.migrationSwitch 0) (moving 0x200000 (some m))) (fun t => (t.die 0).mig == some m) := by decide +kernel

theorem witness_host_registers :
    let s := served
    let w (off : Nat) : Instr := .hostRegisterWrite off 8 5
    s.serves = true ∧ usr.serves = false ∧ s.accepted = false ∧ s.pkgSet = false ∧ s.held = [] ∧
    after (exec (.feataccStage 2 5) s) (fun t => t.staged.toList == [0, 0, 5]) ∧
    after (exec (.feataccCommit 5) s) (fun t => t.accepted && t.feat.getLsbD 0) ∧
    after (exec (.pkgnumWrite 1029) s) (fun t => t.pkg == 5 && t.pkgSet) ∧
    after (exec (.hostRegisterWrite 0x40 4 5) s) (fun t => t.pkg == 0) ∧
    after (exec (w 0x44) s) (fun t => t.pkg == 0) ∧ after (exec (w 0x18) s) (fun t => !t.accepted) ∧
    after (exec (w 0x30) s) (fun t => t.staged.toList == [0, 0, 5]) ∧ after (exec (w 0x38) s) (·.accepted) ∧
    after (exec (w 0x40) s) (fun t => t.pkg == 5) ∧ after (exec (w 0x47F8) s) (fun t => t.route.getD 1020 0 == 5) ∧
    after (exec (w 0x4878) s) (fun t => t.switches.has 960 && t.switches.has 962 && !t.switches.has 961) ∧
    after (exec (w 0x11FF8) s) (fun t => ((t.nvmeTab.getD 255 (Vector.replicate 4 0)).toList.getD 3 0) == 5) ∧
    after (exec (w 0x3FFF8) s) (fun t => (t.watch 4095).w3 == 5) ∧
    after (exec (w 0x100090) s) (fun t => t.window.isEmpty) ∧ after (exec (w 0x10FF88) s) (fun t => winWord t 255 17 == 5) := by decide +kernel

/-- A watch of the word at 0x2038 of address space 1. -/
def watched (w0 : Word) (hi : Nat) (armed due : Bool) : State :=
  { served with watches := [(7, { w0 := w0, w1 := BitVec.ofNat 64 (hi * 2 ^ 60 + 1), w2 := 0x9000, w3 := 6, st := 0, armed := armed, due := due, checking := false })],
                tlb := [{ mdie := 11, asid := 1, page := 0, log2 := 0, frame := 0x20000, attr := pteAttr 0x1F }] }

theorem witness_host_watches :
    let s := watched 0x2038 8 false false
    let d := watched 0x2038 13 true true
    s.feature 7 = true ∧ ({ s with feat := 0 } : State).feature 7 = false ∧ s.tiles = [] ∧ s.line 1 0x2038 = none ∧
    (match s.ctx s.hostDie 1 with | .ok _ _ _ _ => true | _ => false) = true ∧ s.xlateTlb 1 0x2038 = .ok 0x22038 (pteAttr 0x1F) ∧
    (pteAttr 0).r = false ∧ ((d.watches.get? 7).map fun w => (d.watchValue 7 w).2) = some (some 0) ∧ s.phys 0x22038 = .dram 10 ∧
    s.farNeeds s.hostDie 0 0x22038 0x22038 .window true = none ∧ s.poisonAt 0x22038 = false ∧
    after (exec (.watchArm 7) { s with feat := 0 }) (fun t => (t.watch 7).st == 4) ∧
    after (exec (.watchArm 7) (watched 0x2039 8 false false)) (fun t => (t.watch 7).st == 0x44) ∧
    after (exec (.watchArm 7) s) (fun t => (t.watch 7).armed) ∧
    after (exec (.watchArm 7) { s with tlb := [{ mdie := 11, asid := 1, page := 0, log2 := 0, frame := 0x20000, attr := pteAttr 0 }] }) (fun t => !(t.watch 7).armed && (t.watch 7).st == 0x43) ∧
    after (exec (.watchDisarm 7) d) (fun t => !(t.watch 7).armed && !(t.watch 7).w1.getLsbD 63) ∧
    after (exec (.watchNotice 7) (watched 0x2038 13 true false)) (fun t => t.hostOut.isEmpty) ∧
    after (exec (.watchNotice 7) d) (fun t => t.hostOut == [.write 1 0x9000 ([6] ++ List.replicate 15 0)] && !(t.watch 7).armed) ∧
    after (exec (.hostCxlMemAccess 0x2203F true [9]) s) (fun t => t.mem.byte 0x2203F == 9) ∧
    after (exec (.hostCxlMemAccess 0x22038 false [0, 0]) s) (fun t => t.hostOut == [.data 0x22038 [0, 0]]) := by decide +kernel

/-- Slot 255 of the record window with words 0, 2, 8 and 16 given. -/
def ringing (w0 w2 w8 w16 : Word) : State :=
  { served with window := [(255, { words := Vector.ofFn fun i => if i.val = 0 then w0 else if i.val = 2 then w2 else if i.val = 8 then w8 else if i.val = 16 then w16 else 0,
                                   done := true, code := 0, post := none })] }

theorem witness_doorbell :
    let bell : Instr := .doorbell 0 255
    let rung (n : Nat) (t : State) : Bool := (t.winSlot 255).done && (t.winSlot 255).code.toNat == n
    let l := ringing (2 ^ 63 + 0xF000001) 0 4 1
    served.hostDie = 0 ∧ served.upDies ≠ [] ∧ (ringing 0 0 0 0x10001).winSlot 255 ≠ served.winSlot 255 ∧ served.ctx 0 0 = .ok 0x20000 0x6000 0x7000 0x8000 ∧
    served.ctx 0 2 = .invalid ∧ (served.cls 0 1 0).isSome = true ∧ served.cls 0 1 63 = none ∧ served.launchOk 0 1 (Vector.replicate 16 0) = false ∧
    (l.freeBlock (l.keyDie 0)).isSome = (l.keyDie 0 == 0) ∧
    after (exec bell (ringing 0 0 0 0x20001)) (rung 2) ∧ after (exec bell (ringing 0 0 0 0x10000)) (rung 0x46) ∧
    after (exec bell (ringing 0 0 0 0x10002)) (rung 0x46) ∧ after (exec bell (ringing 0 0 0 1)) (rung 0x88) ∧
    after (exec bell (ringing 5 0x3F0000 0 0x10001)) (rung 0x82) ∧
    after (exec bell (ringing 5 1 44 0x10001)) (fun t => !(t.winSlot 255).done && t.recs.any fun m => m.2.r.key == 5 && m.2.r.payload.toList.head? == some 44) := by
  decide +kernel

theorem witness_doorbell_launch :
    let s := served.modDie (served.keyDie 0) fun d => { d with asctx := 0x4000, cbpool := 0x11004 }
    let w : Vector Word 32 := Vector.ofFn fun i => if i.val = 0 then 2 ^ 63 + 0xF000001 else if i.val = 8 then 4 else if i.val = 16 then 1 else 0
    let l : State := { s with window := [(255, { words := w, done := true, code := 0, post := none })] }
    l.hostDie = 0 ∧ (l.freeBlock (l.keyDie 0)).isSome = true ∧
    l.launchOk 0 1 (Vector.ofFn fun i => if i.val = 0 then 2 ^ 63 + 0xF000001 else if i.val = 8 then 4 else 0) = true ∧
    after (exec (.doorbell 0 255) l) (fun t => (t.winSlot 255).done && (t.winSlot 255).code == 0 && t.launches.length == 1 && t.recs.length == 1) := by
  decide +kernel

theorem witness_nvme :
    let p : Put := { sp := true, dst := 0x40, n := 4, src := .later 0 }
    let r : Nvme := { owner := 9, ticket := 1, entry := 255, off := 0, rel := 0, len := 4, since := 0, pages := [12287] }
    let s : State := { queued served .c { cmd [0x20] with started := true, out := [p] } with
      nvme := [(6, r)], nvmeTab := [(255, #v[2 ^ 63, 0, 0, 1])], now := 2 ^ 16 }
    s.findTask 9 = some 0 ∧ s.nvmeWord 255 3 % 2 ^ 32 = 1 ∧ s.ctrl.quiet = false ∧ ((s.slot 0).engine .c).queue.length = 1 ∧
    after (exec (.nvmeCompletion 6 true [1, 2, 3, 4]) s) (fun t => t.nvme.isEmpty && (((t.slot 0).engine .c).queue.head?).any fun c => c.out == [{ p with src := .bytes [1, 2, 3, 4] }]) ∧
    after (exec (.nvmeCompletion 6 true [1, 2, 3]) s) (fun t => t.nvme.length == 1) ∧
    after (exec (.nvmeCompletion 6 false []) s) (fun t => (((t.slot 0).engine .c).queue.head?).any fun c => c.fail == some (0xA3, 0x45)) ∧
    after (exec (.nvmeTimeout 6) s) (fun t => t.nvme.isEmpty && (((t.slot 0).engine .c).queue.head?).any fun c => c.fail == some (0xA3, 0x45)) ∧
    after (exec (.nvmeTimeout 6) { s with now := 2 ^ 16 - 1 }) (fun t => t.nvme.length == 1) := by decide +kernel

theorem witness_attestation :
    after (exec (.attestationRequest (List.replicate 32 7)) served) (fun t => t.hostOut.length == 1) ∧
    after (exec (.attestationRequest (List.replicate 31 7)) served) (fun t => t.hostOut.isEmpty) := by decide +kernel

/-- The instruction of the group package on a header and body is taken, and its next state satisfies a condition. -/
def taken (s : State) (typ : Nat) (h : List Word) (b : List Byte) : Bool :=
  match LinkMsg.parse h b with
  | some m => s.feature 10 && s.pkgSet && !s.ctrl.quiet && m.dpkg == s.pkg && s.up.getLsbD m.ddie && m.typ == typ &&
      m.ok (h.getD 1 0) && (typ == 0x28 || typ == 0x30 || m.dinc == (s.die m.ddie).incarn.toNat)
  | none => false

theorem witness_message_checks :
    let h := hdr 0x03 0 0 0
    let s := grouped
    (LinkMsg.parse h []).isSome = true ∧ taken s 0x03 h [] = true ∧ served.pkgSet = false ∧
    after (exec (.vnote h []) { s with pkg := 1 }) (fun t => (t.die 0).stale == 0) ∧
    after (exec (.vnote h [0]) s) (fun t => (t.die 0).stale == 1) ∧
    after (exec (.vnote (hdr 0x03 0 0 1) []) s) (fun t => (t.die 0).stale == 1) ∧
    after (exec (.vnote h []) (s.modDie 0 fun d => { d with incarn := 2 })) (fun t => (t.die 0).stale == 1) := by decide +kernel

theorem witness_version_messages :
    let v := tile5.toNat
    let r : TileReq := { req .wait .away with home := { home5 with pkg := some 3 } }
    let w (k : TileKind) : State := { grouped with tiles := [(4, { r with kind := k })] }
    let data : List Byte := List.replicate 4352 0x11
    let rec8 : List Byte := (5 : Byte) :: List.replicate 15 0 ++ [1, 0, 0x3F] ++ List.replicate 109 0
    taken grouped 0x01 (hdr 0x01 0 v 0) [] = true ∧ taken grouped 0x04 (hdr 0x04 136 v 7) data = true ∧ taken grouped 0x02 (hdr 0x02 0 v 4) [] = true ∧
    taken grouped 0x05 (hdr 0x05 136 v 0) data = true ∧ taken grouped 0x06 (hdr 0x06 1 v 0x61) (List.replicate 32 0) = true ∧
    taken grouped 0x08 (hdr 0x08 4 0 0) rec8 = true ∧ (grouped.desc 0 1 1).isSome = true ∧ grouped.desc 0 1 2 = none ∧ grouped.routed 3 = true ∧
    (((LinkMsg.parse (hdr 0x05 136 v 0) data).bind (w (.load true 7)).answered).map (·.1)) = some 4 ∧
    ((LinkMsg.parse (hdr 0x05 136 v 0) data).bind grouped.answered).isNone = true ∧
    ((LinkMsg.parse (hdr 0x02 0 v 4) []).map ({ r with kind := .remote 3 1 4 0 0 }.isFrom · 4)) = some true ∧
    (let a := recOfImage rec8; grouped.cls 0 a.asid a.cls = none ∧ (grouped.die 0).place a = some none) ∧
    after (exec (.vreq (hdr 0x01 0 v 0) []) grouped) (fun t => (t.tiles.map fun e => e.2.st == .sent) == [true]) ∧
    after (exec (.vreq (hdr 0x01 0 (v + v) 0) []) grouped) (fun t => (t.sent.map fun x => (x.1, x.2.typ, x.2.q3)) == [(2, 6, 0x43)]) ∧
    after (exec (.vstore (hdr 0x04 136 v 7) data) grouped) (fun t => t.tiles.length == 1) ∧
    after (exec (.vcancel (hdr 0x02 0 v 4) []) (w (.remote 3 1 4 0 0))) (fun t => t.tiles.isEmpty) ∧
    after (exec (.vcancel (hdr 0x02 0 v 4) []) (w (.remote 3 1 5 0 0))) (fun t => t.tiles.length == 1) ∧
    after (exec (.vdata (hdr 0x05 136 v 0) data) (w (.load true 7))) (fun t => (t.tiles.get? 4).any fun r => match r.st with | .delivering d _ => d.head? == some 0x11 | _ => false) ∧
    after (exec (.vdata (hdr 0x05 136 v 0) data) (w .drop)) (fun t => t.tiles.isEmpty) ∧
    after (exec (.vans (hdr 0x06 1 v 0x61) (List.replicate 32 0)) (w .wait)) (fun t => (t.tiles.get? 4).any fun r => r.st == .bad 0x61 0) ∧
    after (exec (.vans (hdr 0x06 1 v 0) (List.replicate 32 0)) (w (.store 7 1))) (fun t => t.tiles.isEmpty) ∧
    after (exec (.recMsg (hdr 0x08 4 0 0) rec8) grouped) (fun t => ((t.die 0).pan.map fun r => (r.key, r.entry)) == [(5, 1)]) := by
  refine ⟨?_, ?_, ?_, ?_, ?_, ?_, ?_, ?_, ?_, ?_, ?_, ?_, ?_, ?_, ?_, ?_, ?_, ?_, ?_, ?_, ?_, ?_, ?_⟩ <;> decide +kernel

theorem witness_page_messages :
    let far : Nat := 2 ^ 54 + 3 * 2 ^ 44 + 0x20000
    let h (typ len q3 : Nat) := hdr typ len 0x20000 q3
    let c (typ len q3 : Nat) := hdr typ len 0x20040 q3
    let b : List Byte := List.replicate 64 9
    let p (md : PageMode) : State := { grouped with pages := [(far / 2 ^ 16, { mode := md, asked := .none, hand := none })] }
    let ask : PageAsk := { pkg := 3, die := 1, inc := 1, tag := 4, write := true }
    let d : PageDir := { readers := [], writer := some 48, asks := [ask], acks := [3] }
    taken grouped 0x10 (h 0x10 0 1) [] = true ∧ taken grouped 0x11 (h 0x11 0 1) [] = true ∧ taken grouped 0x12 (h 0x12 0 0) [] = true ∧
    taken grouped 0x13 (h 0x13 0 1) [] = true ∧ taken grouped 0x14 (c 0x14 0 0) [] = true ∧ taken grouped 0x15 (c 0x15 2 0) b = true ∧
    taken grouped 0x16 (c 0x16 2 0) b = true ∧ taken grouped 0x20 (c 0x20 0 1) [] = true ∧ taken grouped 0x21 (c 0x21 0 1) [] = true ∧
    taken grouped 0x22 (c 0x22 0 15) [] = true ∧ grouped.migrating 2 = false ∧ grouped.linesOf 2 = [] ∧ (d.leaves 3).conflicts ask = [] ∧
    (p .write).farPage far = { mode := .write, asked := .none, hand := none } ∧ PageMode.covers .write true = true ∧ (p .read).hasMode far false = true ∧
    (p .read).handing far = false ∧ grouped.phys 0x20040 = .dram 10 ∧
    after (exec (.pgreq (h 0x10 0 1) []) grouped) (fun t => t.pdir.has 2) ∧
    after (exec (.pgack (h 0x12 0 0) []) { grouped with pdir := [(2, d)] }) (fun t => t.pdir.has 2) ∧
    after (exec (.pgack (h 0x12 0 0) []) grouped) (fun t => t.sent.isEmpty) ∧
    after (exec (.pghand (h 0x11 0 1) []) (p .write)) (fun t => (t.sent.map fun x => (x.1, x.2.typ)) == [(2, 0x12)] && (t.farPage far).mode == .none) ∧
    after (exec (.pggrant (h 0x13 0 1) []) grouped) (fun t => (t.farPage far).mode == .write) ∧
    after (exec (.linerd (c 0x14 0 0) []) grouped) (fun t => (t.sent.map fun x => (x.2.typ, x.2.body.length)) == [(0x15, 64)]) ∧
    after (exec (.linedata (c 0x15 2 0) b) { p .read with lineAsks := [(4, { key := lineKey 1 0x20040, addr := far + 64, die := 0, attr := .window, hint := .dflt })] }) (fun t => t.lineAsks.isEmpty && (t.lines.get? (lineKey 1 0x20040)).any fun l => l.cur.head? == some 9) ∧
    after (exec (.linedata (c 0x15 2 0) b) grouped) (fun t => t.lines.isEmpty) ∧
    after (exec (.linewb (c 0x16 2 0) b) grouped) (fun t => t.mem.byte 0x2007F == 9 && t.mem.byte 0x20080 == 0) ∧
    after (exec (.binit (c 0x20 0 1) []) grouped) (fun t => t.shadows.isEmpty) ∧
    after (exec (.barr (c 0x21 0 1) []) grouped) (fun t => t.shadows.isEmpty) ∧
    after (exec (.brel (c 0x22 0 15) []) grouped) (fun t => t.shadows == [(far + 64, 15)]) := by
  refine ⟨?_, ?_, ?_, ?_, ?_, ?_, ?_, ?_, ?_, ?_, ?_, ?_, ?_, ?_, ?_, ?_, ?_, ?_, ?_, ?_, ?_, ?_, ?_, ?_, ?_, ?_, ?_, ?_, ?_, ?_⟩ <;> decide +kernel

theorem witness_group_messages :
    let e : DigestWait := { tid := 9, die := 0, asid := 1, g := 2, step := 77, d := 0, dst := 5 }
    let s : State := { grouped with repl := Vector.replicate 4 (2 ^ 63 + 3 * 2 ^ 10) }
    let w : State := { s with ends := [e] }
    let b (x : Byte) : List Byte := x :: List.replicate 31 0
    let i : State := { grouped with tiles := [(4, { req (.remote 3 1 4 0 0) .queued with inc := 1 })] }
    taken s 0x28 (hdr 0x28 1 77 2) (b 0) = true ∧ taken s 0x30 (hdr 0x30 0 1 6) [] = true ∧ replMembers (s.group4 2) = [s.pkg, 3] ∧
    w.findTask 9 = some 0 ∧ w.role 0 5 = .plain ∧ (s.die 7).fqFull = false ∧ s.pdir = [] ∧
    after (exec (.digest (hdr 0x28 1 77 2) (b 3)) s) (fun t => (t.digests.map fun x => (x.g, x.step, x.pkg)) == [(2, 77, 3)]) ∧
    after (exec (.digest (hdr 0x28 1 77 2) (b 0)) w) (fun t => t.ends.isEmpty && (t.slot 0).reg 5 == 0 && t.stopped.isEmpty) ∧
    after (exec (.digest (hdr 0x28 1 77 2) (b 3)) w) (fun t => t.ends.isEmpty && t.stopped == [1] && (t.die 7).fqTail == 1) ∧
    after (exec (.incarn (hdr 0x30 0 1 6) []) grouped) (fun t => t.peerInc 3 1 == 6 && t.peerInc 3 0 == 1) ∧
    after (exec (.incarn (hdr 0x30 0 1 6) []) i) (fun t => t.tiles.isEmpty) := by decide +kernel

theorem witness_start_up :
    let s : State := { sup with ctrl := { sup.ctrl with booted := true } }.modDie 7 fun d => { d with fresh := true }
    (Config.imageOk 0 [1] = true ∨ Config.imageOk 0 [1] = false) ∧
    (s.up.getLsbD 7 = true ∧ s.ctrl.quiet = false ∧ (s.slot (1023 * 16 + 15)).use = .free ∧ sup.ctrl.booted = false ∧
    after (exec (.controllerBoot []) sup) (fun t => !t.ctrl.booted) ∧
    after (exec (.supervisorStart 7) s) (fun t => (t.slot 14349).use == .supervisor && (t.slot 14349).priv == 1) ∧
    after (exec (.supervisorStart 7) sup) (fun t => (t.slot 14349).use == .free) ∧
    after (exec (.rakeStart 1023) s) (fun t => (t.slot 16383).use == .rake) ∧
    after (exec (.rakeStart 1023) sup) (fun t => (t.slot 16383).use == .free)) := by
  refine ⟨by cases Config.imageOk 0 [1] <;> simp, ?_⟩
  decide +kernel

theorem witness_reset_and_loss :
    let s : State := { served with ctrl := { served.ctrl with acting := some 8, standby := true } }
    let u : State := { s with ctrl := { s.ctrl with booted := false } }
    let f : State := s.modDie 4 fun d => { d with fqTail := 1 }
    let all := [1, 2, 3, 4, 5, 6, 7, 8, 9, 10, 11, 12, 13, 14, 15]
    s.up.getLsbD 15 = true ∧ (s.upDies.filter (· != 15)).head? = some 0 ∧ (s.die 0).fqFull = false ∧ all.length = 15 ∧
    s.ctrl.booted = true ∧ u.ctrl.booted = false ∧
    after (exec (.dieReset 15) u) (fun t => (t.die 15).incarn == 2 && t.feat == 0x7FF) ∧
    after (exec (.dieReset 8) u) (fun t => t.feat == 1 && !t.pkgSet) ∧
    after (exec (.dieReset 0) u) (fun t => (t.slot 0).use == .free && (t.die 0).wdog == 0x01000000) ∧
    after (exec (.dieReset 16) s) (fun t => t.feat == 0x7FF) ∧
    (f.upDies.filter fun d => decide (d / 4 ≠ 0)).head? = some 4 ∧ (f.die 4).fqFull = true ∧ f.up.getLsbD 9 = true ∧
    9 ≤ (((List.range 16).filter fun d => f.up.getLsbD d).filter fun d => !([8, 0, 1, 2, 3] : List Nat).contains d).length ∧
    after (exec (.dieLoss 8) f) (fun t => t.up == 0xFEF0 && t.linkDown == 0xFF && t.ctrl.acting == some 9 &&
      (t.die 4).reports.map (·.cause) == List.replicate 5 0xC0 ++ List.replicate 8 0xC5) ∧
    after (exec (.dieLoss 15) s) (fun t => t.up == 0x7FFF && (t.die 0).fqTail == 1) ∧
    after (exec (.d2dLinkFailure all) s) (fun t => t.up == 0xFFFE) ∧
    after (exec (.d2dLinkFailure (all.drop 7)) { s with ctrl := { s.ctrl with standby := false } }) (fun t => t.up == 0xFFFF && t.ctrl.quiet && t.ctrl.aer == 3) ∧
    after (exec (.d2dLinkFailure all) served) (fun t => t.up == 0xFFFF) := by decide +kernel

theorem witness_links_and_errors :
    let s := served
    let m : LinkMsg := { typ := 3, dpkg := 3, spkg := 0, ddie := 0, sdie := 0, dinc := 1, asid := 1, sinc := 1, len := 0, tag := 0, q2 := 0, q3 := 0, body := [] }
    let h : State := { grouped with linkDown := 4, held := [m] }
    (s.upDies.find? fun d => d / 4 == 15 / 8) = some 4 ∧ s.linkDown.getLsbD 15 = false ∧ (s.die 4).fqFull = false ∧ h.route.getD 3 0 = BitVec.twoPow 16 2 ∧
    s.phys 0x20040 = .dram 10 ∧ (s.die 7).fqFull = false ∧ s.pol = 0 ∧
    after (exec (.linkDown 15) s) (fun t => t.linkDown == 0x8000 && (t.die 4).fqTail == 1) ∧
    after (exec (.linkDown 15) { s with linkDown := 0x8000 }) (fun t => (t.die 4).fqTail == 0) ∧
    after (exec (.linkUp 2) h) (fun t => t.held.isEmpty && t.sent == [(2, m)] && t.linkDown == 0) ∧
    after (exec (.eccError (15 * 16 + 9) 0 true) s) (fun t => (t.die 15).corr == 1) ∧
    after (exec (.eccError (10 * 16) 0x20040 false) s) (fun t => (t.die 10).trans == 1 && t.memPoison.isEmpty) ∧
    holdsUnit 10 0 0x20040 = true ∧
    after (exec (.eccError (9 * 16) 0x20040 true) s) (fun t => (t.die 9).last == 0) ∧
    after (exec (.eccError 1 0x7FF000 true) s) (fun t => (t.cluster 0).retired.contains 2047 && (t.cluster 0).spPoison.has 0x1FFC00) ∧
    after (exec (.securityAlarm 3) s) (fun t => t.alarms == 8 && (t.die 7).fqTail == 1 && !(t.die 7).quiet) ∧
    after (exec (.securityAlarm 4) s) (fun t => t.alarms == 0) ∧
    after (exec (.securityAlarm 0) { s with pol := 2 }) (fun t => t.ctrl.erased && (t.die 7).quiet) ∧
    after (exec (.clockThrottle true) s) (fun t => t.now == s.now) := by decide +kernel

theorem witness_engine_turns :
    let c := cmd [0x08]
    let q8 : State := usr.modSlot 0 fun x => { x with eng := x.eng.set 1 { Eng.init with p := 8, queue := List.replicate 8 c } }
    let k (t : Nat) : State := ((s2 usr 1).modMe fun x =>
        { x with use := .skim, skim := some { owner := 16, bank := 0, row := 3, tag := 9, dest := [t, t + 1] } }).modCluster 0 fun y => { y with retired := [2] }
    let l := (array .m c).modCluster 0 fun y => { y with lease := { holder := some 0, started := 0, idle := none, prev := 0 } }
    (q8.me.engine .c).open.length = 8 ∧ (array .c (cmd [0x24, 0x40, 0x10000000, 8, 1])).myTurn 0 .c = true ∧
    (array .g (cmd [0x30, 0, 0x10000000, 0x100, 2, 4, 0x200])).myTurn 0 .g = true ∧ (k 2048).me.skim.isSome = true ∧
    ((k 2048).cluster 0).retired.contains (2048 / 1024) = true ∧ (l.cluster 0).lease.holder = some (memberOf l.cur) ∧
    after (exec (.cpushC 5 ⟨31, true⟩ true) q8) (fun t => t.me.pc == 0x1000) ∧
    after (exec (.skimEnd 30 (.lit 17)) (k 0)) (fun t => (t.slot 0).use == .free) ∧
    after (exec .arel { l with slots := usr.slots }) (fun t => (t.cluster 0).lease.holder == none) := by decide +kernel

theorem witness_command_fate :
    let on := { cmd [0x124, 0x40, 0x10000000, 8, 1] with fate := some true }
    let off := { cmd [0x124] with fate := some false }
    let sp := 0x10000000
    let fill := cmd [0x24, 0x40, sp, 8, 0x01020304]
    let piece : Put := { sp := true, dst := 0x40, n := 8, src := .bytes [1, 2, 3, 4, 5, 6, 7, 8] }
    let done := { fill with started := true, loaded := true, wrote := [piece] }
    on.fate = some true ∧ off.fate = some false ∧ fill.paused = false ∧ fill.wrote = [] ∧
    after (exec (.commandEnd 0 .c) (array .c off)) (fun t => head t .c == none && (t.slot 0).posted.isEmpty) ∧
    after (exec (.tfill 0) (array .c on)) (fun t => (head t .c).any (·.started)) ∧
    after (exec (.tfill 0) ((array .c done).modCluster 0 fun k => (k.emptyWord 16).emptyWord 17))
      (fun t => (t.cluster 0).full 16 && (t.cluster 0).full 17 && (head t .c).any (·.wrote.isEmpty)) ∧
    after (exec (.tfill 0) (array .c fill)) (fun t => (t.cluster 0).copyTurn == 1) := by decide +kernel

theorem witness_posted_order :
    PostedBehind { ticket := 2, cause := 0xA3, eng := .c, at_ := 5 }
      [{ ticket := 1, cause := 0xA1, eng := .m, at_ := 4 }, { ticket := 3, cause := 0xA3, eng := .g, at_ := 5 }]
      [{ ticket := 1, cause := 0xA1, eng := .m, at_ := 4 }, { ticket := 2, cause := 0xA3, eng := .c, at_ := 5 },
       { ticket := 3, cause := 0xA3, eng := .g, at_ := 5 }] := by
  refine ⟨[_], [_], rfl, rfl, ?_, ?_⟩ <;> simp [engNum]

theorem witness_host_reads :
    let s := served
    (0x20000 + 32 * 7 + 8) % 32 = 8 ∧ (5 : Word).getLsbD 63 = false ∧ s.tiles = [] ∧ ((s.watch 7).w1.toNat / 2 ^ 52 % 2 ^ 8 = 0) ∧
    s.hostRead 0 8 = 0x7FF ∧ s.hostRead 0 4 = 0 ∧ s.hostRead 0x20 8 = 0x7FF ∧ s.hostRead 0x48 8 = 0xFFFF ∧ s.hostRead 0x50 8 = 0x0001000100010001 ∧
    s.hostRead 0x70 8 = 0 ∧ grouped.hostRead 0x4000 8 = 4 * 2 ^ 48 ∧ s.hostRead 0x100090 8 = 2 ^ 63 ∧ s.hostRead 0x110000 8 = 0 ∧
    after (exec (.hostRegisterWrite (0x20000 + 32 * 7 + 8) 8 0x7FFFFFFFFFFFF005) s) (fun t => (t.watch 7).w1 == 0x7000000000000005) := by decide +kernel

theorem witness_watch_words :
    let d := watched 0x2038 8 true true
    let l := lineKey 1 0x2038
    let st : Line := { line7 with frame := 0x22000, stale := [(3, List.replicate 64 0)] }
    let v := watched 0x2038 12 false false
    (d.watches.get? 7).any (fun w => w.due && w.armed && !w.w1.getLsbD 61) = true ∧ d.line 1 0x2038 = none ∧
    (d.cohRead (.watch 7) d.hostDie 1 0x2038 8 {}).2.isOk = true ∧ ({ d with lines := [(l, st)] } : State).line 1 0x2038 = some st ∧
    d.look d.hostDie 1 0x2038 = .ok 0x22038 (pteAttr 0x1F) ∧ (v.watch 7).w1.getLsbD 62 = true ∧ served.look 0 2 0 = .fail 0x46 ∧
    after (exec (.watchNotice 7) d) (fun t => t.hostOut.length == 1 && !(t.watch 7).due && (t.watch 7).armed) ∧
    after (exec (.watchNotice 7) { d with lines := [(l, st)] }) (fun t => t.hostOut.isEmpty && (t.watch 7).due) := by decide +kernel

theorem witness_host_requests :
    let bell : Instr := .doorbell 0 255
    let w (k : Nat) (x : Word) : State :=
      { served with window := [(255, { words := Vector.ofFn fun i => if i.val = k then x else if i.val = 16 then 0x10001 else 0, done := true, code := 0, post := none })] }
    let code (t : State) : Nat := (t.winSlot 255).code.toNat
    served.farPuts = [] ∧ served.line 0 0x2203F = none ∧ served.locked 0 0x2203F = false ∧
    after (exec bell (w 31 1)) (fun t => code t == 2) ∧ after (exec bell (w 2 (2 ^ 44))) (fun t => code t == 2) ∧
    after (exec bell (w 7 1)) (fun t => code t == 2) ∧ after (exec bell (w 16 0x11001)) (fun t => code t == 2) ∧
    after (exec (.hostCxlMemAccess (2 ^ 44) true [9]) served) (fun t => t.mem.isEmpty == served.mem.isEmpty && t.farPuts.isEmpty) := by decide +kernel

theorem witness_features_and_links :
    let m : LinkMsg := { typ := 3, dpkg := 3, spkg := 0, ddie := 0, sdie := 0, dinc := 1, asid := 1, sinc := 1, len := 0, tag := 0, q2 := 0, q3 := 0, body := [] }
    let g : State := { grouped with repl := Vector.replicate 4 (2 ^ 63 + 3 * 2 ^ 10) }
    let b : List Byte := (3 : Byte) :: List.replicate 31 0
    grouped.linked = true ∧ served.linked = false ∧ ({ g with feat := 0x5FF } : State).feature 9 = false ∧ g.feature 9 = true ∧
    holdsUnit 9 0 0x20040 = false ∧ holdsUnit 0 1 0x7FF000 = true ∧ (∀ e ∈ ([(2, m)] : List (Nat × LinkMsg)), e.1 ≠ 15) ∧
    after (exec (.digest (hdr 0x28 1 77 2) b) { g with feat := 0x5FF }) (fun t => t.digests.isEmpty && (t.die 0).stale == 1) ∧
    after (exec (.eccError (9 * 16) 0x20040 false) served) (fun t => (t.die 9).trans == 0 && (t.die 9).corr == 0) ∧
    after (exec (.dieReset 0) { served with recs := [(3, { coming rec5 with slot := 2048 })], ctrl := { served.ctrl with booted := false } })
      (fun t => (t.die 0).stale == 1) := by decide +kernel

theorem witness_unit_walks :
    let u : UnitWalk := { who := .slot 0, asid := 1, page := 0, walk := 2, failed := none }
    let w (a : WalkAnswer) : State := { walking none (some a) 1 with unitWalks := [u] }
    ((w .malformed).unitWalks.all fun x => x.walk == 2 && x.failed == none) = true ∧
    (∀ a, (walking none none 1).walk 0 1 0 ≠ .far a) ∧
    after (exec (.walkAnswer 2) (w .notPresent)) (fun t => t.unitWalks == [{ u with failed := some 0 }]) ∧
    after (exec (.walkAnswer 2) (w .malformed)) (fun t => t.unitWalks == [{ u with failed := some 0x43 }]) ∧
    after (exec (.walkAnswer 2) (w .poisoned)) (fun t => t.unitWalks == [{ u with failed := some 0x45 }]) ∧
    after (exec (.walkAnswer 2) (w (.leaf 0 0 0x20000 (pteAttr 0x1F)))) (fun t => t.unitWalks.isEmpty && t.tlb.length == 1) := by
  refine ⟨by decide +kernel, fun a h => ?_, by decide +kernel, by decide +kernel, by decide +kernel, by decide +kernel⟩
  have e : (walking none none 1).walk 0 1 0 = .leaf 0 0 0x20000 (pteAttr 0x1F) := by decide +kernel
  rw [e] at h; cases h

/-! ### Further clauses of the statements -/

theorem witness_jumps_more :
    let e := with0 { boss with sFull := boss.sFull &&& ~~~2 }
    TakesTraps jumps ∧ (jumps.fetchWord jumps.cur (jumps.me.pc + 4 + 4 * jumps.sval (formA [] ⟨0, false⟩) 0)).2 = .word 8 ∧
    e.me.full 1 = false ∧ e.gateOf 0 (formA [] ⟨4, false⟩) = .go ∧
    after (exec (.callReg ⟨4, false⟩) e) (fun t => t.me.pc == 0x1000) ∧
    after (exec (.jr ⟨4, false⟩) e) (fun t => t.me.pc == 0x1004) := by
  unfold TakesTraps; decide +kernel

/-- Worked example of chapter 03: near 3, E4M3 values lie 0.25 apart, so that 3.125 is a tie. -/
theorem witness_rounding :
    (Fp.e4m3, 0x7E) ∈ formats ∧ (25 : Nat) ≠ 0 ∧ Fp.round Fp.e4m3 .rne false 25 (-3) = (0x44, Fp.NX) ∧
    Rounded Fp.e4m3 0x7E .rne false (fun q => cmpScaled q (25, -3)) (0x44, Fp.NX) ∧
    Rounded Fp.e4m3 0x7E .rna false (fun q => cmpScaled q (25, -3)) (0x45, Fp.NX) ∧
    Rounded Fp.e4m3 0x7E .rup false (fun q => cmpScaled q (1, 20)) (0x7E, Fp.OF ||| Fp.NX) ∧
    Rounded Fp.f16 0x7BFF .rne true (fun q => cmpScaled q (1, -26)) (0x8000, Fp.UF ||| Fp.NX) := by
  refine ⟨by decide +kernel, by decide, by decide +kernel, ⟨0x44, 0x4C, ?_⟩, ⟨0x45, 0x4D, ?_⟩, ⟨27 * 8, 28 * 8, ?_⟩, ⟨0, 0, ?_⟩⟩ <;>
    unfold Picks <;> decide +kernel

theorem witness_fpcsr :
    let r := with0 { boss with accs := [one (.atomic (.fadd 0) 0) 4 1 .none] }
    (0x5 : Word).extractLsb' 0 3 = 5 ∧ sup.me.accs.any Access.raises = false ∧ r.me.accs.any Access.raises = true := by decide +kernel

/-- Tile slot 2047 of cluster 0 is retired. -/
def worn (s : State) : State := s.modCluster 0 fun c => { c with retired := [2047] }

theorem witness_scratch_checks :
    let l : List Instr := [.ldSp 5 ⟨2, false⟩ .b8 0, .ldSpN 5 ⟨2, false⟩ .b4 0, .ldsync 5 ⟨2, false⟩ false true 0, .vldSp 5 ⟨2, false⟩ 0,
      .stSp 3 ⟨2, false⟩ .b8 0, .vstSp 3 ⟨2, false⟩ 0, .stfill ⟨2, false⟩ (.lit 9) false true]
    (∀ i ∈ l, (spAccess i sup).any (fun z => sup.gateOf 0 z.1 == .go && z.2.1 == 7) = true) ∧ ¬ Roomy busy ∧
    (∀ i ∈ l, after (exec i (s2 sup 0x800000)) (fun t => t.me.cause == 0x43 && t.me.tval == 0x800000) &&
      after (exec i (s2 sup 6)) (fun t => t.me.cause == 0x44 && t.me.tval == 6) &&
      after (exec i (s2 (worn sup) 0x7FFFC0)) (fun t => t.me.cause == 0x45 && t.me.tval == 0x7FFFC0) &&
      after (exec i (s2 busy 64)) (fun t => t.me.pc == 0x1000) = true) := by
  unfold Roomy; decide +kernel

theorem witness_lane_checks :
    let g (sp : Bool) (b : VOpd) : Instr := .vgather 1 ⟨2, true⟩ b 0 sp
    let p (sp : Bool) (b : VOpd) : Instr := .vscatter 1 ⟨2, true⟩ b 0 sp
    let both (c tval : Nat) (sp : Bool) (b : VOpd) (s : State) : Bool := [g sp b, p sp b].all fun i =>
      after (exec i s) fun t => t.me.cause.toNat == c && t.me.tval.toNat == tval
    let n : State := { usr.modDie 0 fun d => { d with asctx := 64 } with memPoison := [(2, true)] }
    let one15 (s : State) : State := s.modMe fun x => { x with v := x.v.set 2 (BitVec.ofNat 512 (0x200000 * 2 ^ 480)) }
    sup.gateOf 0 { srcs := lref ⟨2, true⟩ :: brefV (.lit 5), dsts := [.fillV 1], lit := true } = .go ∧ usr.me.asid ≠ 0 ∧
    usr.ctx 0 1 = .invalid ∧ n.ctx 0 1 = .poisoned ∧ InContext sup ∧
    both 0x46 7 false (.lit 5) usr = true ∧ both 0x45 7 false (.lit 5) n = true ∧
    both 0x43 0x800000 true (.reg ⟨2, false⟩) (one15 (s2 sup 0)) = true ∧
    both 0x43 (2 ^ 56) false (.lit 1) (s2 sup (2 ^ 56 - 4)) = true ∧
    both 0x44 7 true (.lit 0) sup = true ∧ both 0x44 7 false (.lit 0) sup = true ∧
    both 0x45 0x7FFFC0 true (.lit 0) (s2 (worn sup) 0x7FFFC0) = true ∧
    ([g true (.lit 0), p false (.lit 0)].all fun i => after (exec i (s2 busy 64)) fun t => t.me.pc == 0x1000) = true := by
  refine ⟨?_, ?_, ?_, ?_, .inl ?_, ?_⟩ <;> decide +kernel

theorem witness_clrfe_checks :
    let i (n : Nat) (mem : Bool) : Instr := .clrfe ⟨2, true⟩ (.lit (BitVec.ofNat 32 n)) mem
    let n : State := { usr.modDie 0 fun d => { d with asctx := 64 } with memPoison := [(2, true)] }
    let traps (c : Nat) (i : Instr) (s : State) : Bool := after (exec i s) fun t => t.me.cause.toNat == c && t.me.tval == s.me.reg 2
    sup.gateOf 0 (formR [] ⟨2, true⟩ (.lit 8)) = .go ∧ usr.ctx 0 1 = .invalid ∧ n.ctx 0 1 = .poisoned ∧
    traps 0x46 (i 4 true) usr ∧ traps 0x45 (i 4 true) n ∧ traps 0x44 (i 4 true) sup ∧ traps 0x44 (i 4100 true) (s2 sup 4096) ∧
    traps 0x44 (i 8 true) (s2 sup 4092) ∧ traps 0x43 (i 8 true) (s2 sup (2 ^ 56)) ∧
    after (exec (i 8 true) (s2 busy 64)) (fun t => t.me.pc == 0x1000) ∧
    traps 0x44 (i 4 false) sup ∧ traps 0x43 (i 8 false) (s2 sup 0x800000) ∧ traps 0x45 (i 4 false) (s2 (worn sup) 0x7FF000) ∧
    after (exec (i 8 false) (s2 busy 64)) (fun t => t.me.pc == 0x1000) := by decide +kernel

theorem witness_prefetch_more :
    let cut : State := (near { line7 with present := [1] }).modDie 0 fun d =>
      { d with memcfg := 7, fenced := List.replicate 8192 (3, lineKey 0 0x2000) }
    let t : State := { world usr with tlb := [{ mdie := 11, asid := 1, page := 0, log2 := 0, frame := 0x20000, attr := pteAttr 0x1F }] }
    (near line7).l2Room 0 (lineKey 0 0x2000) = true ∧ cut.l2Room 0 (lineKey 0 0x2000) = false ∧
    t.xlateTlb 1 0x2000 = .ok 0x22000 (pteAttr 0x1F) ∧ t.l2Room 0 (lineKey 1 0x2000) = true ∧ t.l3Room 0x2000 = true ∧
    (world usr).xlateTlb 1 0x2000 = .miss ∧ (world usr).unitWalks = [] ∧ sup.xlateTlb 0 (2 ^ 39) = .fail 0x43 ∧
    after (exec (.pref ⟨2, false⟩) cut) (fun u => u.prefs.length == 1 && u.lines.length == 1) ∧
    after (exec (.prefSk ⟨2, false⟩) (s2 (world usr) 0x2000)) (fun u => u.unitWalks.map (·.page) == [0] && u.prefs.length == 1) := by
  decide +kernel

theorem witness_fills :
    let sync (e : List Nat) := under (one (.load false true) 8 0 (.s 5 true 8)) { line7 with empties := e }
    let part (i : Nat) (st : PartState) : Part := { va := 0x2000 + 8 * i, size := 4, lane := i, data := 0, st := st, acks := [] }
    let g := under { one (.load false false) 4 0 (.v 1 6) with parts := [part 1 .todo, part 2 .todo] } line7
    let all := under { one (.load false false) 4 0 (.v 1 6) with parts := [part 1 (.done 7), part 2 (.done 9)] } line7
    (1 < (8 + 3) / 4 ∧ 0x2038 % 64 / 4 + 1 = 15) ∧ line7.pass = false ∧ g.line 0 0x2008 = some line7 ∧ (g.acc 0 1).any (fun a => g.ordered 0 a (part 1 .todo)) = true ∧
    (part 2 .todo).performed = false ∧
    after (exec (.fillLand 0 1 0) (sync [15])) (fun t => t.me.accs.length == 1 && t.me.reg 5 == boss.reg 5) ∧
    after (exec (.fillLand 0 1 0) (sync [13])) (fun t => t.me.accs.isEmpty && t.me.reg 5 == 0x8787878787878787) ∧
    after (exec (.fillLand 0 1 0) g) (fun t => (t.acc 0 1).any fun a => a.parts == [part 1 (.done 0x87878787), part 2 .todo]) ∧
    after (exec (.fillLand 0 1 0) all) (fun t => t.me.v[(1 : VReg)] == BitVec.ofNat 512 (7 * 2 ^ 32 + 9 * 2 ^ 64) && t.me.vFull.getLsbD 1) := by
  decide +kernel

theorem witness_stfill_and_bypass :
    let fill (c : List Nat) := under (one (.store false true) 8 0x0102030405060708 .none) { owned with empties := [14, 15], l1 := c }
    let e : TlbEntry := { mdie := 11, asid := 1, page := 0, log2 := 0, frame := 0x20000, attr := pteAttr 0x1F }
    let a : Access := { one (.load false false) 8 0 (.s 5 true 8) with asid := 1, user := true, hint := .by }
    let s : State := { world (with0 { user with accs := [a] }) with tlb := [e] }
    (fill []).handing 0x2000 = false ∧ (fill []).lostMem 0x2000 = false ∧ a.dst ≠ .none ∧ s.poisonAt 0x22038 = false ∧ s.xlateTlb 1 0x2038 = .ok 0x22038 (pteAttr 0x1F) ∧
    s.farNeeds 0 1 0x2038 0x22038 (pteAttr 0x1F) false = none ∧ (a.parts.all fun x => s.ordered 0 a x) = true ∧
    after (exec (.sliceWrite 0 1 0) (fill [])) (fun t => (t.line 0 0x2000).any fun l => l.empties.isEmpty && l.cur.getD 56 0 == 8) ∧
    after (exec (.sliceWrite 0 1 0) (fill [5])) (fun t => (t.line 0 0x2000).any fun l => l.empties == [14, 15] && l.upd.any (·.fill)) ∧
    after (exec (.l3MissTranslate 0 1 0) s) (fun t => (t.acc 0 1).any (fun b => b.parts.map (·.st) == [.done 0]) && t.lines.isEmpty) := by
  decide +kernel

theorem witness_report_entries :
    let y := { under (one (.load false true) 8 0 (.s 5 true 8)) line7 with now := 0x01000000, lines := [] }
    (y.die 0).fqFull = false ∧ (y.die 0).reports = [] ∧ y.lines = [] ∧ (y.die 0).fqNext = 0 ∧ (∀ k, k < 64 → y.phys (0 + k) = .dram 10) ∧
    after (exec (.syncTimeout 0 1) y) (fun t => ofBytes (t.mem.bytes 8 8) % 256 == 0x47 && ofBytes (t.mem.bytes 0 8) / 2 ^ 12 % 16 == 3 &&
      ofBytes (t.mem.bytes 56 8) == 2 ^ 63) := by decide +kernel

theorem witness_tile_words :
    let full := name5 [(0, vslot 5 2 true), (1, vslot 9 7 true), (2, vslot 12 3 false)]
    let w := { full with waiters := [(12, 7), (12, 8), (13, 9)] }
    let s (h : Word) : State := asking { req (.query 5) .sent with h := h } w
    let gives (v : Word) (t : State) : Bool := (t.tiles.get? 4).any fun r => r.st == .answered v [] []
    full.slots.length ≤ 8 ∧ (∀ e ∈ full.slots, e.2.version < 2 ^ 24 ∧ e.2.count < 2 ^ 16) ∧
    TablesHere (s2 (world sup) tile5) (fun tdt _ _ => [tdt + 64]) ∧ (s2 (world sup) tile5).me.fillsNext 2047 = false ∧
    after (exec (.versionRequest 0 4) (s tile5)) (gives 0x0002300000090002) ∧
    after (exec (.versionRequest 0 4) (s (tile5 + 7))) (gives 0x0000320000090001) ∧
    after (exec (.versionRequest 0 4) (s (tile5 + 6))) (gives 0x0000300000090000) ∧
    after (exec (.versionRequest 0 4) (s (tile5 - 3))) (gives 0x0000300000090003) := by
  unfold TablesHere; decide +kernel

theorem witness_stale_notice :
    let n (r : TileReq) : State := ({ asking r (name5 []) with notices := [(6, { die := 0, inc := 1, ids := [4] })] }).modDie 0 fun x => { x with incarn := 2 }
    let w := { req .wait .queued with tid := 3 }
    (∀ z ∈ (n w).tiles, z.1 = 4 → z.2 = w) ∧ (∀ d, w.kind ≠ .query d) ∧
    after (exec (.arrivalNotice 0 6) (n (req .wait .queued))) (fun t => t.tiles.length == 1 && t.notices.isEmpty && (t.die 0).stale == 1) := by
  refine ⟨by decide +kernel, fun d h => ?_, by decide +kernel⟩
  cases h

theorem witness_class_traps :
    let s := s2 (world usr) 5
    let lock := s.modMe fun x => { x with det := true }
    let bad : State := { usr.modDie 0 fun d => { d with asctx := 64 } with memPoison := [(2, true)] }
    let forms (sel : W32) : List Instr := [.spawn ⟨2, true⟩ (.lit sel), .spawnk ⟨2, true⟩ (.lit sel), .callr 5 ⟨2, true⟩ (.lit sel), .reap 1 ⟨2, true⟩ (.lit sel)]
    let traps (c : Nat) (i : Instr) (t : State) : Bool := after (exec i t) fun u => u.me.cause.toNat == c && u.me.tval == t.me.reg 2
    s.ctx 0 1 = .ok 0x20000 0x6000 0x7000 0x8000 ∧ ClassHere s 0xE030001 ∧ s.cls 0 1 3 = none ∧ usr.ctx 0 1 = .invalid ∧ bad.ctx 0 1 = .poisoned ∧
    (∀ i ∈ forms 0xE030001, traps 0x82 i s && traps 0x46 i usr && traps 0x45 i bad = true) ∧
    (∀ i ∈ [Instr.spawn ⟨2, true⟩ (.lit 0xE020001), .spawnk ⟨2, true⟩ (.lit 0xE020001), .reap 1 ⟨2, true⟩ (.lit 0xE020000)], traps 0x23 i lock = true) ∧
    (∀ i ∈ [Instr.spawn ⟨2, true⟩ (.lit 0x8000001), .spawnk ⟨2, true⟩ (.lit 0xD000001), .reap 1 ⟨2, true⟩ (.lit 0xD000000)], traps 0x02 i s = true) ∧
    (s.cls 0 1 0).any (fun c => c.run == 8) = true ∧
    traps 0x82 (.spawn ⟨2, true⟩ (.reg ⟨3, false⟩)) (s.modMe fun x => x.setReg 3 0x10E000001) = true := by
  unfold ClassHere TablesHere; decide +kernel

/-- The instruction traps with a cause and a faulting value. -/
def trapsWith (c : Nat) (v : Word) (i : Instr) (s : State) : Bool := after (exec i s) fun t => t.me.cause.toNat == c && t.me.tval == v

theorem witness_points_more :
    let p := point23 1
    (((p.cluster 0).point 23).e.toNat ≠ 5 ∧ ((p.cluster 0).point 23).e.toNat = 2) ∧ sup.me.key = 0 ∧ ((sup.cluster 0).point 7).init = false ∧
    trapsWith 0x85 0 (.rvInit ⟨2, true⟩ (.lit 5)) p ∧
    after (exec (.rvInit ⟨2, true⟩ (.lit 2)) p) (fun t => (t.cluster 0).point 23 == (p.cluster 0).point 23 && t.me.pc == 0x1008) ∧
    trapsWith 0x85 0 (.rvArr 5 ⟨2, true⟩) sup ∧ trapsWith 0x85 0 (.rvArr 5 ⟨2, true⟩) (s2 sup 24) ∧
    trapsWith 0x02 (wordOf (.gclr 0)) (.gclr 0) sup := by decide +kernel

theorem witness_barrier_checks :
    let bo (e : W32) (sp : Bool) : List Instr := [.boInit ⟨2, true⟩ (.lit e) sp, .boAdd ⟨2, true⟩ (.lit e) sp, .boWait ⟨2, true⟩ (.lit e) sp, .boArr 5 ⟨2, true⟩ sp]
    let all (c : Nat) (v : Word) (sp : Bool) (s : State) : Bool := (bo 2 sp).all fun i => trapsWith c v i s
    let bad : State := { usr.modDie 0 fun d => { d with asctx := 64 } with memPoison := [(2, true)] }
    let held : State := (s2 sup 64).modCluster 0 fun c => { c with locks := [0] }
    (2 ^ 23 : Nat) ≤ (0x800000 : Word).toNat ∧ (held.cluster 0).locked 0 = true ∧ InContext sup ∧
    trapsWith 0x85 0 (.boInit ⟨2, true⟩ (.lit 0) true) sup = true ∧ trapsWith 0x85 0 (.boInit ⟨2, true⟩ (.lit 0x100000) false) sup = true ∧
    all 0x46 7 false usr = true ∧ all 0x45 7 false bad = true ∧ all 0x43 0x800000 true (s2 sup 0x800000) = true ∧ all 0x43 (2 ^ 56) false (s2 sup (2 ^ 56)) = true ∧
    all 0x44 8 true (s2 sup 8) = true ∧ all 0x44 8 false (s2 sup 8) = true ∧
    all 0x45 0x7FF000 true (s2 (sup.modCluster 0 fun c => { c with retired := [2047] }) 0x7FF000) = true ∧
    (bo 2 true).all (fun i => after (exec i held) fun t => t.me.pc == 0x1000) = true := by
  refine ⟨?_, ?_, .inl ?_, ?_⟩ <;> decide +kernel

theorem witness_barrier_late :
    let s := (s2 sup 64).modCluster 0 fun c => { c with spPoison := [(17, true)] }
    let g := { with0 { boss with s := boss.s.set 2 64, accs := [one (.load true false) 8 0 (.s 6 false 8)] } with feat := 7, seq := 5 }
    (s.cluster 0).spBad 64 16 = true ∧ s.inOrder (s.barrierAccess 64 true) = true ∧ s.role 0 5 = .plain ∧
    after (exec (.boAdd ⟨2, true⟩ (.lit 2) true) s) (fun t => t.me.late.map (fun l => (l.cause, l.tval)) == [(0x45, 64)] && t.me.pc == 0x1008) ∧
    after (exec (.boArr 5 ⟨2, true⟩ true) s) (fun t => t.me.late.length == 1 && t.me.reg 5 == 0) ∧
    after (exec (.boWait ⟨2, true⟩ (.lit 2) true) s) (fun t => t.me.cause == 0x45) ∧
    g.inOrder (g.barrierAccess 64 true) = false ∧ (g.cluster 0).locked 0 = false ∧
    after (exec (.boAdd ⟨2, true⟩ (.lit 2) true) g) (fun t => t.me.pc == 0x1000) := by decide +kernel

theorem witness_barrier_misuse :
    let s := s2 sup 64
    let o := s.modCluster 0 fun c => c.putSp 64 (bytesOf 1 15)
    let m (pend gen : Nat) (init : Bool) : State :=
      (s2 { world usr with tlb := [{ mdie := 11, asid := 1, page := 0, log2 := 0, frame := 0x20000, attr := pteAttr 0x1F }] } 0x1000).putPhys 0x21000
        (if init then bytesOf pend gen else [])
    (objectOf ((o.cluster 0).spBytes 64 16)).pend ≠ (objectOf ((o.cluster 0).spBytes 64 16)).exp ∧
    trapsWith 0x85 0 (.boInit ⟨2, true⟩ (.lit 2) true) o ∧ trapsWith 0x85 0 (.boArr 5 ⟨2, true⟩ true) s ∧
    trapsWith 0x85 0 (.boArr 5 ⟨2, true⟩ false) (m 0 0 false) ∧ trapsWith 0x85 0 (.boInit ⟨2, true⟩ (.lit 2) false) (m 1 15 true) ∧
    trapsWith 0x85 0 (.boAdd ⟨2, true⟩ (.lit 2) false) (m 0 0 false) ∧ trapsWith 0x85 0 (.boWait ⟨2, true⟩ (.lit 2) false) (m 0 0 false) ∧
    after (exec (.boWait ⟨2, true⟩ (.lit 15) false) (m 1 15 true)) (fun t => t.me.pc == 0x1000 && t.me.cause == 0) ∧
    trapsWith 0x86 0 (.boWait ⟨2, true⟩ (.lit 3) false) (m 1 15 true) := by decide +kernel

theorem witness_barrier_pages :
    let tlb (f : Nat) : List TlbEntry := [{ mdie := 11, asid := 1, page := 0, log2 := 0, frame := 0x20000, attr := pteAttr f }]
    let p : State := s2 { world usr with tlb := tlb 0x01 } 0x1000
    let u : UnitWalk := { who := .slot 0, asid := 1, page := 0x2001, walk := 2, failed := some 0 }
    let a : State := s2 { world usr with unitWalks := [u] } 0x20011000
    let n : Need := { r := true, w := true, u := true }
    (match (a.cohRead (.slot 0) 0 1 0x20011000 16 n).2 with | .error c => c == 0 | .ok _ => false) = true ∧ a.mySwitch 0x20011000 false = none ∧
    (match (p.cohRead (.slot 0) 0 1 0x1000 16 n).2 with | .error c => decide (1 < c ∧ c ≠ 0x85) | .ok _ => false) = true ∧
    after (exec (.boWait ⟨2, true⟩ (.lit 3) false) p) (fun t => t.me.cause == 0x43) ∧
    after (exec (.boInit ⟨2, true⟩ (.lit 3) false) a) (fun t => t.me.redo.any (fun z => z.op == .init 3 && z.addr == 0x20011000) && t.me.pc == 0x1008) ∧
    after (exec (.boArr 5 ⟨2, true⟩ false) a) (fun t => t.me.redo.any (·.op == .arr) && !t.me.full 5) := by decide +kernel

theorem witness_digest_messages :
    let s (linked : Bool) : State :=
      { s2 (world usr) tile5 with feat := 0x600, repl := Vector.replicate 4 (2 ^ 63 + 5 * 2 ^ 10), pkgSet := linked, route := [(5, 4)] }
    (s true).linked = true ∧ (s false).linked = false ∧ (s true).routed 5 = true ∧
    after (exec (.digestEnd 5 ⟨2, true⟩ (.lit 3)) (s true)) (fun t => t.sent.map (fun m => (m.1, m.2.typ, m.2.dpkg)) == [(2, 0x28, 5)] && t.held.isEmpty) ∧
    after (exec (.digestEnd 5 ⟨2, true⟩ (.lit 3)) (s false)) (fun t => t.sent.isEmpty && t.held.map (·.typ) == [0x28]) := by decide +kernel

theorem witness_ring_turns :
    let cfg := cmd [0x10, 14, 2047, 1]
    let s := array .c cfg
    cfg.paused = false ∧ s.myTurn 0 .c = true ∧ s.farTable 0 1 cfg.tables = none ∧ s.headCmd 0 .c = .go cfg ∧
    after (exec (.ringCfg 0 .c) s) (fun t => ((t.cluster 0).ring 14).base == 2047 && head t .c == none) ∧
    after (exec (.ringCfg 0 .c) (array .c (cmd [0x10, 14, 2047, 2]))) (fun t => (t.slot 0).posted.map (·.cause) == [0xA1]) := by decide +kernel

theorem witness_command_hold :
    let c := cmd [0x124]
    let s (b : Bool) := (array .c c).modMe fun x => { x with g := Vector.replicate 16 .isFalse, ehold := b }
    (s true).me.ehold = true ∧ (s false).me.ehold = false ∧
    after (exec (.commandEnd 0 .c) (s true)) (fun t => head t .c == some c) ∧
    after (exec (.commandEnd 0 .c) (s false)) (fun t => head t .c == none) := by decide +kernel

theorem witness_copy_q :
    let run (h : Nat) (x : Cmd) : State :=
      let s := put8 (array .c { cmd [0x22, 0x40, 0x10000000, BitVec.ofNat 32 h, BitVec.ofNat 32 (h / 2 ^ 32), 1] with started := true, flags := x.flags, tile := x.tile })
        0x6080 [2 ^ 63 + 3 * 2 ^ 56 + 0x60000, 2 ^ 57 + 2 ^ 32 + 4, 0, 64 + 64 * 2 ^ 16]
      { s with tiles := [(4, req (.engStore .c 1 1 none none [] []) (.answered 0 [] []))] }
    let h : Nat := 0x0020000000000001
    let s := run h (cmd [])
    (match s.headCmd 0 .c with | .go _ => true | _ => false) = true ∧ ((s.desc 0 1 2).any fun d => d.scaled && d.fmt == 3 && d.rows == 64 && d.pkg == none) = true ∧
    (match s.engRead 0 .c 0 (.sp 0x40) 16384 with | (_, .ok b) => b.length == 16384 | _ => false) = true ∧
    (match s.engHandle 0 1 (BitVec.ofNat 64 (h + 0x4000000)) with | .error c => c == 0x64 | _ => false) = true ∧
    after (exec (.copyQ 0) s) (fun t => (head t .c).any (fun c => c.tile == some s.seq) && (t.tiles.get? s.seq).any fun r => r.h.toNat == h) ∧
    after (exec (.copyQ 0) (run (h + 0x4000000) (cmd []))) (fun t => (head t .c).any fun c => c.fail == some (0xA3, 0x64)) ∧
    after (exec (.copyQ 0) (run (h - 1) (cmd []))) (fun t => (head t .c).any fun c => c.fail == some (0xA3, 0x60)) ∧
    after (exec (.copyQ 0) (run 0x0010000000000001 (cmd []))) (fun t => (head t .c).any fun c => c.fail == some (0xA3, 0x63)) ∧
    after (exec (.copyQ 0) (run h { cmd [] with tile := some 4 })) (fun t => (head t .c).any (·.loaded) && !t.tiles.has 4) := by
  decide +kernel

theorem witness_copy_v :
    let run (w : W32) (k : TileKind) : State :=
      let c := { cmd [w, 5, 0x100000, 0x1000, 0x10000000, 1] with
        started := true, tile := some 4, out := [{ sp := true, dst := 0x1000, n := 8, src := .later 8 }] }
      { array .c c with tiles := [(4, req k (.answered 0 ((List.range 4096).map (BitVec.ofNat 8)) []))] }
    let l := run 0x23 (.engLoad .c 1 true)
    let v := run 0x2023 (.engStore .c 1 1 (some 1) none [] [])
    (match l.headCmd 0 .c with | .go _ => true | _ => false) = true ∧ (8 < ((List.range 4096).map (BitVec.ofNat 8) ++ ([] : List Byte)).length) ∧
    after (exec (.copyVLoad 0) l) (fun t => (head t .c).any (fun c => c.loaded && c.out.map (·.src) == [.bytes [8, 9, 10, 11, 12, 13, 14, 15]]) && t.tiles.isEmpty) ∧
    after (exec (.copyVStore 0) v) (fun t => (head t .c).any fun c => c.loaded && c.tile == none) := by
  decide +kernel

/-- One candidate of sixteen elements 1.0 in BF16 against a query of the same: its score is 16. -/
theorem witness_gdist_scores :
    let ones : List Byte := (List.range 16).flatMap fun _ => toBytes 2 0x3F80
    let run (w0 : W32) (bad : List (Nat × Bool)) (w2 : W32) : State :=
      (array .g { cmd [w0, 0, w2, 0x80000000, 0x200, 0x10001, 0x300, 0] with started := true }).modCluster 0 fun k =>
        { (k.putSp 0x200 ones).putSp 0 ones with spPoison := bad }
    let s := run 0x4031 [] 0x10000000
    (match s.headCmd 0 .g with | .go _ => true | _ => false) = true ∧ topOk ((s.cluster 0).topAt 0x300 1) = true ∧ (s.cluster 0).spPoison = [] ∧ (s.cluster 0).retired = [] ∧
    ((run 0x31 [(0x80, true)] 0x10000000).cluster 0).spBad 0x200 32 = true ∧
    (match s.engRead 0 .g 0 (.sp 0) 32 with | (_, .ok b) => b == ones | _ => false) = true ∧
    (match s.engRead 0 .g 0 (.sp (2 ^ 23 - 16)) 32 with | (_, .error (x, _)) => decide (1 < x) | _ => false) = true ∧
    after (exec (.gdist 0) s) (fun t => (head t .g).any fun c => c.loaded && c.out.any fun x => x.dst == 0x300 && x.src == .bytes (toBytes 4 0x41800000)) ∧
    after (exec (.gdist 0) (run 0x31 [(0x80, true)] 0x10000000)) (fun t => (head t .g).any fun c => c.fail == some (0xA3, 0x45)) := by
  decide +kernel

/-- A crew of two tasks in slot 0 of cores 0 and 1, with a request of the die to take the first out with its crew. -/
def crewed (halted : Bool) (whole : Word) : State :=
  let x : Slot := { user with crew := true, block := 0x20000 }
  let s : State := { ((with0 x).modSlot 16 fun _ => { x with block := 0x22000, tid := 10, halted := halted }) with crews := [] }
  (s.modCrew 0 fun c => { c with live := 3, att := 3, dpc := 0x1000 }).modDie 0 fun d => { d with preempt := whole, pres := 2 ^ 63 }

theorem witness_preempt_image :
    let s : State := (with0 { user with block := 0x20000, key := 5 }).modDie 0 fun d => { d with preempt := 0, pres := 2 ^ 63 }
    s.preemptible 0 = true ∧ s.withdrawals s.me.tid = [] ∧ s.me.accs = [] ∧ (∀ n : Fin 4, (s.chan 0 n).en = false) ∧ s.lines = [] ∧
    ((s.settleFills 0).modSlot 0 fun z => { z with eng := z.eng.map Eng.passDiscarded }).withdrawals s.me.tid = [] := by decide +kernel

theorem witness_image_memory : ∀ o, o < 0x2000 → sup.phys (0x20000 + o) = .dram 10 := by
  intro o h
  have a : (0x20000 + o) < 2 ^ 39 := by omega
  have b : (0x20000 + o) % 2 ^ 36 < 64000000000 := by omega
  have c : 10 + (0x20000 + o) / 2 ^ 37 = 10 := by omega
  have d : ¬ 2 ^ 43 ≤ 0x20000 + o := by omega
  have e : ¬ 2 ^ 40 ≤ 0x20000 + o := by omega
  simp only [State.phys, physMap, if_pos a, if_pos b, c, if_neg d, if_neg e]

theorem witness_preempt_whole :
    let w := crewed false 0x2000000
    let vs := ((List.range 8).map (crewSlot (w.crewKey 0))).filter fun q => (w.slot q).use == .task && (w.crew (w.crewKey 0)).live.getLsbD (memberOf q)
    vs = [0, 16] ∧ (w.slot 0).crew = true ∧ (∀ q ∈ vs, w.preemptible q = true) ∧ (∀ q ∈ vs, ∀ r ∈ vs, (w.slot q).block = (w.slot r).block → q = r) ∧
    (crewed true 0x2000000).preemptible 16 = false ∧
    after (exec (.preemptRequest 0) (crewed true 0x2000000)) (fun t => t.saved.isEmpty) := by decide +kernel

theorem witness_quiesced_migration :
    let s (q : Bool) := (moving 0x20000 none).modDie 0 fun d => { d with quiet := q }
    ((s true).die 0).quiet = true ∧ ((s false).die 0).quiet = false ∧
    after (exec (.migrationMove 0) (s true)) (fun t => (t.die 0).mig == none) := by decide +kernel

theorem witness_watch_walks :
    let w : Watch := { w0 := 0x2038, w1 := BitVec.ofNat 64 (8 * 2 ^ 60 + 1), w2 := 0x9000, w3 := 6, st := 0, armed := true, due := false, checking := true }
    let u : UnitWalk := { who := .watch 7, asid := 1, page := 0, walk := 2, failed := some 0 }
    let s (c : Bool) : State := { served with watches := [(7, { w with checking := c })] }
    let f : State := { s true with unitWalks := [u] }
    let l : State := { s false with lines := [(lineKey 1 0x2038, { line7 with attr := pteAttr 0 })] }
    (s true).xlateTlb 1 0x2038 = .miss ∧ (s true).unitWalks = [] ∧ (s true).line 1 0x2038 = none ∧ l.line 1 0x2038 ≠ none ∧ (pteAttr 0).r = false ∧
    ({ s false with watches := [(7, { w with w0 := 2 ^ 56 })] } : State).watch 7 = { w with w0 := 2 ^ 56 } ∧
    ({ s false with watches := [(7, { w with w1 := 2 ^ 63 })] } : State).xlateTlb 0 (2 ^ 39) = .fail 0x43 ∧
    after (exec (.watchArm 7) (s false)) (fun t => (t.watch 7).armed && (t.watch 7).checking && t.unitWalks.length == 1) ∧
    after (exec (.watchArm 7) l) (fun t => !(t.watch 7).armed && (t.watch 7).st == 0x43) ∧
    after (exec (.watchArm 7) { s false with watches := [(7, { w with w0 := 2 ^ 56 })] }) (fun t => (t.watch 7).st == 0x43) ∧
    after (exec (.watchNotice 7) f) (fun t => !(t.watch 7).armed && (t.watch 7).st == 0x40 && !(t.watch 7).checking) := by decide +kernel

theorem witness_pending_writes :
    let s : State := { served with farPuts := [(0x22038, 1)] }
    s.farWrites 0x22038 2 = true ∧ served.farWrites 0x22038 2 = false ∧
    after (exec (.hostCxlMemAccess 0x22038 true [7, 8]) s) (fun t => t.farPuts == [(0x22038, 7), (0x22039, 8)] && t.mem == served.mem) := by decide +kernel

theorem witness_received_more :
    let body (w2 w5 w7 : Nat) : List Byte := [5, 77, w2, 0, 0, w5, 0, w7].flatMap (toBytes 8) ++ List.replicate 64 0
    let far : Nat := 2 ^ 54 + 3 * 2 ^ 44 + 0x20000
    let b : List Byte := List.replicate 64 9
    let c := hdr 0x15 2 0x20040 0
    let p (h : Hint) : State := ({ grouped with
      pages := [(far / 2 ^ 16, { mode := .read, asked := .none, hand := none })],
      lineAsks := [(4, { key := lineKey 1 0x20040, addr := far + 64, die := 0, attr := .window, hint := h })] }).modDie 0 fun d =>
      { d with memcfg := 7, fenced := List.replicate 8192 (3, lineKey 1 0x20040) }
    let r (w2 w5 w7 : Nat) : Instr := .recMsg (hdr 0x08 4 0 0) (body w2 w5 w7)
    taken grouped 0x08 (hdr 0x08 4 0 0) (body (2 ^ 44) 0 0) = true ∧ (p .dflt).l2Room 0 (lineKey 1 0x20040) = false ∧ (p .dflt).hasMode (far + 64) false = true ∧
    (∀ i ∈ [r (2 ^ 44) 0 0, r (2 ^ 39) 0 0, r 0 4096 0, r 0 0 1], after (exec i grouped) (fun t => (t.die 0).stale == 1 && (t.die 0).pan.isEmpty) = true) ∧
    after (exec (.linedata c b) (p .dflt)) (fun t => t.lines.isEmpty && t.lineAsks.isEmpty) ∧
    after (exec (.linedata c b) (p .by)) (fun t => (t.lines.get? (lineKey 1 0x20040)).any (·.pass)) := by decide +kernel

theorem witness_fencing :
    let s (u a : Nat) : Bool := after (exec (.eccError u a true) served) fun t => (t.die (u / 16)).fenced == [(u % 16, a)] && (t.die (u / 16)).last == 1
    holdsUnit 0 2 (5 * 2 ^ 62 + 0x80) = true ∧ holdsUnit 8 4 0x80 = true ∧ holdsUnit 0 5 8191 = true ∧ holdsUnit 9 7 4095 = true ∧ rowStack 0x20040 = some 0 ∧
    s 2 (5 * 2 ^ 62 + 0x80) ∧ s 3 0x80 ∧ s (8 * 16 + 4) 0x80 ∧ s 6 0 := by decide +kernel

theorem witness_record_order :
    let m := coming rec5
    let s : State := { pan [] with recs := [(6, m), (7, { m with r := { rec5 with key := 6 } })] }
    (∀ z ∈ s.recs, z.1 < 6 → z.2.precedes m = false) ∧ rec5.lr = false ∧ rec5.resume = none ∧
    ({ m with r := { rec5 with key := 6 } } : RecMsg).precedes m = m.precedes { m with r := { rec5 with key := 6 } } ∧
    after (exec (.recordArrival 0 6) s) (fun t => t.recs.length == 1) := by decide +kernel

theorem witness_texit_turn :
    let s := (pan []).modMe fun x => { x with accs := [one .clear 8 0 .none] }
    s.quietTask 0 = false ∧ s.me.laterHeld = 0 ∧ (s.modMe fun x => { x with laterHeld := 2 }).me.laterHeld ≠ 0 ∧
    (s.modMe fun x => { x with laterHeld := 2 }).quietTask 0 = false ∧
    after (exec .texit (s.modMe fun x => { x with laterHeld := 2 })) (fun t => t.me.laterHeld == 0 && t.me.use == .task) := by decide +kernel

end Sys2Proof.Tests
end

section
/-!
What completing an instruction leaves in the issuing slot (R53, R413), and the flags and the FP trap of a floating-point
instruction (R19).
-/

namespace Sys2Proof.Machine
open Sys2Proof.Claims

/-! ### Counted events -/

/-- A counted event changes nothing of a die but its counters. -/
theorem die_count (s : State) (d e n k : Nat) : ∃ w, (s.count d e n).die k = { s.die k with pmc := w } := by
  by_cases h : k = d
  · subst h
    exact ⟨_, die_modDie_self s k _⟩
  · exact ⟨_, die_modDie_other s _ h⟩

@[simp] theorem breakAt_count (s : State) (d e n k : Nat) (a : Word) :
    ((s.count d e n).die k).breakAt a = (s.die k).breakAt a := by
  obtain ⟨w, h⟩ := die_count s d e n k
  rw [h]; rfl

@[simp] theorem tvec_count (s : State) (d e n k : Nat) : ((s.count d e n).die k).tvec = (s.die k).tvec := by
  obtain ⟨w, h⟩ := die_count s d e n k
  rw [h]

@[simp] theorem slot_issuedNow (s : State) (p : Nat) : s.issuedNow.slot p = s.slot p := rfl

@[simp] theorem cur_issuedNow (s : State) : s.issuedNow.cur = s.cur := rfl

@[simp] theorem breakAt_issuedNow (s : State) (k : Nat) (a : Word) :
    (s.issuedNow.die k).breakAt a = (s.die k).breakAt a :=
  breakAt_count _ _ _ _ _ _

@[simp] theorem tvec_issuedNow (s : State) (k : Nat) : (s.issuedNow.die k).tvec = (s.die k).tvec :=
  tvec_count _ _ _ _ _

@[simp] theorem breakAt_moveCrewBy (s : State) (k : Nat) (f : Crew → Crew) (d : Nat) (a : Word) :
    ((s.moveCrewBy k f).die d).breakAt a = (s.die d).breakAt a :=
  breakAt_count _ _ _ _ _ _

/-! ### Going on at the next instruction -/

/-- A crew member that is attached uses up its entry with the outcome `next`. -/
def State.crewMoved (s : State) (next : Word) : State :=
  if s.attached s.cur then s.moveCrewBy (s.crewKey s.cur) fun c => c.issue (memberOf s.cur) next else s

/-- The slot after an instruction that goes on at `next`; a single step halts it (R413). -/
def Slot.goneTo (x : Slot) (now : Nat) (next : Word) : Slot :=
  { x with pc := next, issued := now, halted := x.halted || x.stepOne, stepOne := false }

/-- The issuing slot goes on at `next`, before any breakpoint is looked at. -/
def State.advanced (s : State) (next : Word) : State :=
  ((s.crewMoved next).modSlot s.cur fun x => x.goneTo (s.crewMoved next).now next).issuedNow

@[simp] theorem slot_crewMoved (s : State) (next : Word) (p : Nat) : (s.crewMoved next).slot p = s.slot p := by
  unfold State.crewMoved
  split <;> rfl

@[simp] theorem now_crewMoved (s : State) (next : Word) : (s.crewMoved next).now = s.now := by
  unfold State.crewMoved
  split <;> rfl

@[simp] theorem cur_crewMoved (s : State) (next : Word) : (s.crewMoved next).cur = s.cur := by
  unfold State.crewMoved
  split <;> rfl

@[simp] theorem breakAt_crewMoved (s : State) (next : Word) (d : Nat) (a : Word) :
    ((s.crewMoved next).die d).breakAt a = (s.die d).breakAt a := by
  unfold State.crewMoved
  split
  · exact breakAt_moveCrewBy _ _ _ _ _
  · rfl

@[simp] theorem breakAt_advanced (s : State) (next : Word) (d : Nat) (a : Word) :
    ((s.advanced next).die d).breakAt a = (s.die d).breakAt a :=
  (breakAt_issuedNow _ _ _).trans (breakAt_crewMoved s next d a)

theorem me_advanced (s : State) (next : Word) : (s.advanced next).me = s.me.goneTo s.now next := by
  simp [State.advanced, State.me]

/-- Where no breakpoint stops it, an instruction only goes on. -/
theorem goToLit_unbroken {s : State} (h : Unbroken s) (lit : Bool) (next : Word) :
    s.goToLit lit next = s.advanced next := by
  change (if s.me.priv != 0 then s.advanced next
    else match ((s.advanced next).die (dieOf s.cur)).breakAt s.me.pc with
      | none => s.advanced next
      | some true => (s.advanced next).modSlot s.cur fun y => { y with halted := true }
      | some false => (s.advanced next).takeTrap s.cur 0x09 0 lit next) = _
  rcases h with hpriv | hbreak
  · rw [if_pos (by simpa using hpriv)]
  · rw [breakAt_advanced, hbreak, ite_self]

theorem retire_me {s : State} (h : Unbroken s) (q : Form) :
    (s.retire q).me = s.me.goneTo s.now (s.me.pc + q.len) := by
  rw [State.retire, goToLit_unbroken h, me_advanced]

/-! ### Flags and the FP trap -/

/-- The flags that an instruction raises join the sticky ones. -/
def Slot.mergeFlags (x : Slot) (fl : BitVec 5) : Slot := { x with flags := x.flags ||| fl }

/-- The raised flags `fl` are merged into FLAGS of the issuing slot (R19). -/
def State.flagged (s : State) (fl : BitVec 5) : State := s.modMe fun x => x.mergeFlags fl

@[simp] theorem cur_flagged (s : State) (fl : BitVec 5) : (s.flagged fl).cur = s.cur := rfl

@[simp] theorem die_flagged (s : State) (fl : BitVec 5) (d : Nat) : (s.flagged fl).die d = s.die d := rfl

@[simp] theorem me_flagged (s : State) (fl : BitVec 5) : (s.flagged fl).me = s.me.mergeFlags fl := me_modMe s _

/-- The merge of flags touches nothing that a breakpoint looks at. -/
theorem unbroken_flagged {s : State} (h : Unbroken s) (fl : BitVec 5) : Unbroken (s.flagged fl) := by
  unfold Unbroken
  rw [me_flagged]
  exact h

/-- Outside a skim handler, a trap of the issuing slot writes that slot's trap frame. -/
theorem takeTrap_me {s : State} {c : Nat} {v : Word} {lit : Bool} {epc : Word} (h : s.me.use ≠ .skim) :
    (s.takeTrap s.cur c v lit epc).me =
      s.me.trapTo c v (s.estatOf s.cur lit) epc (s.die (dieOf s.cur)).tvec := by
  have hslot : (s.slot s.cur).use ≠ .skim := h
  have hcur : (s.takeTrap s.cur c v lit epc).cur = s.cur := by
    rw [State.takeTrap, if_neg (by simpa using hslot), State.modSlot_cur, detach_cur]
  rw [State.me, hcur]
  exact takeTrap_slot hslot

/-- No raised flag is enabled: the instruction retires. -/
theorem retireFp_disabled {s : State} {fl : BitVec 5} (hfl : fl &&& s.me.ten = 0) (q : Form) :
    s.retireFp q fl = (s.flagged fl).retire q :=
  if_neg (by simp [hfl])

/-- A raised flag is enabled: the instruction, counted as issued, takes FP_TRAP at its own address. -/
theorem retireFp_enabled {s : State} {fl : BitVec 5} (hfl : fl &&& s.me.ten ≠ 0) (q : Form) :
    s.retireFp q fl = (s.flagged fl).issuedNow.takeTrap s.cur 0x20 (fl.zeroExtend 64) q.lit s.me.pc :=
  if_pos (by simpa using hfl)

theorem retireFp_disabled_me {s : State} {fl : BitVec 5} (hu : Unbroken s) (hfl : fl &&& s.me.ten = 0) (q : Form) :
    (s.retireFp q fl).me = (s.me.mergeFlags fl).goneTo s.now (s.me.pc + q.len) := by
  rw [retireFp_disabled hfl, retire_me (unbroken_flagged hu fl), me_flagged]
  rfl

theorem retireFp_enabled_me {s : State} {fl : BitVec 5} (ht : TakesTraps s) (hfl : fl &&& s.me.ten ≠ 0) (q : Form) :
    (s.retireFp q fl).me =
      (s.me.mergeFlags fl).trapTo 0x20 (fl.zeroExtend 64) ((s.flagged fl).issuedNow.estatOf s.cur q.lit) s.me.pc
        (s.die (dieOf s.cur)).tvec := by
  have hme : (s.flagged fl).issuedNow.me = s.me.mergeFlags fl := me_flagged s fl
  have hskim : (s.flagged fl).issuedNow.me.use ≠ .skim := by rw [hme]; exact ht
  have htrap := takeTrap_me hskim (c := 0x20) (v := fl.zeroExtend 64) (lit := q.lit) (epc := s.me.pc)
  rw [cur_issuedNow, cur_flagged, hme, tvec_issuedNow, die_flagged] at htrap
  rw [retireFp_enabled hfl, htrap]

/-- Settles O10: the flags are merged first (R19), and the slot is then the retired one or the trapped one. -/
theorem flagsAndTrap : Obligations.FlagsAndTrap := by
  intro s q fl ht hu
  by_cases hfl : fl &&& s.me.ten = 0
  · rw [retireFp_disabled_me hu hfl q]
    exact ⟨rfl, fun _ => ⟨rfl, rfl⟩, fun h => absurd hfl h, rfl, rfl⟩
  · rw [retireFp_enabled_me ht hfl q]
    exact ⟨rfl, fun h => absurd h hfl, fun _ => ⟨rfl, rfl, rfl, rfl, rfl⟩, rfl, rfl⟩

end Sys2Proof.Machine
end

section
/-!
Control transfers: the branches on registers and on masks (R123, R124), `bra`, `call` and `jr` (R126, R127), and the words
of the row of `jr` that are no instruction (R55, R68).
-/

namespace Sys2Proof.Machine
open Sys2Proof.Claims

/-! ### Conditions of the branches -/

theorem signed_ge_iff (x y : Word) : (!x.slt y) = true ↔ y.toInt ≤ x.toInt := by
  rw [← BitVec.sle_eq_not_slt]
  exact BitVec.sle_iff_toInt_le

theorem unsigned_ge_iff (x y : Word) : (!x.ult y) = true ↔ y.toNat ≤ x.toNat := by
  rw [← BitVec.ule_eq_not_ult]
  exact BitVec.ule_iff_toNat_le

theorem mask_none_iff (x : Mask) : (x == 0) = true ↔ ∀ k, x.getLsbD k = false :=
  beq_iff_eq.trans BitVec.zero_iff_eq_false

theorem mask_any_iff (x : Mask) : (x != 0) = true ↔ ∃ k, x.getLsbD k = true := by
  rw [bne, Bool.not_eq_true', ← Bool.not_eq_true, mask_none_iff]
  simp

theorem mask_all_iff (x : Mask) : (x == 0xFFFF) = true ↔ ∀ k, k < 16 → x.getLsbD k = true := by
  have hones : (0xFFFF : Mask) = BitVec.allOnes 16 := rfl
  rw [beq_iff_eq, hones, BitVec.eq_of_getLsbD_eq_iff]
  exact forall₂_congr fun k hk => by rw [BitVec.getLsbD_allOnes, decide_eq_true hk]

theorem mask_nall_iff (x : Mask) : (x != 0xFFFF) = true ↔ ∃ k, k < 16 ∧ x.getLsbD k = false := by
  rw [bne, Bool.not_eq_true', ← Bool.not_eq_true, mask_all_iff]
  simp

theorem aligned4_iff (a : Word) : aligned4 a = true ↔ a.toNat % 4 = 0 := by
  rw [aligned4, beq_iff_eq, ← BitVec.toNat_inj, BitVec.extractLsb'_toNat]
  rfl

/-! ### Branches -/

/-- A branch with condition `c` completes: from the state `t` that its sources leave, the slot goes on at the target of `off`
where `c` holds, and at the next instruction otherwise (R123, R124). -/
def BranchesIf (i : Instr) (s t : State) (off : BitVec 11) (c : Prop) : Prop :=
  (c → exec i s = .next (t.goTo (s.me.pc + 4 * BitVec.ofInt 64 off.toInt))) ∧
  (¬ c → exec i s = .next (t.goTo (s.me.pc + 4)))

/-- Whoever decides a branch by a Boolean that tells whether `c` holds branches on `c`. -/
theorem branchesIf_of_taken {i : Instr} {s t : State} {off : BitVec 11} {taken : Bool} {c : Prop}
    (hexec : exec i s = .next (t.goTo (if taken then target s.me.pc off else s.me.pc + 4))) (htaken : taken = true ↔ c) :
    BranchesIf i s t off c := by
  constructor
  · intro hc
    rw [hexec, if_pos (htaken.mpr hc)]
    rfl
  · intro hc
    rw [hexec, if_neg (mt htaken.mp hc)]

/-- The sources of a register-compare branch (R123). -/
def compareForm (a b : SSrc) : Form := { srcs := [sref a, sref b], dsts := [], lit := false }

/-- A register-compare branch whose sources are readable branches as its comparison decides. -/
theorem branchesIf_of_branch {i : Instr} {s : State} {a b : SSrc} {off : BitVec 11} {f : Word → Word → Bool} {c : Prop}
    (hexec : exec i s = branch f a b off s) (hgo : s.gateOf s.cur (compareForm a b) = .go)
    (hc : f (s.sval (compareForm a b) 0) (s.sval (compareForm a b) 1) = true ↔ c) :
    BranchesIf i s (s.pops (compareForm a b)) off c :=
  branchesIf_of_taken (hexec.trans (gate_go hgo)) hc

/-- A mask branch never waits, and branches as its test of the mask decides (R124). -/
theorem branchesIf_of_maskBranch {i : Instr} {s : State} {m : MReg} {off : BitVec 11} {f : Mask → Bool} {c : Prop}
    (hexec : exec i s = maskBranch f m off s) (hc : f (s.me.mask m) = true ↔ c) : BranchesIf i s s off c :=
  branchesIf_of_taken hexec hc

section
variable (a b : SSrc) (m : MReg) (off : BitVec 11) (s : State)

theorem exec_brEq : exec (.brEq a b off) s = branch (fun x y => x == y) a b off s := rfl
theorem exec_brNe : exec (.brNe a b off) s = branch (fun x y => x != y) a b off s := rfl
theorem exec_brLt : exec (.brLt a b off) s = branch BitVec.slt a b off s := rfl
theorem exec_brGe : exec (.brGe a b off) s = branch (fun x y => !x.slt y) a b off s := rfl
theorem exec_brLtn : exec (.brLtn a b off) s = branch BitVec.ult a b off s := rfl
theorem exec_brGen : exec (.brGen a b off) s = branch (fun x y => !x.ult y) a b off s := rfl
theorem exec_brAny : exec (.brAny m off) s = maskBranch (· != 0) m off s := rfl
theorem exec_brAll : exec (.brAll m off) s = maskBranch (· == 0xFFFF) m off s := rfl
theorem exec_brNone : exec (.brNone m off) s = maskBranch (· == 0) m off s := rfl
theorem exec_brNall : exec (.brNall m off) s = maskBranch (· != 0xFFFF) m off s := rfl

end

/-- Settles O14: each branch is decided by its comparison of the two source values (R123). -/
theorem branchResult : Obligations.BranchResult := by
  intro s a b off q x y ends hgo
  exact ⟨branchesIf_of_branch (exec_brEq a b off s) hgo beq_iff_eq,
    branchesIf_of_branch (exec_brNe a b off s) hgo bne_iff_ne,
    branchesIf_of_branch (exec_brLt a b off s) hgo BitVec.slt_iff_toInt_lt,
    branchesIf_of_branch (exec_brGe a b off s) hgo (signed_ge_iff x y),
    branchesIf_of_branch (exec_brLtn a b off s) hgo BitVec.ult_iff_toNat_lt,
    branchesIf_of_branch (exec_brGen a b off s) hgo (unsigned_ge_iff x y)⟩

/-! ### Destinations that are no channel end -/

/-- Only s60 to s63 can be channel ends (R24). -/
theorem role_plain (s : State) (p : Nat) {r : SReg} (h : r.val < 60) : s.role p r = .plain :=
  if_neg (by omega)

theorem gate_and_go (g : Gate) : g.and .go = g := by
  cases g with
  | go => rfl
  | wait => rfl
  | trap c v => rfl

/-- An instruction looks at its sources first, and then at its destination (R68). -/
theorem gateOf_one_dst (s : State) (p : Nat) (q : Form) (d : Dst) :
    s.gateOf p { q with dsts := [d] } = (s.gateOf p { q with dsts := [] }).and (s.dstGate p d) := by
  simp only [State.gateOf, List.foldl_cons, List.foldl_nil, gate_and_go]
  rfl

theorem dstGate_plain {s : State} {p : Nat} {d : SReg} (hrole : s.role p d = .plain) :
    s.dstGate p (.s d) = if (s.slot p).full d then .go else .wait := by
  simp only [State.dstGate, hrole]

/-- With its sources readable, an instruction that writes s1 waits for s1 alone (R126, R127). -/
theorem gateOf_s1 {s : State} {q : Form} (hgo : s.gateOf s.cur { q with dsts := [] } = .go) :
    s.gateOf s.cur { q with dsts := [.s 1] } = if s.me.full 1 then .go else .wait := by
  rw [gateOf_one_dst, hgo, dstGate_plain (role_plain s s.cur (by decide))]
  rfl

/-! ### Jumps and calls -/

theorem exec_bra (s : State) (off : BitVec 25) :
    exec (.bra off) s = .next (s.goTo (s.me.pc + 4 * BitVec.ofInt 64 off.toInt)) := rfl

theorem exec_call (s : State) (off : BitVec 25) :
    exec (.call off) s =
      s.gate (form0 [.s 1]) (.next ((s.put 1 (s.me.pc + 4)).goTo (s.me.pc + 4 * BitVec.ofInt 64 off.toInt))) := rfl

theorem exec_jr (s : State) (a : SSrc) :
    exec (.jr a) s =
      s.gate (formA [] a)
        (if aligned4 (s.sval (formA [] a) 0) then .next ((s.pops (formA [] a)).goTo (s.sval (formA [] a) 0))
         else s.trap 0x07 (wordOf (.jr a)) false) := rfl

/-- The destination of `callReg` changes neither which register it reads nor what its source pops. -/
theorem exec_callReg (s : State) (a : SSrc) :
    exec (.callReg a) s =
      s.gate (formA [.s 1] a)
        (if aligned4 (s.sval (formA [] a) 0) then
           .next (((s.pops (formA [] a)).put 1 (s.me.pc + 4)).goTo (s.sval (formA [] a) 0))
         else s.trap 0x07 (wordOf (.callReg a)) false) := rfl

theorem gateOf_call (s : State) : s.gateOf s.cur (form0 [.s 1]) = if s.me.full 1 then .go else .wait :=
  gateOf_s1 (q := form0 []) rfl

theorem gateOf_callReg {s : State} {a : SSrc} (hgo : s.gateOf s.cur (formA [] a) = .go) :
    s.gateOf s.cur (formA [.s 1] a) = if s.me.full 1 then .go else .wait :=
  gateOf_s1 (q := formA [] a) hgo

theorem exec_call_full {s : State} (h : s.me.full 1 = true) (off : BitVec 25) :
    exec (.call off) s = .next ((s.put 1 (s.me.pc + 4)).goTo (s.me.pc + 4 * BitVec.ofInt 64 off.toInt)) :=
  (exec_call s off).trans (gate_go (by rw [gateOf_call, h]; rfl))

theorem exec_call_empty {s : State} (h : s.me.full 1 = false) (off : BitVec 25) : exec (.call off) s = .next s :=
  (exec_call s off).trans (gate_wait (by rw [gateOf_call, h]; rfl))

section
variable {s : State} {a : SSrc} (hgo : s.gateOf s.cur (formA [] a) = .go)
include hgo

theorem exec_jr_aligned (ht : (s.sval (formA [] a) 0).toNat % 4 = 0) :
    exec (.jr a) s = .next ((s.pops (formA [] a)).goTo (s.sval (formA [] a) 0)) := by
  rw [exec_jr, gate_go hgo, if_pos ((aligned4_iff _).mpr ht)]

theorem exec_jr_misaligned (ht : (s.sval (formA [] a) 0).toNat % 4 ≠ 0) :
    exec (.jr a) s = s.trap 0x07 (wordOf (.jr a)) false := by
  rw [exec_jr, gate_go hgo, if_neg (mt (aligned4_iff _).mp ht)]

theorem gateOf_callReg_full (h1 : s.me.full 1 = true) : s.gateOf s.cur (formA [.s 1] a) = .go := by
  rw [gateOf_callReg hgo, h1]
  rfl

theorem exec_callReg_aligned (h1 : s.me.full 1 = true) (ht : (s.sval (formA [] a) 0).toNat % 4 = 0) :
    exec (.callReg a) s =
      .next (((s.pops (formA [] a)).put 1 (s.me.pc + 4)).goTo (s.sval (formA [] a) 0)) := by
  rw [exec_callReg, gate_go (gateOf_callReg_full hgo h1), if_pos ((aligned4_iff _).mpr ht)]

theorem exec_callReg_misaligned (h1 : s.me.full 1 = true) (ht : (s.sval (formA [] a) 0).toNat % 4 ≠ 0) :
    exec (.callReg a) s = s.trap 0x07 (wordOf (.callReg a)) false := by
  rw [exec_callReg, gate_go (gateOf_callReg_full hgo h1), if_neg (mt (aligned4_iff _).mp ht)]

theorem exec_callReg_empty (h1 : s.me.full 1 = false) : exec (.callReg a) s = .next s :=
  (exec_callReg s a).trans (gate_wait (by rw [gateOf_callReg hgo, h1]; rfl))

end

/-! ### The row of `jr` -/

/-- What row 0x1D rejects: a function above 1, a field d or b that is not 0, or wait bit wb (R55). -/
theorem decodeRow1D_reject {w : Nat}
    (h : 2 ≤ w % 32 ∨ w / 2 ^ 19 % 2 ^ 6 ≠ 0 ∨ w / 2 ^ 7 % 2 ^ 6 ≠ 0 ∨ w / 2 ^ 5 % 2 ≠ 0) :
    decodeRow1D w = .error (.field none) := by
  have hfields (hfn : fn w < 2) : (noD w && noB w) = false := by
    have hfn' : ¬ 2 ≤ w % 32 := by simpa [fn, fld] using hfn
    simp only [noD, noB, fld, Bool.and_eq_false_iff, beq_eq_false_iff_ne]
    exact h.resolve_left hfn'
  unfold decodeRow1D
  split
  next hfn => rw [hfields (by omega)]; rfl
  next hfn => rw [hfields (by omega)]; rfl
  next => rfl

/-- Settles O15: the mask branches by their tests (R124), the row of `jr` by its fields, and the calls by whether s1 is full
(R126, R127). -/
theorem jumpResult : Obligations.JumpResult := by
  refine ⟨?_, ?_, ?_, ?_⟩
  · intro w l _ hrow hw
    rw [decode, hrow]
    exact decodeRow1D_reject hw
  · intro s m off x ends
    exact ⟨branchesIf_of_maskBranch (exec_brAny m off s) (mask_any_iff x),
      branchesIf_of_maskBranch (exec_brAll m off s) (mask_all_iff x),
      branchesIf_of_maskBranch (exec_brNone m off s) (mask_none_iff x),
      branchesIf_of_maskBranch (exec_brNall m off s) (mask_nall_iff x)⟩
  · intro s off dest
    exact ⟨exec_bra s off, fun h1 => exec_call_full h1 off, fun h1 => exec_call_empty h1 off⟩
  · intro s a q x hgo
    exact ⟨fun ht => ⟨exec_jr_aligned hgo ht, fun h1 => exec_callReg_aligned hgo h1 ht⟩,
      fun ht => ⟨exec_jr_misaligned hgo ht, fun h1 => exec_callReg_misaligned hgo h1 ht⟩,
      fun h1 => exec_callReg_empty hgo h1⟩

end Sys2Proof.Machine
end

section
/-!
What completing an instruction leaves, whether it only retires, stops at a breakpoint or takes the FP trap (R19, R53, R414):
everything but PC, the issue and debug state, and the trap frame.
-/

namespace Sys2Proof.Machine
open Sys2Proof.Claims

/-! ### A slot that has issued an instruction -/

/-- The slot `x` with PC, the issue and debug state, and the trap frame with PRIV of `y`. -/
def Slot.withControl (x y : Slot) : Slot :=
  { x with pc := y.pc, issued := y.issued, halted := y.halted, stepOne := y.stepOne, epc := y.epc, cause := y.cause,
           tval := y.tval, estat := y.estat, priv := y.priv }

/-- A slot has kept everything but PC, the issue and debug state, and the trap frame with PRIV. -/
def KeptByControl (x y : Slot) : Prop := y = x.withControl y

namespace KeptByControl
variable {x y z : Slot}

theorem eq_withControl (h : KeptByControl x y) : y = x.withControl y := h

theorem trans (hxy : KeptByControl x y) (hyz : KeptByControl y z) : KeptByControl x z :=
  hyz.eq_withControl.trans ((congrArg (fun w : Slot => w.withControl z) hxy.eq_withControl).trans rfl)

theorem goneTo (x : Slot) (now : Nat) (next : Word) : KeptByControl x (x.goneTo now next) := rfl

theorem trapTo (x : Slot) (c : Nat) (v : Word) (e : BitVec 5) (epc tvec : Word) :
    KeptByControl x (x.trapTo c v e epc tvec) := rfl

theorem s_eq (h : KeptByControl x y) : y.s = x.s := (congrArg Slot.s h.eq_withControl).trans rfl
theorem v_eq (h : KeptByControl x y) : y.v = x.v := (congrArg Slot.v h.eq_withControl).trans rfl
theorem vFull_eq (h : KeptByControl x y) : y.vFull = x.vFull := (congrArg Slot.vFull h.eq_withControl).trans rfl
theorem m_eq (h : KeptByControl x y) : y.m = x.m := (congrArg Slot.m h.eq_withControl).trans rfl
theorem flags_eq (h : KeptByControl x y) : y.flags = x.flags := (congrArg Slot.flags h.eq_withControl).trans rfl
theorem reg_eq (h : KeptByControl x y) (r : SReg) : y.reg r = x.reg r :=
  (congrArg (fun w : Slot => w.reg r) h.eq_withControl).trans rfl
theorem mask_eq (h : KeptByControl x y) (r : MReg) : y.mask r = x.mask r :=
  (congrArg (fun w : Slot => w.mask r) h.eq_withControl).trans rfl

end KeptByControl

/-- The issuing slot has kept everything but PC, the issue and debug state, and the trap frame, and memory is as it was. -/
def State.Keeps (s t : State) : Prop := KeptByControl s.me t.me ∧ t.mem = s.mem

theorem State.Keeps.trans {s t u : State} (hst : s.Keeps t) (htu : t.Keeps u) : s.Keeps u :=
  ⟨hst.1.trans htu.1, htu.2.trans hst.2⟩

/-! ### Going on at the next instruction -/

@[simp] theorem cur_advanced (s : State) (next : Word) : (s.advanced next).cur = s.cur := cur_crewMoved s next

@[simp] theorem mem_advanced (s : State) (next : Word) : (s.advanced next).mem = s.mem := by
  change (s.crewMoved next).mem = s.mem
  unfold State.crewMoved
  split <;> rfl

theorem advanced_keeps (s : State) (next : Word) : s.Keeps (s.advanced next) :=
  ⟨me_advanced s next ▸ KeptByControl.goneTo s.me s.now next, mem_advanced s next⟩

theorem halted_keeps (s : State) : s.Keeps (s.modMe fun x => { x with halted := true }) :=
  ⟨(me_modMe s _).symm ▸ rfl, rfl⟩

theorem takeTrap_keeps {s : State} (h : TakesTraps s) (c : Nat) (v : Word) (lit : Bool) (epc : Word) :
    s.Keeps (s.takeTrap s.cur c v lit epc) :=
  ⟨takeTrap_me h ▸ KeptByControl.trapTo s.me c v _ epc _, takeTrap_mem h⟩

theorem takesTraps_advanced {s : State} (h : TakesTraps s) (next : Word) : TakesTraps (s.advanced next) := by
  unfold TakesTraps
  rw [me_advanced]
  exact h

/-- An instruction goes on, stops at a breakpoint behind which it has gone on, or takes the breakpoint's trap there (R414). -/
theorem goToLit_cases (s : State) (lit : Bool) (next : Word) :
    s.goToLit lit next = s.advanced next ∨
    s.goToLit lit next = (s.advanced next).modMe (fun x => { x with halted := true }) ∨
    s.goToLit lit next = (s.advanced next).takeTrap (s.advanced next).cur 0x09 0 lit next := by
  have hgo : s.goToLit lit next =
      if s.me.priv != 0 then s.advanced next
      else match ((s.advanced next).die (dieOf s.cur)).breakAt s.me.pc with
        | none => s.advanced next
        | some true => (s.advanced next).modSlot s.cur fun y => { y with halted := true }
        | some false => (s.advanced next).takeTrap s.cur 0x09 0 lit next := rfl
  rw [hgo, State.modMe, cur_advanced]
  split
  next => exact .inl rfl
  next =>
    split
    next => exact .inl rfl
    next => exact .inr (.inl rfl)
    next => exact .inr (.inr rfl)

theorem goToLit_keeps {s : State} (h : TakesTraps s ∨ Unbroken s) (lit : Bool) (next : Word) :
    s.Keeps (s.goToLit lit next) := by
  have hadv := advanced_keeps s next
  rcases h with ht | hu
  · rcases goToLit_cases s lit next with hgo | hgo | hgo <;> rw [hgo]
    · exact hadv
    · exact hadv.trans (halted_keeps _)
    · exact hadv.trans (takeTrap_keeps (takesTraps_advanced ht next) _ _ _ _)
  · rw [goToLit_unbroken hu]
    exact hadv

theorem retire_keeps {s : State} (h : TakesTraps s ∨ Unbroken s) (q : Form) : s.Keeps (s.retire q) :=
  goToLit_keeps h q.lit _

/-! ### Flags -/

theorem takesTraps_flagged {s : State} (h : TakesTraps s) (fl : BitVec 5) : TakesTraps (s.flagged fl) := by
  unfold TakesTraps
  rw [me_flagged]
  exact h

/-- Whether the raised flags are enabled or not, they are merged, and nothing else changes but the slot's control. -/
theorem retireFp_keeps {s : State} (h : Steady s) (q : Form) (fl : BitVec 5) :
    (s.flagged fl).Keeps (s.retireFp q fl) := by
  by_cases hfl : fl &&& s.me.ten = 0
  · rw [retireFp_disabled hfl]
    exact retire_keeps (h.imp (takesTraps_flagged · fl) fun hu => unbroken_flagged hu.1 fl) q
  · rcases h with ht | ⟨-, hten⟩
    · rw [retireFp_enabled hfl]
      exact takeTrap_keeps (s := (s.flagged fl).issuedNow) (takesTraps_flagged ht fl) _ _ _ _
    · exact absurd (hten.symm ▸ BitVec.and_zero) hfl

end Sys2Proof.Machine
end

section
/-!
Lane-wise instructions: what the lanes of a vector are, what a result with active lanes leaves (R147–R149), and the integer
operations on lanes (R158).
-/

namespace Sys2Proof.Machine
open Sys2Proof.Claims

/-! ### Lanes -/

theorem ofLaneList_lt (l : List W32) : ofLaneList l < 2 ^ (32 * l.length) := by
  induction l with
  | nil => decide
  | cons x l ih =>
    have hx : x.toNat < 2 ^ 32 := x.isLt
    rw [ofLaneList, List.length_cons, show 32 * (l.length + 1) = 32 + 32 * l.length by omega, Nat.pow_add]
    calc x.toNat + 2 ^ 32 * ofLaneList l
        < 2 ^ 32 * (ofLaneList l + 1) := by omega
      _ ≤ 2 ^ 32 * 2 ^ (32 * l.length) := Nat.mul_le_mul_left _ ih

theorem ofLaneList_digit (l : List W32) (k : Nat) : ofLaneList l / 2 ^ (32 * k) % 2 ^ 32 = (l.getD k 0).toNat := by
  induction l generalizing k with
  | nil => simp [ofLaneList]
  | cons x l ih =>
    have hx : x.toNat < 2 ^ 32 := x.isLt
    cases k with
    | zero =>
      rw [ofLaneList, Nat.mul_zero, Nat.pow_zero, Nat.div_one, Nat.add_mul_mod_self_left, Nat.mod_eq_of_lt hx]
      rfl
    | succ k =>
      have hdiv : (x.toNat + 2 ^ 32 * ofLaneList l) / 2 ^ 32 = ofLaneList l := by omega
      rw [ofLaneList, show 32 * (k + 1) = 32 + 32 * k by omega, Nat.pow_add, ← Nat.div_div_eq_div_mul, hdiv, ih k]
      rfl

theorem toNat_ofLanes (f : Nat → W32) : (ofLanes f).toNat = ofLaneList ((List.range 16).map f) := by
  have hlen : 32 * ((List.range 16).map f).length = 512 := by simp
  rw [ofLanes, BitVec.toNat_ofNat, ← hlen, Nat.mod_eq_of_lt (ofLaneList_lt _)]

theorem lane_ofLanes (f : Nat → W32) {k : Nat} (hk : k < 16) : lane (ofLanes f) k = f k := by
  apply BitVec.eq_of_toNat_eq
  rw [lane, BitVec.extractLsb'_toNat, toNat_ofLanes, Nat.shiftRight_eq_div_pow, ofLaneList_digit]
  simp [List.getD, hk]

theorem lane_blend (m : Mask) (new old : Vec) {k : Nat} (hk : k < 16) :
    lane (blend m new old) k = if m.getLsbD k then lane new k else lane old k :=
  lane_ofLanes _ hk

/-! ### Flags of the active lanes -/

theorem getLsbD_foldl_or (l : List Fp.Flags) (a : Fp.Flags) (j : Nat) :
    (l.foldl (· ||| ·) a).getLsbD j = (a.getLsbD j || l.any (·.getLsbD j)) := by
  induction l generalizing a with
  | nil => simp
  | cons x l ih => rw [List.foldl_cons, ih, BitVec.getLsbD_or, List.any_cons, Bool.or_assoc]

theorem getLsbD_unionFlags (l : List Fp.Flags) (j : Nat) : (unionFlags l).getLsbD j = l.any (·.getLsbD j) := by
  rw [unionFlags, getLsbD_foldl_or]
  simp

theorem getLsbD_laneFlags (m : Mask) (f : Nat → Fp.Flags) (j : Nat) :
    (laneFlags m f).getLsbD j = (List.range 16).any fun k => m.getLsbD k && (f k).getLsbD j := by
  rw [laneFlags, getLsbD_unionFlags, List.any_map]
  congr 1
  funext k
  by_cases hk : m.getLsbD k = true <;> simp [hk]

theorem laneFlags_zero (m : Mask) : laneFlags m (fun _ => 0) = 0 := by
  apply BitVec.eq_of_getLsbD_eq
  intro j _
  rw [getLsbD_laneFlags]
  simp

/-! ### Writing a vector register -/

@[simp] theorem me_putV (s : State) (d : VReg) (w : Vec) : (s.putV d w).me = s.me.setVec d w := me_modMe s _

theorem takesTraps_putV {s : State} {d : VReg} {w : Vec} (h : TakesTraps s) : TakesTraps (s.putV d w) := by
  unfold TakesTraps
  rw [me_putV]
  exact h

theorem unbroken_putV {s : State} {d : VReg} {w : Vec} (h : Unbroken s) : Unbroken (s.putV d w) := by
  unfold Unbroken
  rw [me_putV]
  exact h

theorem steady_putV {s : State} {d : VReg} {w : Vec} (h : Steady s) : Steady (s.putV d w) :=
  h.imp takesTraps_putV fun ⟨hu, hten⟩ => ⟨unbroken_putV hu, by rw [me_putV]; exact hten⟩

theorem vFull_setVec_self (x : Slot) (d : VReg) (w : Vec) : (x.setVec d w).vFull.getLsbD d.val = true := by
  simp [Slot.setVec]

theorem Slot.mergeFlags_zero (x : Slot) : x.mergeFlags 0 = x := by
  have h : x.flags ||| 0 = x.flags := BitVec.or_zero
  rw [Slot.mergeFlags, h]

/-- The slot after the active lanes of vD have taken the lanes of `f`, with the flags of these lanes merged (R148, R149). -/
def Slot.takeLanes (x : Slot) (d : VReg) (m : MReg) (f : Nat → W32 × Fp.Flags) : Slot :=
  (x.setVec d (blend (x.mask m) (ofLanes fun k => (f k).1) x.v[d])).mergeFlags (laneFlags (x.mask m) fun k => (f k).2)

theorem lane_takeLanes (x : Slot) (d : VReg) (m : MReg) (f : Nat → W32 × Fp.Flags) {k : Nat} (hk : k < 16) :
    lane (x.takeLanes d m f).v[d] k = if (x.mask m).getLsbD k then (f k).1 else lane x.v[d] k := by
  have hv : (x.takeLanes d m f).v[d] = blend (x.mask m) (ofLanes fun k => (f k).1) x.v[d] := vec_setVec_self x d _
  rw [hv, lane_blend _ _ _ hk, lane_ofLanes _ hk]

theorem flags_takeLanes (x : Slot) (d : VReg) (m : MReg) (f : Nat → W32 × Fp.Flags) (j : Nat) :
    (x.takeLanes d m f).flags.getLsbD j =
      (x.flags.getLsbD j || (List.range 16).any fun k => (x.mask m).getLsbD k && (f k).2.getLsbD j) :=
  BitVec.getLsbD_or.trans (congrArg _ (getLsbD_laneFlags _ _ _))

/-- An instruction that completes with lanes taken, and changes nothing else but its slot's control, writes these lanes. -/
theorem vWrites_of_takeLanes {i : Instr} {s t : State} {d : VReg} {m : MReg} {f : Nat → W32 × Fp.Flags}
    (hexec : exec i s = .next t) (hme : KeptByControl (s.me.takeLanes d m f) t.me) (hmem : t.mem = s.mem) :
    VWrites i d m f s := by
  refine ⟨t, hexec, ?_, ?_, ?_, ?_, hme.s_eq, fun a => by rw [hmem]⟩
  · intro k hk
    rw [hme.v_eq]
    exact lane_takeLanes s.me d m f hk
  · rw [hme.vFull_eq]
    exact vFull_setVec_self s.me d (blend (s.me.mask m) (ofLanes fun k => (f k).1) s.me.v[d])
  · intro r hr
    rw [hme.v_eq]
    exact vec_setVec_other s.me (blend (s.me.mask m) (ofLanes fun k => (f k).1) s.me.v[d]) hr
  · intro j _
    rw [hme.flags_eq]
    exact flags_takeLanes s.me d m f j

/-- Vector sources are no channel ends: nothing is popped (R24). -/
theorem pops_formV (s : State) (ds : List Dst) (a : VSrc) (b : VOpd) : s.pops (formV ds a b) = s := by
  cases b with
  | reg r => rfl
  | lit l => rfl

/-! ### Integer operations on lanes (R158) -/

/-- A lane-wise operation that can go on writes its lanes and raises no flag. -/
theorem vWrites_of_vecInt {i : Instr} {s : State} {op : W32 → W32 → W32} {d : VReg} {a : VSrc} {b : VOpd} {m : MReg}
    (hexec : exec i s = vecInt op d a b m s) (hs : Steady s) (hgo : s.gateOf s.cur (formV [.v d] a b) = .go) :
    VWrites i d m (fun k => (op (lane (s.vval (formV [.v d] a b) 0) k) (lane (s.bvec (formV [.v d] a b) 1 b) k), 0)) s := by
  have hnext := hexec.trans (gate_go hgo)
  rw [pops_formV] at hnext
  obtain ⟨hme, hmem⟩ := retire_keeps ((steady_putV hs).imp id And.left) (formV [.v d] a b)
  refine vWrites_of_takeLanes hnext ?_ hmem
  rw [me_putV] at hme
  rw [Slot.takeLanes, laneFlags_zero, Slot.mergeFlags_zero]
  exact hme

/-- A literal stands in every lane (R57). -/
theorem lane_bvec_lit (s : State) (q : Form) (n : Nat) (l : W32) {k : Nat} (hk : k < 16) :
    lane (s.bvec q n (.lit l)) k = l :=
  lane_ofLanes _ hk

/-- Only the lanes 0 to 15 matter. -/
theorem vWrites_congr {i : Instr} {s : State} {d : VReg} {m : MReg} {f g : Nat → W32 × Fp.Flags}
    (h : VWrites i d m f s) (hfg : ∀ k, k < 16 → f k = g k) : VWrites i d m g s := by
  obtain ⟨t, hexec, hlane, hfull, hother, hflags, hkept⟩ := h
  refine ⟨t, hexec, fun k hk => hfg k hk ▸ hlane k hk, hfull, hother, fun j hj => ?_, hkept⟩
  rw [hflags j hj]
  congr 1
  rw [Bool.eq_iff_iff, List.any_eq_true, List.any_eq_true]
  exact exists_congr fun k => and_congr_right fun hk => by rw [hfg k (List.mem_range.mp hk)]

/-- The low five bits of a shift count as a number. -/
theorem shift_count (y : W32) : (y.extractLsb' 0 5).toNat = y.toNat % 32 := by
  simp [BitVec.extractLsb'_toNat]

/-- A choice between two values is the same by a strict and by a weak test, where the values agree between the two tests. -/
theorem ite_strict_eq_ite_weak {α : Type} {c e : Prop} [Decidable c] [Decidable e] {p q : α} (hce : c → e)
    (h : e → ¬ c → p = q) : (if c then p else q) = if e then p else q := by
  by_cases hc : c
  · rw [if_pos hc, if_pos (hce hc)]
  · by_cases he : e
    · rw [if_neg hc, if_pos he, h he hc]
    · rw [if_neg hc, if_neg he]

theorem ite_slt_eq_ite_le {x y p q : W32} (h : x = y → p = q) :
    (if x.slt y then p else q) = if x.toInt ≤ y.toInt then p else q :=
  ite_strict_eq_ite_weak (fun hlt => Int.le_of_lt (BitVec.slt_iff_toInt_lt.mp hlt)) fun hle hnot =>
    h (BitVec.eq_of_toInt_eq (Int.le_antisymm hle (Int.not_lt.mp fun hlt => hnot (BitVec.slt_iff_toInt_lt.mpr hlt))))

theorem ite_ult_eq_ite_le {x y p q : W32} (h : x = y → p = q) :
    (if x < y then p else q) = if x.toNat ≤ y.toNat then p else q :=
  ite_strict_eq_ite_weak (fun hlt => Nat.le_of_lt (BitVec.lt_def.mp hlt)) fun hle hnot =>
    h (BitVec.eq_of_toNat_eq (Nat.le_antisymm hle (Nat.not_lt.mp fun hlt => hnot (BitVec.lt_def.mpr hlt))))

theorem ofNat_mul_toNat (x y : W32) : BitVec.ofNat 32 (x.toNat * y.toNat) = x * y := by
  rw [BitVec.ofNat_mul, BitVec.ofNat_toNat, BitVec.ofNat_toNat, BitVec.setWidth_eq, BitVec.setWidth_eq]

/-- Each row of the table of R158 is the lane-wise operation with its function. -/
theorem exec_laneInt {i : Instr} {d : VReg} {a : VSrc} {b : VOpd} {m : MReg} {f : W32 → W32 → W32}
    (h : laneInt i = some (d, a, b, m, f)) (s : State) : exec i s = vecInt f d a b m s := by
  unfold laneInt at h
  split at h
  all_goals simp only [Option.some.injEq, Prod.mk.injEq, reduceCtorEq] at h
  all_goals obtain ⟨rfl, rfl, rfl, rfl, rfl⟩ := h
  · rfl
  · rfl
  · simp only [ofNat_mul_toNat]
    rfl
  · simp only [← ite_slt_eq_ite_le id]
    rfl
  · simp only [← ite_ult_eq_ite_le id]
    rfl
  · simp only [← ite_slt_eq_ite_le Eq.symm]
    rfl
  · simp only [← ite_ult_eq_ite_le Eq.symm]
    rfl
  · rfl
  · rfl
  · rfl
  · simp only [shift_count]
    rfl
  · simp only [shift_count]
    rfl
  · simp only [shift_count]
    rfl

theorem decodeRow2C_reject {w : Nat} (h : 0x0D ≤ w % 32) (l : W32) : decodeRow2C w l = .error (.field none) := by
  have hfn : fn w = w % 32 := by simp [fn, fld]
  obtain ⟨k, hk⟩ := Nat.exists_eq_add_of_le' h
  unfold decodeRow2C
  rw [hfn, hk]
  rfl

/-- Settles O24: every row of R158 is one lane-wise operation, and such an operation writes its active lanes. -/
theorem laneIntegerResult : Obligations.LaneIntegerResult := by
  refine ⟨?_, ?_⟩
  · intro w l _ hrow hw
    rw [decode, hrow]
    exact decodeRow2C_reject hw l
  · intro i s d a b m f hrow hs q hgo
    refine vWrites_congr (vWrites_of_vecInt (exec_laneInt hrow s) hs hgo) fun k hk => ?_
    cases b with
    | reg r => rfl
    | lit l => exact congrArg (fun y => (f (lane (s.vval (formV [.v d] a (.lit l)) 0) k) y, 0)) (lane_bvec_lit s _ 1 l hk)

end Sys2Proof.Machine
end

section
/-!
Encodings of floating-point formats: which value an encoding has, told from its sign and its magnitude (R91, R92, R94), the class
bit of `fclass` and `vfclass` (R154), and the order of `fcmp` (R153).
-/

namespace Sys2Proof.Machine
open Sys2Proof.Claims
open Sys2Proof.Fp (Fmt Val)

/-! ### The value of an encoding -/

/-- The sign bit of an encoding is set. -/
def negative (F : Fmt) (n : Nat) : Bool := decide (2 ^ (F.eb + F.fb) ≤ n)

theorem mag_div (F : Fmt) (n : Nat) : mag F n / 2 ^ F.fb = n / 2 ^ F.fb % 2 ^ F.eb := by
  rw [mag, Nat.add_comm, Nat.pow_add, Nat.mod_mul_right_div_self]

theorem mag_mod (F : Fmt) (n : Nat) : mag F n % 2 ^ F.fb = n % 2 ^ F.fb :=
  Nat.mod_mod_of_dvd n (Nat.pow_dvd_pow 2 (Nat.le_add_left F.fb F.eb))

theorem negative_eq {F : Fmt} {n : Nat} (h : n < 2 ^ F.width) : (n / 2 ^ (F.eb + F.fb) % 2 == 1) = negative F n := by
  have hlt : n / 2 ^ (F.eb + F.fb) < 2 := by
    rw [Fmt.width, Nat.add_assoc, Nat.add_comm 1, Nat.pow_succ] at h
    exact Nat.div_lt_of_lt_mul h
  rw [negative, Bool.eq_iff_iff, beq_iff_eq, decide_eq_true_iff, Nat.mod_eq_of_lt hlt,
    ← Nat.one_le_div_iff (Nat.two_pow_pos _)]
  omega

/-- The three kinds of values of a format with infinities, by the exponent and the fraction of an encoding. -/
theorem val_eq {F : Fmt} (hinf : F.inf = true) (heb : 0 < F.eb) {n : Nat} (h : n < 2 ^ F.width) :
    F.val n =
      if mag F n / 2 ^ F.fb = 2 ^ F.eb - 1 then
        if mag F n % 2 ^ F.fb = 0 then .inf (negative F n)
        else .nan (negative F n) (decide (mag F n % 2 ^ F.fb < 2 ^ (F.fb - 1)))
      else .fin (negative F n) (magOf F (mag F n)).1 (magOf F (mag F n)).2 := by
  have htop : 2 ^ F.eb - 1 ≠ 0 := by
    have := Nat.one_lt_two_pow (Nat.ne_of_gt heb)
    omega
  have hsig : (mag F n % 2 ^ F.fb / 2 ^ (F.fb - 1) == 0) = decide (mag F n % 2 ^ F.fb < 2 ^ (F.fb - 1)) := by
    rw [Bool.eq_iff_iff, beq_iff_eq, decide_eq_true_iff, Nat.div_eq_zero_iff_lt (Nat.two_pow_pos _)]
  rw [Fmt.val, negative_eq h, ← mag_div, ← mag_mod, hsig, hinf, magOf]
  by_cases he : mag F n / 2 ^ F.fb = 2 ^ F.eb - 1
  · simp [he, htop]
  · by_cases h0 : mag F n / 2 ^ F.fb = 0
    · simp [h0, htop.symm]
    · simp [he, h0]

/-- The magnitude of an infinity: exponent all ones, fraction 0 (R91). -/
def infMag (F : Fmt) : Nat := (2 ^ F.eb - 1) * 2 ^ F.fb

theorem mag_lt (F : Fmt) (n : Nat) : mag F n < 2 ^ F.eb * 2 ^ F.fb := by
  rw [← Nat.pow_add]
  exact Nat.mod_lt n (Nat.two_pow_pos _)

theorem top_exponent_iff (F : Fmt) (n : Nat) : mag F n / 2 ^ F.fb = 2 ^ F.eb - 1 ↔ infMag F ≤ mag F n := by
  have hlt : mag F n / 2 ^ F.fb < 2 ^ F.eb := Nat.div_lt_of_lt_mul (Nat.mul_comm _ _ ▸ mag_lt F n)
  rw [infMag, ← Nat.le_div_iff_mul_le (Nat.two_pow_pos _)]
  omega

theorem zero_fraction_iff {F : Fmt} {n : Nat} (h : infMag F ≤ mag F n) : mag F n % 2 ^ F.fb = 0 ↔ mag F n = infMag F := by
  have hsplit := Nat.div_add_mod (mag F n) (2 ^ F.fb)
  rw [(top_exponent_iff F n).mpr h, Nat.mul_comm] at hsplit
  unfold infMag at h ⊢
  omega

theorem not_nan {F : Fmt} {n : Nat} (h : mag F n ≤ infMag F) : ¬ nan F n := Nat.not_lt.mpr h

section
variable {F : Fmt} (hinf : F.inf = true) (heb : 0 < F.eb) {n : Nat} (h : n < 2 ^ F.width)
include hinf heb h

theorem val_fin (hm : mag F n < infMag F) : F.val n = .fin (negative F n) (magOf F (mag F n)).1 (magOf F (mag F n)).2 := by
  rw [val_eq hinf heb h, if_neg (mt (top_exponent_iff F n).mp (Nat.not_le.mpr hm))]

theorem val_inf (hm : mag F n = infMag F) : F.val n = .inf (negative F n) := by
  have hge : infMag F ≤ mag F n := Nat.le_of_eq hm.symm
  rw [val_eq hinf heb h, if_pos ((top_exponent_iff F n).mpr hge), if_pos ((zero_fraction_iff hge).mpr hm)]

theorem val_nan (hm : nan F n) : F.val n = .nan (negative F n) (decide (snan F n)) := by
  have hge : infMag F ≤ mag F n := Nat.le_of_lt hm
  rw [val_eq hinf heb h, if_pos ((top_exponent_iff F n).mpr hge), if_neg (mt (zero_fraction_iff hge).mp (Nat.ne_of_gt hm))]
  simp only [snan, hm, true_and]

theorem isNan_val : (F.val n).isNan = decide (nan F n) := by
  rcases Nat.lt_trichotomy (mag F n) (infMag F) with hm | hm | hm
  · rw [val_fin hinf heb h hm, decide_eq_false (not_nan (Nat.le_of_lt hm))]
    rfl
  · rw [val_inf hinf heb h hm, decide_eq_false (not_nan (Nat.le_of_eq hm))]
    rfl
  · have hnan : nan F n := hm
    rw [val_nan hinf heb h hnan, decide_eq_true hnan]
    rfl

theorem sigFlag_val : (F.val n).sigFlag = if snan F n then Fp.NV else 0 := by
  rcases Nat.lt_trichotomy (mag F n) (infMag F) with hm | hm | hm
  · rw [val_fin hinf heb h hm, if_neg fun hs => not_nan (Nat.le_of_lt hm) hs.1]
    rfl
  · rw [val_inf hinf heb h hm, if_neg fun hs => not_nan (Nat.le_of_eq hm) hs.1]
    rfl
  · rw [val_nan hinf heb h hm]
    by_cases hs : snan F n
    · rw [if_pos hs, decide_eq_true hs]
      rfl
    · rw [if_neg hs, decide_eq_false hs]
      rfl

/-- The class by the value of an encoding is the class by its fields (R154). -/
theorem classify_eq_classOf : Fp.classify F n = classOf F n := by
  have hfrac : mag F n % 2 ^ F.fb < 2 ^ F.fb := Nat.mod_lt _ (Nat.two_pow_pos _)
  rw [Fp.classify, val_eq hinf heb h, classOf, magOf]
  by_cases htop : mag F n / 2 ^ F.fb = 2 ^ F.eb - 1
  · by_cases h0 : mag F n % 2 ^ F.fb = 0
    · simp [htop, h0, negative]
    · by_cases hs : mag F n % 2 ^ F.fb < 2 ^ (F.fb - 1)
      · simp [htop, h0, hs]
      · simp [htop, h0, hs]
  · rw [if_neg htop, if_neg htop]
    by_cases hz : mag F n / 2 ^ F.fb = 0
    · by_cases h0 : mag F n % 2 ^ F.fb = 0
      · simp [hz, h0, negative]
      · simp [hz, h0, hfrac, negative]
    · have hnormal : ¬ 2 ^ F.fb + mag F n % 2 ^ F.fb < 2 ^ F.fb := by omega
      simp [hz, hnormal, negative]

end

/-! ### Classes (R154) -/

theorem fmt_inf (t : FTy) : (Fp.fmt t).inf = true := by cases t <;> rfl

theorem fmt_eb_pos (t : FTy) : 0 < (Fp.fmt t).eb := by cases t <;> decide

theorem fbits_lt (t : FTy) (x : Word) : fbits t x < 2 ^ (Fp.fmt t).width := Nat.mod_lt _ (Nat.two_pow_pos _)

theorem lbits_lt (t : FTy) (x : W32) : lbits t x < 2 ^ (Fp.fmt t).width := Nat.mod_lt _ (Nat.two_pow_pos _)

/-- A lane-wise operation of one source that can go on writes its lanes with their flags (R148, R149). -/
theorem vWrites_of_vecFp1 {i : Instr} {s : State} {op : Fmt → Fp.RM → Nat → Nat × Fp.Flags} {d : VReg} {a : VSrc}
    {m : MReg} {t : FTy} (hexec : exec i s = vecFp1 op d a m t s) (hs : Steady s) :
    let q : Form := { srcs := [.v a.reg a.wait], dsts := [.v d], lit := false }
    s.gateOf s.cur q = .go →
      VWrites i d m (fun k => asLane (op (Fp.fmt t) s.rm (lbits t (lane (s.vval q 0) k)))) s := by
  intro q hgo
  obtain ⟨hme, hmem⟩ := retireFp_keeps (steady_putV hs) q _
  refine vWrites_of_takeLanes (hexec.trans (gate_go hgo)) ?_ hmem
  rw [me_flagged, me_putV] at hme
  exact hme

theorem exec_vfclass (d : VReg) (a : VSrc) (m : MReg) (t : FTy) (s : State) :
    exec (.vfclass d a m t) s = vecFp1 (fun F _ n => (Fp.classify F n, 0)) d a m t s := rfl

theorem exec_fclass (d : SReg) (a : SSrc) (t : FTy) (s : State) :
    exec (.fclass d a t) s = fp1 (fun F _ n => (Fp.classify F n, 0)) d a t s := rfl

/-- Settles O26: the class by the value of an encoding is the class by its fields (R154). -/
theorem classifyResult : Obligations.ClassifyResult := by
  refine ⟨?_, ?_⟩
  · intro s d a t q hgo
    rw [← classify_eq_classOf (fmt_inf t) (fmt_eb_pos t) (fbits_lt t _)]
    exact (exec_fclass d a t s).trans (gate_go hgo)
  · intro s d a m t q hgo hs
    refine vWrites_congr (vWrites_of_vecFp1 (exec_vfclass d a m t s) hs hgo) fun k _ => ?_
    rw [← classify_eq_classOf (fmt_inf t) (fmt_eb_pos t) (lbits_lt t _)]
    rfl

end Sys2Proof.Machine
end

section
/-!
The order of `fcmp` (R153): values compare as the encodings do that are read as sign and magnitude.
-/

namespace Sys2Proof.Machine
open Sys2Proof.Claims
open Sys2Proof.Fp (Fmt Val)

/-! ### Magnitudes -/

/-- The finite magnitude of an encoding in units of the smallest one, `2^(emin - fb)`. -/
def weight (F : Fmt) (k : Nat) : Nat := (magOf F k).1 * 2 ^ (k / 2 ^ F.fb - 1)

/-- The exponent of a magnitude: the smallest one for the exponent fields 0 and 1, and one more for each from there (R92). -/
theorem magOf_exponent (F : Fmt) (k : Nat) : (magOf F k).2 = F.emin - F.fb + (k / 2 ^ F.fb - 1 : Nat) := by
  unfold magOf Fmt.emin
  by_cases h0 : k / 2 ^ F.fb = 0
  · rw [if_pos h0, h0]
    simp
  · rw [if_neg h0]
    have hone : 1 ≤ k / 2 ^ F.fb := Nat.one_le_iff_ne_zero.mpr h0
    omega

theorem weight_eq_zero_iff (F : Fmt) (k : Nat) : weight F k = 0 ↔ k = 0 := by
  have hsplit := Nat.div_add_mod k (2 ^ F.fb)
  unfold weight magOf
  by_cases h0 : k / 2 ^ F.fb = 0
  · have hk : k % 2 ^ F.fb = k := by rwa [h0, Nat.mul_zero, Nat.zero_add] at hsplit
    simp [h0, hk]
  · have hk : k ≠ 0 := fun hk => h0 (by rw [hk, Nat.zero_div])
    rw [if_neg h0]
    have hpos : 0 < (2 ^ F.fb + k % 2 ^ F.fb) * 2 ^ (k / 2 ^ F.fb - 1) :=
      Nat.mul_pos (Nat.add_pos_left (Nat.two_pow_pos _) _) (Nat.two_pow_pos _)
    exact ⟨fun h => absurd h (Nat.ne_of_gt hpos), fun h => absurd h hk⟩

/-- A magnitude lies below the smallest one of the next exponent field. -/
theorem weight_lt_next (F : Fmt) (k : Nat) : weight F k < 2 ^ F.fb * 2 ^ (k / 2 ^ F.fb) := by
  have hfrac : k % 2 ^ F.fb < 2 ^ F.fb := Nat.mod_lt _ (Nat.two_pow_pos _)
  unfold weight magOf
  by_cases h0 : k / 2 ^ F.fb = 0
  · simp [h0, hfrac]
  · obtain ⟨e, he⟩ := Nat.exists_eq_succ_of_ne_zero h0
    rw [if_neg h0, he, Nat.succ_sub_one, Nat.pow_succ, Nat.mul_comm (2 ^ e), ← Nat.mul_assoc]
    exact Nat.mul_lt_mul_of_pos_right (by omega) (Nat.two_pow_pos _)

/-- Magnitudes grow with their encodings. -/
theorem weight_lt_weight (F : Fmt) {k l : Nat} (hkl : k < l) : weight F k < weight F l := by
  have hle : k / 2 ^ F.fb ≤ l / 2 ^ F.fb := Nat.div_le_div_right (Nat.le_of_lt hkl)
  rcases Nat.lt_or_eq_of_le hle with hlt | heq
  · have h0 : l / 2 ^ F.fb ≠ 0 := Nat.ne_zero_of_lt hlt
    calc weight F k
        < 2 ^ F.fb * 2 ^ (k / 2 ^ F.fb) := weight_lt_next F k
      _ ≤ (2 ^ F.fb + l % 2 ^ F.fb) * 2 ^ (l / 2 ^ F.fb - 1) :=
          Nat.mul_le_mul (Nat.le_add_right _ _) (Nat.pow_le_pow_right (by decide) (by omega))
      _ = weight F l := by rw [weight, magOf, if_neg h0]
  · have hfrac : k % 2 ^ F.fb < l % 2 ^ F.fb := by
      have hk := Nat.div_add_mod k (2 ^ F.fb)
      have hl := Nat.div_add_mod l (2 ^ F.fb)
      rw [heq] at hk
      omega
    unfold weight
    rw [heq]
    refine Nat.mul_lt_mul_of_pos_right ?_ (Nat.two_pow_pos _)
    unfold magOf
    rw [heq]
    split
    next => exact hfrac
    next => exact Nat.add_lt_add_left hfrac _

theorem weight_lt_iff (F : Fmt) {k l : Nat} : weight F k < weight F l ↔ k < l := by
  refine ⟨fun h => ?_, weight_lt_weight F⟩
  rcases Nat.lt_trichotomy k l with hkl | hkl | hkl
  · exact hkl
  · exact absurd (hkl ▸ h) (Nat.lt_irrefl _)
  · exact absurd h (Nat.lt_asymm (weight_lt_weight F hkl))

/-- The magnitude `p.1 · 2^p.2` in units of `2^z`, for `z` at most its exponent. -/
def inUnits (p : Nat × Int) (z : Int) : Nat := p.1 * 2 ^ (p.2 - z).toNat

theorem inUnits_mul (F : Fmt) (k : Nat) {z : Int} (hlow : F.emin - F.fb ≤ z) (hz : z ≤ (magOf F k).2) :
    inUnits (magOf F k) z * 2 ^ (z - (F.emin - F.fb)).toNat = weight F k := by
  have hexp := magOf_exponent F k
  rw [inUnits, weight, Nat.mul_assoc, ← Nat.pow_add]
  congr 2
  omega

/-- Two magnitudes in a common unit compare as their encodings do. -/
theorem inUnits_lt_iff (F : Fmt) {k l : Nat} {z : Int} (hlow : F.emin - F.fb ≤ z) (hk : z ≤ (magOf F k).2)
    (hl : z ≤ (magOf F l).2) : inUnits (magOf F k) z < inUnits (magOf F l) z ↔ k < l := by
  rw [← weight_lt_iff F (k := k) (l := l), ← inUnits_mul F k hlow hk, ← inUnits_mul F l hlow hl,
    Nat.mul_lt_mul_right (Nat.two_pow_pos _)]

theorem inUnits_eq_zero_iff (F : Fmt) {k : Nat} {z : Int} (hlow : F.emin - F.fb ≤ z) (hk : z ≤ (magOf F k).2) :
    inUnits (magOf F k) z = 0 ↔ k = 0 := by
  rw [← weight_eq_zero_iff F k, ← inUnits_mul F k hlow hk, Nat.mul_eq_zero]
  exact ⟨Or.inl, fun h => h.resolve_right (Nat.ne_of_gt (Nat.two_pow_pos _))⟩

/-! ### Signs -/

/-- A magnitude with a sign. -/
def signed (s : Bool) (a : Nat) : Int := if s then -(a : Int) else a

theorem key_eq_signed (F : Fmt) (n : Nat) : key F n = signed (negative F n) (mag F n) := by
  rw [key, signed, negative]
  by_cases h : n < 2 ^ (F.eb + F.fb)
  · rw [if_pos h, decide_eq_false (Nat.not_le.mpr h), if_neg Bool.false_ne_true]
  · rw [if_neg h, decide_eq_true (Nat.not_lt.mp h), if_pos rfl]

theorem toUnits_magOf (F : Fmt) (s : Bool) (k : Nat) (z : Int) :
    Fp.toUnits s (magOf F k).1 (magOf F k).2 z = signed s (inUnits (magOf F k) z) := rfl

theorem signed_lt_iff {a b c d : Nat} {s t : Bool} (hlt : a < b ↔ c < d) (hgt : b < a ↔ d < c) (ha : a = 0 ↔ c = 0)
    (hb : b = 0 ↔ d = 0) : signed s a < signed t b ↔ signed s c < signed t d := by
  unfold signed
  cases s <;> cases t <;> simp only [Bool.false_eq_true, if_true, if_false] <;> omega

theorem compare_congr {u v x y : Int} (hlt : u < v ↔ x < y) (hgt : v < u ↔ y < x) : compare u v = compare x y := by
  rcases Int.lt_trichotomy x y with h | h | h
  · rw [Int.compare_eq_lt.mpr h, Int.compare_eq_lt.mpr (hlt.mpr h)]
  · rw [Int.compare_eq_eq.mpr h, Int.compare_eq_eq]
    omega
  · rw [Int.compare_eq_gt.mpr h, Int.compare_eq_gt.mpr (hgt.mpr h)]

/-- The sign of the greater magnitude decides. -/
theorem compare_signed_of_lt {a b : Nat} (h : a < b) (s t : Bool) :
    compare (signed s a) (signed t b) = if t then .gt else .lt := by
  cases t with
  | true =>
    refine Int.compare_eq_gt.mpr (?_ : -(b : Int) < signed s a)
    unfold signed
    split <;> omega
  | false =>
    refine Int.compare_eq_lt.mpr (?_ : signed s a < (b : Int))
    unfold signed
    split <;> omega

theorem compare_signed_of_gt {a b : Nat} (h : b < a) (s t : Bool) :
    compare (signed s a) (signed t b) = if s then .lt else .gt := by
  rw [Std.OrientedOrd.eq_swap (a := signed s a), compare_signed_of_lt h t s]
  cases s <;> rfl

/-- Equal magnitudes other than 0 are told apart by their signs. -/
theorem compare_signed_self {a : Nat} (h : 0 < a) (s t : Bool) :
    compare (signed s a) (signed t a) = if s == t then .eq else if s then .lt else .gt := by
  cases s <;> cases t
  · exact Int.compare_eq_eq.mpr rfl
  · exact Int.compare_eq_gt.mpr (show -(a : Int) < a by omega)
  · exact Int.compare_eq_lt.mpr (show -(a : Int) < a by omega)
  · exact Int.compare_eq_eq.mpr rfl

/-! ### Comparing two values -/

/-- Two finite magnitudes with signs compare in any common unit as their encodings with signs do. -/
theorem compare_units (F : Fmt) (s t : Bool) (k l : Nat) :
    Fp.cmpNum (.fin s (magOf F k).1 (magOf F k).2) (.fin t (magOf F l).1 (magOf F l).2) = compare (signed s k) (signed t l) := by
  have hlow : F.emin - F.fb ≤ min (magOf F k).2 (magOf F l).2 := by
    rw [magOf_exponent, magOf_exponent]
    omega
  have hk : min (magOf F k).2 (magOf F l).2 ≤ (magOf F k).2 := Int.min_le_left _ _
  have hl : min (magOf F k).2 (magOf F l).2 ≤ (magOf F l).2 := Int.min_le_right _ _
  have hlt := inUnits_lt_iff F hlow hk hl
  have hgt := inUnits_lt_iff F hlow hl hk
  have hk0 := inUnits_eq_zero_iff F hlow hk
  have hl0 := inUnits_eq_zero_iff F hlow hl
  exact compare_congr (signed_lt_iff hlt hgt hk0 hl0) (signed_lt_iff hgt hlt hl0 hk0)

/-- The bit of `fcmp` for an order (R153). -/
def orderBit : Ordering → Nat
  | .lt => 1
  | .eq => 2
  | .gt => 4

theorem cmp_of_no_nan {a b : Val} (h : ¬ (a.isNan || b.isNan) = true) :
    Fp.cmp a b = (orderBit (Fp.cmpNum a b), a.sigFlag ||| b.sigFlag) := by
  refine (if_neg h).trans ?_
  cases Fp.cmpNum a b with
  | lt => rfl
  | eq => rfl
  | gt => rfl

section
variable {F : Fmt} (hinf : F.inf = true) (heb : 0 < F.eb) {x y : Nat} (hx : x < 2 ^ F.width) (hy : y < 2 ^ F.width)
include hinf heb hx hy

/-- Numbers compare as their encodings do that are read as sign and magnitude (R153). -/
theorem cmpNum_val (hxn : ¬ nan F x) (hyn : ¬ nan F y) : Fp.cmpNum (F.val x) (F.val y) = compare (key F x) (key F y) := by
  have hpos : 0 < infMag F := Nat.mul_pos (Nat.sub_pos_of_lt (Nat.one_lt_two_pow (Nat.ne_of_gt heb))) (Nat.two_pow_pos _)
  rw [key_eq_signed, key_eq_signed]
  rcases Nat.lt_or_eq_of_le (Nat.le_of_not_lt hxn : mag F x ≤ infMag F) with hxf | hxi <;>
    rcases Nat.lt_or_eq_of_le (Nat.le_of_not_lt hyn : mag F y ≤ infMag F) with hyf | hyi
  · rw [val_fin hinf heb hx hxf, val_fin hinf heb hy hyf]
    exact compare_units F _ _ _ _
  · rw [val_fin hinf heb hx hxf, val_inf hinf heb hy hyi, hyi, compare_signed_of_lt hxf]
    rfl
  · rw [val_inf hinf heb hx hxi, val_fin hinf heb hy hyf, hxi, compare_signed_of_gt hyf]
    rfl
  · rw [val_inf hinf heb hx hxi, val_inf hinf heb hy hyi, hxi, hyi, compare_signed_self hpos]
    rfl

theorem cmp_val_unordered (hn : nan F x ∨ nan F y) :
    Fp.cmp (F.val x) (F.val y) = (8, (F.val x).sigFlag ||| (F.val y).sigFlag) := by
  have hor : ((F.val x).isNan || (F.val y).isNan) = true := by
    rw [isNan_val hinf heb hx, isNan_val hinf heb hy, ← Bool.decide_or, decide_eq_true hn]
  exact if_pos hor

theorem cmp_val_ordered {o : Ordering} (hn : ¬ (nan F x ∨ nan F y)) (ho : compare (key F x) (key F y) = o) :
    Fp.cmp (F.val x) (F.val y) = (orderBit o, (F.val x).sigFlag ||| (F.val y).sigFlag) := by
  have hor : ¬ ((F.val x).isNan || (F.val y).isNan) = true := by
    rw [isNan_val hinf heb hx, isNan_val hinf heb hy, ← Bool.decide_or, decide_eq_false hn]
    exact Bool.false_ne_true
  obtain ⟨hxn, hyn⟩ := not_or.mp hn
  rw [← ho, ← cmpNum_val hinf heb hx hy hxn hyn]
  exact cmp_of_no_nan hor

/-- A signalling NaN raises NV, and nothing else a flag. -/
theorem sigFlag_or : (F.val x).sigFlag ||| (F.val y).sigFlag = if snan F x ∨ snan F y then Fp.NV else 0 := by
  rw [sigFlag_val hinf heb hx, sigFlag_val hinf heb hy]
  by_cases hxs : snan F x
  · rw [if_pos hxs, if_pos (Or.inl hxs : snan F x ∨ snan F y)]
    split <;> rfl
  · by_cases hys : snan F y
    · rw [if_neg hxs, if_pos hys, if_pos (Or.inr hys : snan F x ∨ snan F y)]
      rfl
    · have hnone : ¬ (snan F x ∨ snan F y) := fun h => h.elim hxs hys
      rw [if_neg hxs, if_neg hys, if_neg hnone]
      rfl

end

theorem exec_fcmp (d : SReg) (a : SSrc) (b : SOpd) (t : FTy) (s : State) : exec (.fcmp d a b t) s = fp2 opCmp d a b t s := rfl

/-- Settles O23: values compare as their encodings read as sign and magnitude (R153). -/
theorem floatCompare : Obligations.FloatCompare := by
  intro s d a b t q F x y n sets hgo
  have hx : x < 2 ^ F.width := fbits_lt t _
  have hy : y < 2 ^ F.width := fbits_lt t _
  have hexec : exec (.fcmp d a b t) s =
      .next (((s.pops q).put d (fpWord (Fp.cmp (F.val x) (F.val y)).1)).retireFp q (Fp.cmp (F.val x) (F.val y)).2) :=
    (exec_fcmp d a b t s).trans (gate_go hgo)
  have hsets (k : Nat) (p : Prop)
      (hcmp : p → Fp.cmp (F.val x) (F.val y) = (2 ^ k, (F.val x).sigFlag ||| (F.val y).sigFlag)) : sets k p := by
    intro hp
    rw [hcmp hp, sigFlag_or (fmt_inf t) (fmt_eb_pos t) hx hy] at hexec
    exact ⟨_, hexec, fun h => if_pos h, fun h => if_neg h⟩
  refine ⟨hsets 0 _ ?_, hsets 1 _ ?_, hsets 2 _ ?_, hsets 3 _ ?_⟩
  · rintro ⟨hn, hlt⟩
    exact cmp_val_ordered (fmt_inf t) (fmt_eb_pos t) hx hy hn (Int.compare_eq_lt.mpr hlt)
  · rintro ⟨hn, heq⟩
    exact cmp_val_ordered (fmt_inf t) (fmt_eb_pos t) hx hy hn (Int.compare_eq_eq.mpr heq)
  · rintro ⟨hn, hgt⟩
    exact cmp_val_ordered (fmt_inf t) (fmt_eb_pos t) hx hy hn (Int.compare_eq_gt.mpr hgt)
  · exact cmp_val_unordered (fmt_inf t) (fmt_eb_pos t) hx hy

end Sys2Proof.Machine
end

section
/-!
Mask instructions (R172, R173): what they write, and the words of their row that are no instruction (R55, R68).
-/

namespace Sys2Proof.Machine
open Sys2Proof.Claims

/-! ### Counting and searching bits -/

theorem onesBelow_eq_length (n a : Nat) : onesBelow a n = ((List.range n).filter a.testBit).length := by
  induction n generalizing a with
  | zero => rfl
  | succ n ih =>
    rw [List.range_succ_eq_map, List.filter_cons, List.filter_map, onesBelow, ih]
    have hrest : a.testBit ∘ Nat.succ = (a / 2).testBit := funext fun i => Nat.testBit_succ a i
    rw [hrest, Nat.testBit_zero]
    rcases Nat.mod_two_eq_zero_or_one a with h | h <;> simp [h, Nat.add_comm]

/-- The trailing zeros of a number are told by its lowest one bit. -/
theorem zerosBelow_of_lowest {n a k : Nat} (hk : k < n) (hone : a.testBit k = true)
    (hzero : ∀ j, j < k → a.testBit j = false) :
    zerosBelow a n = k := by
  induction n generalizing a k with
  | zero => omega
  | succ n ih =>
    rw [zerosBelow]
    cases k with
    | zero =>
      rw [Nat.testBit_zero] at hone
      simpa using hone
    | succ k =>
      have hlow := hzero 0 (Nat.succ_pos k)
      rw [Nat.testBit_zero] at hlow
      have hrest : zerosBelow (a / 2) n = k :=
        ih (by omega) (Nat.testBit_succ a k ▸ hone) fun j hj => Nat.testBit_succ a j ▸ hzero (j + 1) (by omega)
      rw [if_neg (by simpa using hlow), hrest, Nat.add_comm]

/-! ### Writing a mask -/

@[simp] theorem me_putM (s : State) (d : MReg) (w : Mask) : (s.putM d w).me = s.me.setMask d w := me_modMe s _

theorem mask_setMask_other (x : Slot) {d e : MReg} (w : Mask) (h : e ≠ d) : (x.setMask d w).mask e = x.mask e := by
  have hv : d.val ≠ e.val := fun he => h (Fin.ext he.symm)
  by_cases hd : d.val = 0
  · simp [Slot.setMask, hd]
  · simp [Slot.mask, Slot.setMask, hd, Vector.getElem_set_ne, hv]

/-- A write of a mask register, a discarded one included, changes the masks only. -/
theorem setMask_eq (x : Slot) (d : MReg) (w : Mask) : x.setMask d w = { x with m := (x.setMask d w).m } := by
  unfold Slot.setMask
  split <;> rfl

/-- A slot in which retiring keeps the registers: it takes traps by the frame, or no breakpoint stops it (R263, R414). -/
abbrev Settled (s : State) : Prop := TakesTraps s ∨ Unbroken s

theorem settled_putM {s : State} (h : Settled s) (d : MReg) (w : Mask) : Settled (s.putM d w) := by
  unfold Settled TakesTraps Unbroken
  rw [me_putM, setMask_eq]
  exact h

/-- A mask instruction that completes with `w` for mD writes it there, unless that is m0, and leaves all else (R16, R173). -/
theorem exec_writes_mask {i : Instr} {s : State} {d : MReg} {w : Mask} {q : Form} (h : Settled s)
    (hexec : exec i s = .next ((s.putM d w).retire q)) :
    ∃ t, exec i s = .next t ∧ t.me.mask d = (if d = 0 then 0xFFFF else w) ∧ (∀ e, e ≠ d → t.me.mask e = s.me.mask e) ∧
      t.me.s = s.me.s ∧ t.me.v = s.me.v ∧ t.me.flags = s.me.flags := by
  obtain ⟨hme, -⟩ := retire_keeps (settled_putM h d w) q
  rw [me_putM] at hme
  have hother := setMask_eq s.me d w
  refine ⟨_, hexec, ?_, fun e he => ?_, ?_, ?_, ?_⟩
  · rw [hme.mask_eq]
    exact mask_setMask_self s.me d w
  · rw [hme.mask_eq, mask_setMask_other s.me w he]
  · rw [hme.s_eq, hother]
  · rw [hme.v_eq, hother]
  · rw [hme.flags_eq, hother]

/-! ### Writing a scalar register that is no channel end -/

/-- A write of a scalar register, a discarded one included, changes the scalar registers with their full and dirty bits only. -/
theorem setReg_eq (x : Slot) (d : SReg) (w : Word) :
    x.setReg d w =
      { x with s := (x.setReg d w).s, sFull := (x.setReg d w).sFull, dirtyS := (x.setReg d w).dirtyS } := by
  unfold Slot.setReg
  split <;> rfl

section
variable {s : State} {d : SReg} (hrole : s.role s.cur d = .plain)
include hrole

theorem put_plain (w : Word) : s.put d w = s.modMe fun x => x.setReg d w := by
  rw [State.put, State.writeS, hrole]
  rfl

theorem me_put_plain (w : Word) : (s.put d w).me = s.me.setReg d w := by
  rw [put_plain hrole, me_modMe]

theorem settled_put (h : Settled s) (w : Word) : Settled (s.put d w) := by
  unfold Settled TakesTraps Unbroken
  rw [me_put_plain hrole, setReg_eq, put_plain hrole]
  exact h

/-- An instruction that completes with `w` for sD writes it there, unless that is s0, and leaves all else (R14, R173). -/
theorem exec_writes_scalar {i : Instr} {w : Word} {q : Form} (h : Settled s)
    (hexec : exec i s = .next ((s.put d w).retire q)) :
    ∃ t, exec i s = .next t ∧ t.me.reg d = (if d = 0 then 0 else w) ∧ (∀ e, e ≠ d → t.me.reg e = s.me.reg e) ∧
      t.me.m = s.me.m ∧ t.me.v = s.me.v ∧ t.me.flags = s.me.flags := by
  obtain ⟨hme, -⟩ := retire_keeps (settled_put hrole h w) q
  rw [me_put_plain hrole] at hme
  have hother := setReg_eq s.me d w
  refine ⟨_, hexec, ?_, fun e he => ?_, ?_, ?_, ?_⟩
  · rw [hme.reg_eq]
    exact reg_setReg_self s.me d w
  · rw [hme.reg_eq, reg_setReg_other s.me w he]
  · rw [hme.m_eq, hother]
  · rw [hme.v_eq, hother]
  · rw [hme.flags_eq, hother]

end

/-- The low bits of a scalar operand b as a mask, those of a literal included (R173). -/
def State.smask (s : State) (x : SOpd) : Mask :=
  match x with
  | .reg e => (s.me.reg e.reg).extractLsb' 0 16
  | .lit l => l.extractLsb' 0 16

/-! ### Issue where every scalar register is full and no channel end -/

section
variable {s : State} (hfull : s.me.sFull = BitVec.allOnes 64) (hrole : ∀ r, s.role s.cur r = .plain)

include hfull in
theorem full_of_allOnes (r : SReg) : s.me.full r = true := by
  rw [Slot.full, hfull, BitVec.getLsbD_allOnes, decide_eq_true r.isLt, Bool.or_true]

include hrole in
theorem pops_formB (ds : List Dst) (x : SOpd) : s.pops (formB ds x) = s := by
  cases x with
  | reg e => simp only [State.pops, formB, brefS, sref, List.foldl_cons, List.foldl_nil, hrole]
  | lit l => rfl

include hrole in
theorem low16_bval (ds : List Dst) (x : SOpd) : (s.bval (formB ds x) 0 .zext x).extractLsb' 0 16 = s.smask x := by
  cases x with
  | reg e =>
    have hval : s.sval (formB ds (.reg e)) 0 = s.me.reg e.reg := by
      simp only [State.sval, formB, brefS, sref, List.getElem?_cons_zero, hrole]
    exact congrArg (BitVec.extractLsb' 0 16) hval
  | lit l =>
    change (l.zeroExtend 64).extractLsb' 0 16 = l.extractLsb' 0 16
    ext k hk
    have hk64 : k < 64 := by omega
    simp [hk64]

include hfull hrole

theorem srcGate_full (all : List Ref) (a : SSrc) : s.srcGate s.cur all (sref a) = .go := by
  have hreg : (s.slot s.cur).full a.reg = true := full_of_allOnes hfull a.reg
  simp only [State.srcGate, sref, hrole, hreg, if_true]

theorem dstGate_full (d : SReg) : s.dstGate s.cur (.s d) = .go := by
  rw [dstGate_plain (hrole d)]
  exact if_pos (full_of_allOnes hfull d)

theorem gateOf_formB (x : SOpd) : s.gateOf s.cur (formB [] x) = .go := by
  cases x with
  | reg e =>
    change ((Gate.go).and (s.srcGate s.cur [sref e] (sref e))).and .go = .go
    rw [srcGate_full hfull hrole]
    rfl
  | lit l => rfl

theorem gateOf_formB_dst (d : SReg) (x : SOpd) : s.gateOf s.cur (formB [.s d] x) = .go := by
  have hone := gateOf_one_dst s s.cur (formB [] x) (.s d)
  have hsrc : s.gateOf s.cur { formB [] x with dsts := [] } = .go := gateOf_formB hfull hrole x
  rw [hsrc, dstGate_full hfull hrole] at hone
  exact hone

theorem gateOf_form0_dst (d : SReg) : s.gateOf s.cur (form0 [.s d]) = .go :=
  (gateOf_one_dst s s.cur (form0 []) (.s d)).trans (dstGate_full hfull hrole d)

end

/-! ### The mask instructions (R173) -/

theorem exec_mand (d a : MReg) (b : MOpd) (s : State) : exec (.mand d a b) s = maskOp (· &&& ·) d a b s := rfl
theorem exec_mor (d a : MReg) (b : MOpd) (s : State) : exec (.mor d a b) s = maskOp (· ||| ·) d a b s := rfl
theorem exec_mxor (d a : MReg) (b : MOpd) (s : State) : exec (.mxor d a b) s = maskOp (· ^^^ ·) d a b s := rfl
theorem exec_mnot (d a : MReg) (s : State) :
    exec (.mnot d a) s = .next ((s.putM d (~~~s.me.mask a)).retire (form0 [])) := rfl

section
variable {s : State} (hfull : s.me.sFull = BitVec.allOnes 64) (hrole : ∀ r, s.role s.cur r = .plain)
include hfull hrole

theorem exec_mset (d : MReg) (x : SOpd) :
    exec (.mset d x) s = .next ((s.putM d (s.smask x)).retire (formB [] x)) := by
  have hgo : exec (.mset d x) s =
      .next (((s.pops (formB [] x)).putM d ((s.bval (formB [] x) 0 .zext x).extractLsb' 0 16)).retire (formB [] x)) :=
    gate_go (gateOf_formB hfull hrole x)
  rw [hgo, pops_formB hrole, low16_bval hrole]

theorem exec_mtest (d : SReg) (a : MReg) (x : SOpd) :
    exec (.mtest d a x) s =
      .next ((s.put d ((s.me.mask a &&& s.smask x).zeroExtend 64)).retire (formB [.s d] x)) := by
  have hgo : exec (.mtest d a x) s =
      .next (((s.pops (formB [.s d] x)).put d
        ((s.me.mask a &&& (s.bval (formB [.s d] x) 0 .zext x).extractLsb' 0 16).zeroExtend 64)).retire (formB [.s d] x)) :=
    gate_go (gateOf_formB_dst hfull hrole d x)
  rw [hgo, pops_formB hrole, low16_bval hrole]

theorem exec_mpop (d : SReg) (a : MReg) :
    exec (.mpop d a) s =
      .next ((s.put d (BitVec.ofNat 64 (onesBelow (s.me.mask a).toNat 16))).retire (form0 [.s d])) :=
  gate_go (gateOf_form0_dst hfull hrole d)

theorem exec_mfirst (d : SReg) (a : MReg) :
    exec (.mfirst d a) s =
      .next ((s.put d (BitVec.ofNat 64 (zerosBelow (s.me.mask a).toNat 16))).retire (form0 [.s d])) :=
  gate_go (gateOf_form0_dst hfull hrole d)

end

/-! ### The row of the mask instructions -/

/-- What row 0x36 rejects: a function above 7, and operands that are not 0 though the function does not use them (R55). -/
theorem decodeRow36_reject {w : Nat} (l : W32)
    (h : 8 ≤ w % 32 ∨ ((w % 32 = 3 ∨ w % 32 = 4 ∨ w % 32 = 5) ∧ (w / 2 ^ 7 % 2 ^ 6 ≠ 0 ∨ w / 2 ^ 5 % 2 ≠ 0)) ∨
      (w % 32 = 6 ∧ (w / 2 ^ 13 % 2 ^ 6 ≠ 0 ∨ w / 2 ^ 6 % 2 ≠ 0))) :
    decodeRow36 w l = .error (.field none) := by
  have hfn : fn w = w % 32 := by simp [fn, fld]
  rcases h with hfar | ⟨hone, hb⟩ | ⟨hset, ha⟩
  · obtain ⟨k, hk⟩ := Nat.exists_eq_add_of_le' hfar
    unfold decodeRow36
    rw [hfn, hk]
    rfl
  · have hno : noB w = false := by simpa only [noB, fld, Nat.pow_one, Bool.and_eq_false_iff, beq_eq_false_iff_ne] using hb
    unfold decodeRow36
    rw [hfn]
    rcases hone with hk | hk | hk
    all_goals
      rw [hk]
      simp only [hno, Bool.and_false, Bool.false_and]
      rfl
  · have hno : noA w = false := by simpa only [noA, fld, Nat.pow_one, Bool.and_eq_false_iff, beq_eq_false_iff_ne] using ha
    unfold decodeRow36
    rw [hfn, hset]
    simp only [hno, Bool.and_false]
    rfl

/-- Settles O29: what each function writes, once its sources are readable and its destination is free (R172, R173). -/
theorem maskResult : Obligations.MaskResult := by
  refine ⟨?_, ?_⟩
  · intro w l _ hrow hw
    rw [decode, hrow]
    exact decodeRow36_reject l hw
  · intro s d a b r x h hfull hrole writes scalar y z v
    have hz : s.bmask b = z := by
      cases b with
      | reg e => rfl
      | lit l => rfl
    have hv : s.smask x = v := by
      cases x with
      | reg e => rfl
      | lit l => rfl
    rw [← hz, ← hv]
    refine ⟨exec_writes_mask h (exec_mand d a b s), exec_writes_mask h (exec_mor d a b s),
      exec_writes_mask h (exec_mxor d a b s), exec_writes_mask h (exec_mnot d a s),
      exec_writes_mask h (exec_mset hfull hrole d x), ?_, ?_, ?_,
      exec_writes_scalar (hrole r) h (exec_mtest hfull hrole r a x)⟩
    · have hpop := exec_mpop hfull hrole r a
      rw [onesBelow_eq_length] at hpop
      exact exec_writes_scalar (hrole r) h hpop
    · intro k hk hone hzero
      have hfirst := exec_mfirst hfull hrole r a
      rw [zerosBelow_of_lowest hk hone hzero] at hfirst
      exact exec_writes_scalar (hrole r) h hfirst
    · intro hy
      have hfirst := exec_mfirst hfull hrole r a
      rw [show s.me.mask a = 0 from hy] at hfirst
      exact exec_writes_scalar (hrole r) h hfirst

end Sys2Proof.Machine
end
